-- ==== Sys2Proof/Word.lean ====
section
/-! DEFINITION. The word types of the P9: a byte, a 64-bit message unit, and the plain data that maps a number to a value. -/

namespace Sys2Proof

/-- One byte. -/
abbrev Byte := BitVec 8

/-- One 8-byte message unit of a Solward link (R51). -/
abbrev U64 := BitVec 64

/-- Sparse data by number, kept in rising order of the number; what an unlisted number holds is said where the map is
used. -/
abbrev FMap (α : Type) := List (Nat × α)

end Sys2Proof
end

