-- ==== Sys2Proof/Syntax.lean ====
section
/-! DEFINITION. The commands the P9 takes: one constructor of `Instr` for each row of spec/opcode_table.json, with the
row's operands, and the types those operands need. -/

namespace Sys2Proof

/-- A local master that sends requests from outside: a link port or the endpoint (R25). -/
inductive Src where
  | port (p : Fin 16)
  | ep
  deriving DecidableEq, Repr

/-- The node unit that a relay port adds to each request (Table 06-1). -/
structure NodeUnit where
  node  : BitVec 18
  scope : BitVec 2
  deriving DecidableEq, Repr

/-- The fields of a request header (Table 02-4) with the master it came through. For the endpoint the tag is the
door's number (R579) or free. -/
structure Hdr where
  src  : Src
  tag  : BitVec 12
  cls  : BitVec 6
  ddl  : BitVec 10
  ord  : Bool
  attr : BitVec 8
  addr : BitVec 64
  node : Option NodeUnit
  deriving DecidableEq, Repr

/-- The path a dictionary request takes (chapter 14). -/
inductive Path where
  | t1s
  | window
  | link (p : Fin 16)
  deriving DecidableEq, Repr

/-- Who asks: the path, the session number, the request number, the TAG bytes of R678 (none: empty), the link tag of an
in-band request, and the source a T1S reply goes to. -/
structure Who where
  path    : Path
  session : BitVec 32
  reqId   : BitVec 16
  mac     : List Byte
  ltag    : BitVec 12
  peer    : Nat
  deriving DecidableEq, Repr

/-- The fields of a dictionary request header (Table 14-4) that a READ, WRITE or DESCRIBE body states itself. -/
structure DictHdr where
  who     : Who
  version : BitVec 8
  op      : BitVec 8
  index   : BitVec 16
  sub     : BitVec 8
  flags   : BitVec 8
  offset  : BitVec 32
  length  : BitVec 32
  rsvd    : BitVec 32
  deriving DecidableEq, Repr

/-- A received flit (Table 02-3) with its CRC word; `cwOk` says whether its codewords decoded, `lane` the lane a failure
is attributed to. -/
structure Flit where
  kind  : BitVec 2
  seq   : BitVec 10
  ack   : BitVec 10
  cvc   : BitVec 2
  ccnt  : BitVec 8
  units : List U64
  crc   : BitVec 32
  cwOk  : Bool
  lane  : Option (Fin 16)
  deriving DecidableEq, Repr

/-- The half of a port's lanes: 0–7 or 8–15. -/
inductive Half where
  | low
  | high
  deriving DecidableEq, Repr

/-- The PARAM exchange (Table 02-10): which halves trained cleanly, the partner's credits, node and feature word. -/
structure ParamMsg where
  lowClean  : Bool
  highClean : Bool
  advReq    : Nat
  advRsp    : Nat
  advSnp    : Nat
  advMgmt   : Nat
  node      : BitVec 18
  features  : BitVec 64
  deriving DecidableEq, Repr

/-- A DRAM queue: pseudo-channel `pc` of a stack, or a far channel (R443). -/
inductive Chan where
  | near (s : Fin 8) (pc : Fin 32)
  | far (m : Fin 24)
  deriving DecidableEq, Repr

/-- A DRAM unit that trains, is recalibrated and is fenced as a whole. -/
inductive DUnit where
  | stack (s : Fin 8)
  | chan (m : Fin 24)
  deriving DecidableEq, Repr

/-- An error of one symbol of a code word: its place and what is XORed onto it (R486). Symbols 0–39 are the stored ones; 40 is
V0 and 41 is V1, which differ where an access used a wrong realm or reached a wrong location (R489). -/
structure SymErr where
  sym : Fin 42
  val : BitVec 16
  deriving DecidableEq, Repr

/-- What a scrub read of one granule met: the granule (tier 1 near, 2 far; LOC of Table 05-3) and its symbol errors. -/
structure ScrubHit where
  tier : BitVec 2
  loc  : BitVec 38
  errs : List SymErr
  deriving DecidableEq, Repr

/-- The SPD contents of a DIMM (Table 09-2). `supported` says whether it declares the standard, the x4 devices and the operation
at 8000 MT/s that R439 asks for; the capacity, the density (32 Gb or 16 Gb) and the ranks stand for themselves. -/
structure Spd where
  gib       : Nat
  dens32    : Bool
  ranks     : BitVec 3
  supported : Bool
  rfm       : Bool
  serial    : BitVec 32
  part      : List Byte
  deriving DecidableEq, Repr

/-- A holder of copies whose loss starts a purge (R329): a port, the endpoint, or a group or pod whose route changes. -/
inductive Holder where
  | port (p : Fin 16)
  | ep
  | route (pod : Bool) (i : BitVec 6)
  deriving DecidableEq, Repr

/-- A memory or AtomicOp TLP to BAR2: a number that names it, the offset in BAR2, the length in bytes, RO and EP. -/
structure Tlp where
  id  : Nat
  off : BitVec 38
  len : Nat
  ro  : Bool
  ep  : Bool
  deriving DecidableEq, Repr

/-- A configuration request and the fields of configuration space that chapter 12 gives a meaning. -/
inductive CfgOp where
  | read
  | dState (d : BitVec 2)
  | busMaster (b : Bool)
  | memEnable (b : Bool)
  | intDisable (b : Bool)
  | msixEnable (b : Bool)
  | atsEnable (b : Bool)
  | pmeEn (b : Bool)
  | cplTimeout (us : Nat)
  | rcb128 (b : Bool)
  | other
  deriving DecidableEq, Repr

/-- The BAR0 registers that only hold what is written to them, and the doors' CONTROL; the MSI-X table has 128 words of 8 bytes
(Table 12-2). -/
inductive Bar0Reg where
  | ringBase
  | shadowAddr
  | doorOperand (d : Fin 56)
  | doorControl (d : Fin 56)
  | msixTable (v : Fin 128)
  deriving DecidableEq, Repr

/-- The ring whose HEAD host software writes (Table 13-5). -/
inductive HeadReg where
  | cpl
  | evt
  | log
  deriving DecidableEq, Repr

/-- A command entry as Core L reads it from the command ring (Table 13-6); `buf` is what the host buffer holds. -/
structure CmdEntry where
  cmdId    : BitVec 32
  index    : BitVec 16
  sub      : BitVec 8
  valueLen : BitVec 8
  bufLen   : BitVec 32
  bufAddr  : BitVec 64
  value    : List Byte
  buf      : List Byte
  deriving DecidableEq, Repr

/-- The four management cores (Table 13-1). -/
inductive CoreId where
  | coreM
  | coreP
  | coreL
  | coreC
  deriving DecidableEq, Repr

/-- A unit whose duplicated state is compared (R538, R539, Table 11-6). -/
inductive DupUnit where
  | h2arb
  | h2src (s : Fin 17)
  | h3
  | h4
  | h5
  | h6
  | h7
  | h8
  | h10
  | h11
  | pchan (c : Chan)
  | mdie (k : Fin 8)
  | config (resolved : Bool)
  deriving DecidableEq, Repr

/-- A checker of Table 11-4 by its kind and place. -/
inductive Checker where
  | dramDecoder (c : Chan)
  | codec (d : Fin 512)
  | parityPort (p : Fin 16)
  | parityMem (k : Fin 8)
  | parityWq (k : Fin 8)
  | parityHub (path : Fin 5)
  | flitCrc (p : Fin 16)
  | crcHub (i : Fin 3)
  | crcDie (k : Fin 8)
  | dirCompare (i : Fin 2)
  | dup (u : DupUnit)
  | keyDie (k : Fin 8)
  | keyHub (i : Fin 2)
  | alert
  deriving DecidableEq, Repr

/-- A relay frame's fields (Table 15-6). `slot` is the PLCA node whose transmit opportunity carried it. -/
structure RelayFrame where
  slot        : BitVec 8
  magicOk     : Bool
  ack         : BitVec 8
  frag        : BitVec 16
  containerId : BitVec 64
  word        : BitVec 32
  frags       : BitVec 16
  body        : List Byte
  deriving DecidableEq, Repr

/-- The readings Core P takes each 1 ms (R632): junctions, stacks and DIMMs in m°C, package power in mW. -/
structure Sensors where
  tj      : List Int
  stackT  : List Int
  power   : Nat
  deriving DecidableEq, Repr

/-- What a start finds: which image banks verify (R602, R720), and the DIMMs of the 48 far slots by their SPD (R479). -/
structure BootView where
  bank0Ok : Bool
  bank1Ok : Bool
  dimms   : List (Option Spd)
  deriving DecidableEq, Repr

/-- The commands of the P9: one constructor per row of spec/opcode_table.json, in the table's order. -/
inductive Instr where
  -- links
  | flitReceived (p : Fin 16) (f : Flit)
  | replayReq (p : Fin 16) (seq : BitVec 10)
  | degradeReq (p : Fin 16) (half : Half) (at_ : BitVec 12)
  | degradeAck (p : Fin 16) (at_ : BitVec 12)
  | upshiftReq (p : Fin 16) (at_ : BitVec 12)
  | upshiftAck (p : Fin 16) (at_ : BitVec 12)
  | widthSwitch (p : Fin 16)
  | param (p : Fin 16) (x : ParamMsg)
  | resume (p : Fin 16) (valid : Bool) (seq : BitVec 10)
  | resetNotice (p : Fin 16)
  | controlRepeat (p : Fin 16)
  | ackTimeout (p : Fin 16)
  | degradeTimeout (p : Fin 16)
  | laneSerCheck (p : Fin 16) (counts : List Nat)
  | upshiftSoakEnd (p : Fin 16)
  | laneDetect (p : Fin 16) (lanes : Bool)
  | trainingStart (p : Fin 16)
  | trainingFailed (p : Fin 16)
  | creditCarrierTimeout (p : Fin 16)
  | messageStart (p : Fin 16)
  | rspHoldStart (p : Fin 16)
  | injectFlitCrc (w : Who) (p : Fin 16) (v : BitVec 8)
  | portEnableWrite (w : Who) (p : Fin 16) (v : BitVec 8)
  | portWidthMaxWrite (w : Who) (p : Fin 16) (v : BitVec 8)
  -- requests
  | read (h : Hdr)
  | readExcl (h : Hdr)
  | readOnce (h : Hdr)
  | readHalf (h : Hdr)
  | write (h : Hdr) (data : List Byte)
  | writeMasked (h : Hdr) (mask : BitVec 64) (data : List Byte)
  | writeback (h : Hdr) (data : List Byte)
  | releaseClean (h : Hdr)
  | fence (h : Hdr)
  | atomicAdd (h : Hdr) (a : U64)
  | atomicCas (h : Hdr) (cmp swp : U64)
  | atomicFadd32 (h : Hdr) (a : U64)
  | atomicBfadd (h : Hdr) (a : U64)
  | vecAccum (h : Hdr) (data : List Byte)
  | bollardAdd (h : Hdr) (a : U64)
  | bollardSignal (h : Hdr) (a : U64)
  | bollardReset (h : Hdr) (a : U64)
  | bollardWaitGe (h : Hdr) (a : U64)
  | bollardBarrierArrive (h : Hdr) (a : U64)
  | bollardCancel (h : Hdr) (a : U64)
  | snpAck (m : Src) (stag : BitVec 12) (wbPending : Bool)
  | snpData (m : Src) (stag : BitVec 12) (data : List Byte)
  | requestGrant (mismatch : Option DupUnit)
  | transactionEnd (line : BitVec 37)
  | channelAdmission (c : Chan)
  | controllerIssue (c : Chan)
  | dramReadReturn (c : Chan) (errs : List (List SymErr))
  | lineStoreWritebackAccepted (line : BitVec 37)
  | landingInstallComplete (page : BitVec 28) (blk : BitVec 4)
  | landingEviction (page : BitVec 28) (blk : BitVec 4)
  | evictionAccepted (page : BitVec 28) (blk : BitVec 4)
  | placementAccepted (page : BitVec 28)
  | farBayAvailable
  -- Tide engine
  | jobDispatch
  | copyPassEnd (page : BitVec 28)
  | migrationSwitch (page : BitVec 28)
  | sourceRelease (page : BitVec 28)
  | sweeperVisit
  | migOverloadMs
  | lentReadCompletion (id : Nat) (good : Bool)
  | lentReadTimeout (id : Nat)
  | cloneStart (w : Who)
  | clonePageInstall
  | lentRegister (w : Who) (r : Fin 64)
  | lentWithdraw (w : Who) (r : Fin 64)
  | withdrawComplete (r : Fin 64)
  | evacuate (w : Who)
  | powerOff (w : Who)
  | slotOff (slot : Fin 48)
  | return_ (w : Who) (spd : Option Spd) (powerOk trainOk : Bool)
  | slotFillComplete (slot : Fin 48)
  | slotCancel (w : Who)
  | nearReservableCapWrite (w : Who) (v : BitVec 32)
  -- directory
  | snoopTimeout (m : Src) (stag : BitVec 12)
  | purgeEnd (h : Holder)
  | routeWrite (w : Who) (pod : Bool) (i : BitVec 6) (v : BitVec 8)
  | epGrantsWrite (w : Who) (v : BitVec 8)
  | directorySweep
  | dirFlipMask (w : Who) (v : BitVec 32)
  | dirSplitWrite (w : Who) (v : BitVec 8)
  -- Bollards and the ALU
  | bollardTimeout (b : BitVec 14) (src : Src) (tag : BitVec 12)
  | waiterDispatch
  | srSeedWrite (w : Who) (isMode : Bool) (v : U64)
  | aluFlipMask (w : Who) (v : BitVec 32)
  | bollardFlipMask (w : Who) (v : BitVec 32)
  -- Breakwater
  | overdueSweep
  | classCommit (w : Who)
  | classDiscard (w : Who)
  | operatorCapWrite (w : Who) (v : BitVec 16)
  -- DRAM
  | bankIdleTimeout (c : Chan) (bank : BitVec 9)
  | refreshDue (c : Chan)
  | rdWindowEnd (m : Fin 24) (rank : BitVec 3)
  | recalDue (c : Chan)
  | driftCheck (m : Fin 24) (perMille : Nat)
  | recalComplete (c : Chan) (ok : Bool) (margin : BitVec 16)
  | recalNow (w : Who) (u : DUnit) (v : BitVec 8)
  | srEntry (m : Fin 24)
  | srExitComplete (m : Fin 24)
  | dimmTempPoll (slot : Fin 48) (t : Option (Int × Int))
  | trainingAttemptDone (u : DUnit) (ok : Bool)
  | splitWrite (w : Who) (u : DUnit) (v : BitVec 8)
  -- integrity
  | scrubBurst (k : Fin 8) (hits : List ScrubHit)
  | scrubPeriodEnd (k : Fin 8) (complete : Bool)
  | remapInstallDone (c : Chan) (entry : BitVec 4)
  | softRepairDone (c : Chan) (entry : BitVec 4)
  | nearFillComplete
  | farFillComplete
  | realmEnable (w : Who) (r : BitVec 8)
  | realmDisable (w : Who) (r : BitVec 8)
  | keyReloadDone (k : Fin 8) (r : BitVec 8) (hubOk : Bool)
  | eccFlipMask (w : Who) (v : BitVec 32)
  | parityFlipPath (w : Who) (v : BitVec 8)
  -- safety
  | selftestVector (c : Checker) (ok : Bool)
  | selftestPeriodEnd
  | configCompareSweep (mismatch : Option Bool)
  | safetyAck (w : Who) (v : BitVec 8)
  | alertTest (w : Who) (v : BitVec 8)
  | alertTestEnd
  | forceSafe (w : Who) (v : BitVec 8)
  -- endpoint
  | memoryReadTlp (t : Tlp)
  | memoryWriteTlp (t : Tlp) (be : List Bool) (data : List Byte)
  | fetchAddTlp (t : Tlp) (a : U64)
  | casTlp (t : Tlp) (cmp swp : U64)
  | swapTlp (t : Tlp)
  | configRequest (id : Nat) (op : CfgOp)
  | invalidateRequest (base len : Nat)
  | invalidationComplete
  | atsTranslationComplete (id : Nat) (ok : Bool)
  | dmaCompletion (ch : Fin 4) (id : Nat) (ep : Bool)
  | completionTimeout (ch : Fin 4) (id : Nat)
  | functionLevelReset
  | flrComplete
  | perstNAssert
  | perstNDeassert
  | pcieLinkUp (width rate : BitVec 8)
  | snoopAnswer (stag : BitVec 12)
  | sqHeadWrite (v : U64)
  | intxCauseWrite (v : U64)
  | bar0BadAccess (isWrite : Bool)
  | dmaRestart (w : Who) (v : BitVec 32)
  | registerWrite (r : Bar0Reg) (v : U64)
  -- rings
  | ringEnable
  | ringBindComplete
  | ringOffer
  | ringDisable
  | cmdTailWrite (v : BitVec 32)
  | ringHeadWrite (r : HeadReg) (v : BitVec 32)
  | shadowWrite
  | nop (e : CmdEntry)
  | ringDictRead (e : CmdEntry)
  | ringDictWrite (e : CmdEntry)
  | backupLogDump (e : CmdEntry)
  | updHeader (e : CmdEntry)
  | updBlock (e : CmdEntry)
  | updVerify (e : CmdEntry)
  | updActivate (e : CmdEntry)
  | updConfirm (e : CmdEntry)
  | updAbort (e : CmdEntry)
  | updRollback (e : CmdEntry)
  -- cores
  | watchdogExpiry (c : CoreId)
  | watchdogKick (c : CoreId)
  | lockstepMismatch (c : CoreId)
  | fetchFault (c : CoreId)
  | unhandledTrap (c : CoreId)
  | coreRestartDone (c : CoreId) (digestOk : Bool)
  | coreRestart (w : Who) (v : BitVec 8)
  | lockstepInject (w : Who) (v : BitVec 8)
  | corePLoop (x : Sensors)
  | aonJunctionCheck (tj : List Int)
  | bootComplete (x : BootView)
  | backupLogClear (w : Who) (v : BitVec 8)
  -- dictionary
  | dictRead (h : DictHdr)
  | dictWrite (h : DictHdr) (value : List Byte)
  | open_ (w : Who) (auth : BitVec 8)
  | prove (w : Who) (value : List Byte)
  | close (w : Who)
  | describe (w : Who)
  | sessionIdleTimeout (path : Path) (session : BitVec 32)
  | pendingSessionTimeout (path : Path) (session : BitVec 32)
  | assemblyTimeout (path : Path) (session : BitVec 32)
  | authLockoutEnd (path : Path) (auth : BitVec 8)
  | changeRecordComplete (index : BitVec 16) (sub : BitVec 8)
  | configReset (w : Who) (v : BitVec 8)
  | noticeAck (w : Who) (index : BitVec 16) (v : BitVec 8)
  | neighborSolicitation (peer : Nat) (target : BitVec 128)
  | echoRequest (peer : Nat) (data : List Byte)
  | t1sDiscard
  -- regions and sessions
  | regionCommit (w : Who) (k : BitVec 12)
  | commitComplete (k : BitVec 12)
  | regionSeal (w : Who) (k : BitVec 12)
  | ingestValidation (k : BitVec 12)
  | sealingComplete (k : BitVec 12)
  | regionRetire (w : Who) (k : BitVec 12)
  | retirementComplete (k : BitVec 12)
  | regionDiscard (w : Who) (k : BitVec 12)
  | sessionOpen (w : Who) (n : BitVec 10)
  | sessionResize (w : Who) (n : BitVec 10)
  | sessionClose (w : Who) (n : BitVec 10)
  | retable (w : Who) (k : BitVec 16)
  | retableComplete
  | codecFlipMask (w : Who) (v : BitVec 32)
  -- update
  | start (w : Who)
  | block (w : Who) (body : List Byte)
  | blockWritten
  | verify (w : Who)
  | verifyComplete
  | activate (w : Who)
  | activationComplete
  | confirm (w : Who)
  | abort (w : Who)
  | rollback (w : Who)
  | trialDeadlineExpiry
  | rollbackComplete
  | rootSlotRevoke (w : Who) (v : BitVec 8)
  | relayHeader (f : RelayFrame)
  | relayData (f : RelayFrame)
  | relayAck (f : RelayFrame)
  | relayAckTimeout (blk : BitVec 32)
  | relayAckTick
  -- power and reset
  | powerOn
  | resetN
  | deviceReset (w : Who) (v : BitVec 8)
  | commandReset
  | pwrgoodFall
  | railFault (rail : BitVec 4)
  | clockLoss
  | resetRelease (straps : BitVec 3)
  | leaveInit
  | memholdActive
  | holdEntryComplete
  | holdReminder
  | memholdInactive
  | holdExitComplete
  | tamperActive
  | pinChatterAck (w : Who) (v : BitVec 8)
  | mainPowerLoss
  | vbatLoss
  | backupSample (mv : BitVec 16) (temp : Int) (tamper : Bool)
  | backupAlarmAck (w : Who) (v : BitVec 8)
  -- Tidegauge
  | cntSnapshot (w : Who) (v : BitVec 8)
  | cntClear (w : Who) (all : Bool) (j : BitVec 11) (v : BitVec 8)
  | counterConfigWrite (w : Who) (j : BitVec 11) (isFilter : Bool) (v : U64)
  | tpControlWrite (w : Who) (pt : Fin 9) (v : BitVec 32)
  | traceModeWrite (w : Who) (v : BitVec 8)
  | traceRead (w : Who)
  | streamEnableWrite (w : Who) (v : BitVec 8)
  | streamHeadWrite (w : Who) (v : U64)
  | streamWrite
  | laneLockLost (p : Fin 16) (lane : Fin 16)
  | pcieLinkDown
  | endpointReady
  | vbatReturn
  | mainRailsRise
  | tamperInactive
  | sealTableBuilt (k : BitVec 12)
  | t1sLinkChange (st : BitVec 2)
  deriving DecidableEq, Repr

end Sys2Proof
end

