-- ==== Sys2Proof/Decode.lean ====
section
/-! DEFINITION. The decoder of command words: the opcode table gives its rows no bits, so no word spells a command. -/

namespace Sys2Proof

/-- The command that a word spells by the table's bits: none, since no row gives any. -/
def decodeTableWord (_nbits _w : Nat) : Option Instr := none

end Sys2Proof
end

