-- ==== Sys2Proof/Machine/Objects.lean ====
section
/-! DEFINITION. The dictionary's objects (chapter 14, and the object table of every chapter): for each index its rows, and
for each object the number it is kept under. Written from the object tables of spec/. -/

namespace Sys2Proof.Machine

/-- Types (Table 14-1). -/
inductive OTy where
  | u8 | u16 | u32 | u64 | i32 | i64 | f32 | bits32 | bits64 | enum8 | time64 | str | blob
  deriving DecidableEq, Repr

/-- The type code (Table 14-1). -/
def OTy.code : OTy → Nat
  | .u8 => 1 | .u16 => 2 | .u32 => 3 | .u64 => 4 | .i32 => 5 | .i64 => 6 | .f32 => 7 | .bits32 => 8 | .bits64 => 9
  | .enum8 => 10 | .time64 => 11 | .str => 12 | .blob => 13

/-- Bytes of a fixed-size type (Table 14-1); none for STR and BLOB. -/
def OTy.bytes : OTy → Option Nat
  | .u8 => some 1 | .enum8 => some 1 | .u16 => some 2 | .u32 => some 4 | .i32 => some 4 | .f32 => some 4 | .bits32 => some 4
  | .u64 => some 8 | .i64 => some 8 | .bits64 => some 8 | .time64 => some 8 | .str => none | .blob => none

/-- Access codes (Table 14-2). -/
inductive OAcc where
  | ro | rw | wo | rwl | const
  deriving DecidableEq, Repr

/-- Apply classes (Table 14-3). -/
inductive OApp where
  | imm | commit | act | boot
  deriving DecidableEq, Repr

/-- The values an object takes: any of its type, a range, the bits that are not reserved, or the listed ones. -/
inductive ORng where
  | any
  | iv (lo hi : Int)
  | mask (m : Nat)
  | oneOf (vs : List Nat)
  deriving DecidableEq, Repr

/-- One row of an object table: the subindices it covers, type, access, the least authority to read and to write (0 Q, 1 V,
2 P, 3 O; 4: denied to every authority, R647), default, apply class, whether it is stored, and its range. -/
structure ORow where
  sub0  : Nat
  sub1  : Nat
  ty    : OTy
  acc   : OAcc
  ra    : Nat
  wa    : Nat
  dflt  : Nat
  app   : OApp
  store : Bool
  rng   : ORng
  deriving DecidableEq, Repr

/-- The rows of one index and of the indices that repeat it: `count` of them, `stride` apart. -/
structure OGroup where
  base   : Nat
  stride : Nat
  count  : Nat
  rows   : List ORow
  deriving DecidableEq, Repr

/-- The number that object index.sub is kept under. -/
abbrev okey (index sub : Nat) : Nat := index * 256 + sub

/-- The rows of index 1000. -/
def rows1000 : List ORow := [
  ⟨0x00, 0x00, .u8, .const, 1, 4, 8, .imm, false, .any⟩,
  ⟨0x01, 0x01, .str, .const, 0, 4, 0, .imm, false, .any⟩,
  ⟨0x02, 0x02, .u8, .const, 0, 4, 177, .imm, false, .any⟩,
  ⟨0x03, 0x03, .u64, .const, 1, 4, 0, .imm, false, .any⟩,
  ⟨0x04, 0x04, .u16, .const, 1, 4, 0, .imm, false, .any⟩,
  ⟨0x05, 0x05, .u32, .ro, 0, 4, 0, .act, false, .any⟩,
  ⟨0x06, 0x06, .blob, .ro, 1, 4, 0, .act, false, .any⟩,
  ⟨0x07, 0x07, .u8, .ro, 1, 4, 0, .act, false, .any⟩,
  ⟨0x08, 0x08, .u64, .const, 1, 4, 0, .imm, false, .any⟩]

/-- The rows of index 1001. -/
def rows1001 : List ORow := [
  ⟨0x00, 0x00, .u8, .const, 1, 4, 2, .imm, false, .any⟩,
  ⟨0x01, 0x01, .bits64, .const, 1, 4, 0, .imm, false, .any⟩,
  ⟨0x02, 0x02, .bits32, .const, 1, 4, 7, .imm, false, .any⟩]

/-- The rows of index 1100. -/
def rows1100 : List ORow := [
  ⟨0x00, 0x00, .u8, .const, 1, 4, 9, .imm, false, .any⟩,
  ⟨0x01, 0x01, .u8, .ro, 1, 4, 0, .imm, false, .any⟩,
  ⟨0x02, 0x02, .u8, .rw, 1, 2, 8, .boot, true, (.iv 2 8)⟩,
  ⟨0x03, 0x03, .enum8, .ro, 1, 4, 0, .imm, false, .any⟩,
  ⟨0x04, 0x04, .blob, .ro, 1, 4, 0, .imm, false, .any⟩,
  ⟨0x05, 0x05, .u16, .const, 1, 4, 18810, .imm, false, .any⟩,
  ⟨0x06, 0x06, .u64, .ro, 1, 4, 0, .imm, false, .any⟩,
  ⟨0x07, 0x07, .u64, .ro, 1, 4, 0, .imm, false, .any⟩,
  ⟨0x08, 0x08, .u64, .ro, 1, 4, 0, .imm, false, .any⟩,
  ⟨0x09, 0x09, .u8, .rw, 1, 3, 1, .imm, true, (.iv 0 1)⟩]

/-- The rows of index 1101. -/
def rows1101 : List ORow := [
  ⟨0x00, 0x00, .u8, .const, 1, 4, 1, .imm, false, .any⟩,
  ⟨0x01, 0x01, .u32, .rw, 0, 3, 0, .boot, true, (.mask 0x3FFFF)⟩]

/-- The rows of index 1102. -/
def rows1102 : List ORow := [
  ⟨0x00, 0x00, .u8, .const, 1, 4, 5, .imm, false, .any⟩,
  ⟨0x01, 0x01, .u8, .rw, 1, 3, 0, .imm, true, (.iv 0 1)⟩,
  ⟨0x02, 0x02, .enum8, .rw, 1, 3, 2, .imm, true, (.iv 1 2)⟩,
  ⟨0x03, 0x03, .blob, .wo, 4, 3, 0, .imm, true, .any⟩,
  ⟨0x04, 0x04, .blob, .wo, 4, 3, 0, .imm, true, .any⟩,
  ⟨0x05, 0x05, .bits32, .ro, 1, 4, 0, .imm, false, .any⟩]

/-- The rows of index 1103. -/
def rows1103 : List ORow := [
  ⟨0x00, 0x00, .u8, .const, 1, 4, 8, .imm, false, .any⟩,
  ⟨0x01, 0x01, .u32, .rw, 1, 2, 600, .imm, true, (.iv 10 86400)⟩,
  ⟨0x02, 0x02, .u8, .ro, 1, 4, 0, .imm, false, .any⟩,
  ⟨0x03, 0x03, .u8, .ro, 1, 4, 0, .imm, false, .any⟩,
  ⟨0x04, 0x04, .enum8, .ro, 0, 4, 0, .imm, false, .any⟩,
  ⟨0x05, 0x05, .u32, .ro, 1, 4, 0, .imm, false, .any⟩,
  ⟨0x06, 0x06, .u32, .ro, 1, 4, 0, .imm, false, .any⟩,
  ⟨0x07, 0x07, .time64, .ro, 1, 4, 0, .imm, false, .any⟩,
  ⟨0x08, 0x08, .u64, .ro, 1, 4, 0, .imm, false, .any⟩]

/-- The rows of index 1104. -/
def rows1104 : List ORow := [
  ⟨0x00, 0x00, .u8, .const, 1, 4, 6, .imm, false, .any⟩,
  ⟨0x01, 0x03, .u64, .ro, 1, 4, 0, .imm, false, .any⟩,
  ⟨0x04, 0x04, .u64, .ro, 1, 4, 0, .imm, false, .any⟩,
  ⟨0x05, 0x05, .u64, .ro, 1, 4, 0, .imm, false, .any⟩,
  ⟨0x06, 0x06, .u64, .ro, 1, 4, 0, .imm, false, .any⟩]

/-- The rows of index 1200. -/
def rows1200 : List ORow := [
  ⟨0x00, 0x00, .u8, .const, 1, 4, 5, .imm, false, .any⟩,
  ⟨0x01, 0x01, .enum8, .ro, 0, 4, 2, .imm, false, .any⟩,
  ⟨0x02, 0x02, .enum8, .ro, 1, 4, 0, .imm, false, .any⟩,
  ⟨0x03, 0x03, .time64, .ro, 1, 4, 0, .imm, false, .any⟩,
  ⟨0x04, 0x04, .u32, .ro, 1, 4, 0, .imm, false, .any⟩,
  ⟨0x05, 0x05, .enum8, .ro, 1, 4, 0, .imm, false, .any⟩]

/-- The rows of index 1201. -/
def rows1201 : List ORow := [
  ⟨0x00, 0x00, .u8, .const, 1, 4, 6, .imm, false, .any⟩,
  ⟨0x01, 0x01, .enum8, .ro, 1, 4, 0, .imm, false, .any⟩,
  ⟨0x02, 0x02, .u64, .ro, 1, 4, 0, .imm, false, .any⟩,
  ⟨0x03, 0x03, .u16, .ro, 1, 4, 0, .imm, false, .any⟩,
  ⟨0x04, 0x04, .u32, .ro, 1, 4, 0, .imm, false, .any⟩,
  ⟨0x05, 0x05, .u32, .ro, 1, 4, 0, .imm, false, .any⟩,
  ⟨0x06, 0x06, .u8, .wo, 4, 3, 0, .boot, true, .any⟩]

/-- The rows of index 2000. -/
def rows2000 : List ORow := [
  ⟨0x00, 0x00, .u8, .const, 1, 4, 12, .imm, false, .any⟩,
  ⟨0x01, 0x01, .enum8, .ro, 0, 4, 0, .imm, false, .any⟩,
  ⟨0x02, 0x02, .u8, .ro, 0, 4, 0, .imm, false, .any⟩,
  ⟨0x03, 0x03, .enum8, .ro, 1, 4, 0, .imm, false, .any⟩,
  ⟨0x04, 0x04, .u32, .ro, 1, 4, 0, .imm, false, .any⟩,
  ⟨0x05, 0x05, .bits64, .ro, 1, 4, 0, .imm, false, .any⟩,
  ⟨0x06, 0x06, .u64, .ro, 1, 4, 0, .imm, false, .any⟩,
  ⟨0x07, 0x07, .u32, .ro, 1, 4, 0, .imm, false, .any⟩,
  ⟨0x08, 0x08, .u32, .ro, 1, 4, 0, .imm, false, .any⟩,
  ⟨0x09, 0x09, .enum8, .ro, 1, 4, 0, .imm, false, .any⟩,
  ⟨0x0A, 0x0A, .enum8, .ro, 1, 4, 0, .imm, false, .any⟩,
  ⟨0x0B, 0x0B, .u16, .ro, 0, 4, 0, .imm, false, .any⟩,
  ⟨0x0C, 0x0C, .u32, .ro, 1, 4, 0, .imm, false, .any⟩]

/-- The rows of index 2001. -/
def rows2001 : List ORow := [
  ⟨0x00, 0x00, .u8, .const, 1, 4, 10, .imm, false, .any⟩,
  ⟨0x01, 0x01, .u8, .rw, 1, 2, 1, .imm, true, (.iv 0 1)⟩,
  ⟨0x02, 0x02, .u8, .rw, 1, 2, 16, .imm, true, (.oneOf [8, 16])⟩,
  ⟨0x03, 0x03, .u8, .rw, 1, 2, 1, .imm, true, (.iv 0 1)⟩,
  ⟨0x04, 0x04, .u8, .rw, 1, 2, 1, .imm, true, (.iv 0 1)⟩,
  ⟨0x05, 0x05, .u8, .rw, 1, 2, 0, .boot, true, (.iv 0 3)⟩,
  ⟨0x06, 0x06, .bits32, .rw, 1, 2, 0, .boot, true, (.mask 0xFFFF)⟩,
  ⟨0x07, 0x07, .u16, .rw, 1, 2, 64, .imm, true, (.iv 1 1024)⟩,
  ⟨0x08, 0x08, .u32, .rw, 1, 2, 1000, .imm, true, .any⟩,
  ⟨0x09, 0x09, .u32, .rw, 1, 2, 100000, .imm, true, .any⟩,
  ⟨0x0A, 0x0A, .u8, .rw, 1, 3, 1, .imm, true, (.iv 0 1)⟩]

/-- The rows of index 2002. -/
def rows2002 : List ORow := [
  ⟨0x00, 0x00, .u8, .const, 1, 4, 8, .imm, false, .any⟩,
  ⟨0x01, 0x01, .u32, .const, 1, 4, 32768, .imm, false, .any⟩,
  ⟨0x02, 0x02, .u32, .const, 1, 4, 8192, .imm, false, .any⟩,
  ⟨0x03, 0x03, .u32, .const, 1, 4, 0, .imm, false, .any⟩,
  ⟨0x04, 0x04, .u32, .const, 1, 4, 1024, .imm, false, .any⟩,
  ⟨0x05, 0x05, .u32, .ro, 1, 4, 0, .imm, false, .any⟩,
  ⟨0x06, 0x06, .u32, .ro, 1, 4, 0, .imm, false, .any⟩,
  ⟨0x07, 0x07, .u32, .ro, 1, 4, 0, .imm, false, .any⟩,
  ⟨0x08, 0x08, .u32, .ro, 1, 4, 0, .imm, false, .any⟩]

/-- The rows of index 2003. -/
def rows2003 : List ORow := [
  ⟨0x00, 0x00, .u8, .const, 1, 4, 7, .imm, false, .any⟩,
  ⟨0x01, 0x01, .u16, .rw, 1, 2, 4, .imm, true, (.iv 2 64)⟩,
  ⟨0x02, 0x02, .u32, .rw, 1, 2, 100, .imm, true, (.iv 10 10000)⟩,
  ⟨0x03, 0x03, .u32, .rw, 1, 2, 524288, .imm, true, .any⟩,
  ⟨0x04, 0x04, .u32, .rw, 1, 2, 10, .imm, true, (.iv 2 1000)⟩,
  ⟨0x05, 0x05, .u8, .rw, 1, 2, 3, .imm, true, (.iv 1 16)⟩,
  ⟨0x06, 0x06, .u32, .rw, 1, 2, 30, .imm, true, (.iv 10 200)⟩,
  ⟨0x07, 0x07, .u32, .rw, 1, 2, 1000, .imm, true, .any⟩]

/-- The rows of index 2004. -/
def rows2004 : List ORow := [
  ⟨0x00, 0x00, .u8, .const, 1, 4, 16, .imm, false, .any⟩,
  ⟨0x01, 0x10, .u64, .ro, 1, 4, 0, .imm, false, .any⟩]

/-- The rows of index 2005. -/
def rows2005 : List ORow := [
  ⟨0x00, 0x00, .u8, .const, 1, 4, 16, .imm, false, .any⟩,
  ⟨0x01, 0x10, .enum8, .ro, 1, 4, 0, .imm, false, .any⟩]

/-- The rows of index 2006. -/
def rows2006 : List ORow := [
  ⟨0x00, 0x00, .u8, .const, 1, 4, 7, .imm, false, .any⟩,
  ⟨0x01, 0x01, .u16, .ro, 1, 4, 0, .imm, false, .any⟩,
  ⟨0x02, 0x02, .u8, .ro, 1, 4, 0, .imm, false, .any⟩,
  ⟨0x03, 0x03, .u32, .ro, 1, 4, 0, .imm, false, .any⟩,
  ⟨0x04, 0x04, .u16, .ro, 1, 4, 0, .imm, false, .any⟩,
  ⟨0x05, 0x05, .u16, .rw, 1, 2, 900, .imm, true, .any⟩,
  ⟨0x06, 0x06, .u16, .rw, 1, 2, 100, .imm, true, .any⟩,
  ⟨0x07, 0x07, .u8, .wo, 4, 2, 0, .imm, false, .any⟩]

/-- The rows of index 2007. -/
def rows2007 : List ORow := [
  ⟨0x00, 0x00, .u8, .const, 1, 4, 1, .imm, false, .any⟩,
  ⟨0x01, 0x01, .u8, .wo, 4, 3, 0, .imm, false, .any⟩]

/-- The rows of index 2800. -/
def rows2800 : List ORow := [
  ⟨0x00, 0x00, .u8, .const, 1, 4, 7, .imm, false, .any⟩,
  ⟨0x01, 0x01, .u8, .ro, 1, 4, 0, .imm, false, .any⟩,
  ⟨0x02, 0x02, .u8, .ro, 1, 4, 0, .imm, false, .any⟩,
  ⟨0x03, 0x03, .enum8, .ro, 1, 4, 0, .imm, false, .any⟩,
  ⟨0x04, 0x04, .u8, .ro, 1, 4, 0, .imm, false, .any⟩,
  ⟨0x05, 0x05, .u8, .ro, 1, 4, 0, .imm, false, .any⟩,
  ⟨0x06, 0x06, .u16, .ro, 1, 4, 0, .imm, false, .any⟩,
  ⟨0x07, 0x07, .u32, .ro, 1, 4, 50000, .imm, false, .any⟩]

/-- The rows of index 2801. -/
def rows2801 : List ORow := [
  ⟨0x00, 0x00, .u8, .const, 1, 4, 10, .imm, false, .any⟩,
  ⟨0x01, 0x04, .u64, .rw, 1, 2, 0, .imm, false, .any⟩,
  ⟨0x05, 0x08, .enum8, .rw, 1, 2, 0, .imm, false, (.iv 0 2)⟩,
  ⟨0x09, 0x09, .u8, .rw, 1, 2, 0, .imm, true, (.iv 0 63)⟩,
  ⟨0x0A, 0x0A, .bits32, .rw, 1, 2, 1, .imm, true, (.mask 0xF)⟩]

/-- The rows of index 2802. -/
def rows2802 : List ORow := [
  ⟨0x00, 0x00, .u8, .const, 1, 4, 9, .imm, false, .any⟩,
  ⟨0x01, 0x04, .enum8, .ro, 1, 4, 0, .imm, false, .any⟩,
  ⟨0x05, 0x08, .u8, .ro, 1, 4, 0, .imm, false, .any⟩,
  ⟨0x09, 0x09, .bits32, .wo, 4, 2, 0, .imm, false, (.mask 0xF)⟩]

/-- The rows of index 2803. -/
def rows2803 : List ORow := [
  ⟨0x00, 0x00, .u8, .const, 1, 4, 5, .imm, false, .any⟩,
  ⟨0x01, 0x01, .u16, .ro, 1, 4, 0, .imm, false, .any⟩,
  ⟨0x02, 0x02, .u64, .ro, 1, 4, 0, .imm, false, .any⟩,
  ⟨0x03, 0x03, .u64, .ro, 1, 4, 0, .imm, false, .any⟩,
  ⟨0x04, 0x04, .u32, .ro, 1, 4, 0, .imm, false, .any⟩,
  ⟨0x05, 0x05, .u64, .ro, 1, 4, 0, .imm, false, .any⟩]

/-- The rows of index 2804. -/
def rows2804 : List ORow := [
  ⟨0x00, 0x00, .u8, .const, 1, 4, 12, .imm, false, .any⟩,
  ⟨0x01, 0x01, .u64, .ro, 1, 4, 0, .imm, false, .any⟩,
  ⟨0x02, 0x02, .u64, .ro, 1, 4, 0, .imm, false, .any⟩,
  ⟨0x03, 0x03, .u64, .ro, 1, 4, 0, .imm, false, .any⟩,
  ⟨0x04, 0x04, .u64, .ro, 1, 4, 0, .imm, false, .any⟩,
  ⟨0x05, 0x05, .u64, .ro, 1, 4, 0, .imm, false, .any⟩,
  ⟨0x06, 0x06, .u64, .ro, 1, 4, 0, .imm, false, .any⟩,
  ⟨0x07, 0x07, .u64, .ro, 1, 4, 0, .imm, false, .any⟩,
  ⟨0x08, 0x08, .u64, .ro, 1, 4, 0, .imm, false, .any⟩,
  ⟨0x09, 0x09, .u64, .ro, 1, 4, 0, .imm, false, .any⟩,
  ⟨0x0A, 0x0A, .u64, .ro, 1, 4, 0, .imm, false, .any⟩,
  ⟨0x0B, 0x0B, .u64, .ro, 1, 4, 0, .imm, false, .any⟩,
  ⟨0x0C, 0x0C, .u32, .ro, 1, 4, 0, .imm, false, .any⟩]

/-- The rows of index 2805. -/
def rows2805 : List ORow := [
  ⟨0x00, 0x00, .u8, .const, 1, 4, 3, .imm, false, .any⟩,
  ⟨0x01, 0x01, .u8, .ro, 1, 4, 0, .imm, false, .any⟩,
  ⟨0x02, 0x02, .u64, .ro, 1, 4, 0, .imm, false, .any⟩,
  ⟨0x03, 0x03, .time64, .ro, 1, 4, 0, .imm, false, .any⟩]

/-- The rows of index 3000. -/
def rows3000 : List ORow := [
  ⟨0x00, 0x00, .u8, .const, 1, 4, 12, .imm, false, .any⟩,
  ⟨0x01, 0x01, .u32, .const, 1, 4, 8388608, .imm, false, .any⟩,
  ⟨0x02, 0x02, .u32, .ro, 1, 4, 0, .imm, false, .any⟩,
  ⟨0x03, 0x03, .u32, .ro, 1, 4, 0, .imm, false, .any⟩,
  ⟨0x04, 0x04, .u32, .ro, 1, 4, 0, .imm, false, .any⟩,
  ⟨0x05, 0x05, .u32, .ro, 1, 4, 0, .imm, false, .any⟩,
  ⟨0x06, 0x06, .u32, .ro, 1, 4, 0, .imm, false, .any⟩,
  ⟨0x07, 0x07, .u32, .ro, 1, 4, 0, .imm, false, .any⟩,
  ⟨0x08, 0x08, .u32, .ro, 1, 4, 0, .imm, false, .any⟩,
  ⟨0x09, 0x09, .u32, .ro, 1, 4, 0, .imm, false, .any⟩,
  ⟨0x0A, 0x0A, .u32, .ro, 1, 4, 0, .imm, false, .any⟩,
  ⟨0x0B, 0x0B, .u32, .ro, 1, 4, 0, .imm, false, .any⟩,
  ⟨0x0C, 0x0C, .u32, .ro, 1, 4, 0, .imm, false, .any⟩]

/-- The rows of index 3001. -/
def rows3001 : List ORow := [
  ⟨0x00, 0x00, .u8, .const, 1, 4, 15, .imm, false, .any⟩,
  ⟨0x01, 0x01, .u32, .rw, 1, 2, 4194304, .imm, true, .any⟩,
  ⟨0x02, 0x02, .u32, .rw, 1, 2, 1000, .imm, true, (.iv 100 100000)⟩,
  ⟨0x03, 0x03, .u8, .rw, 1, 2, 64, .imm, true, (.iv 1 255)⟩,
  ⟨0x04, 0x04, .u8, .rw, 1, 2, 4, .imm, true, .any⟩,
  ⟨0x05, 0x05, .u32, .rw, 1, 2, 65536, .imm, true, .any⟩,
  ⟨0x06, 0x06, .u32, .rw, 1, 2, 131072, .imm, true, .any⟩,
  ⟨0x07, 0x07, .u8, .rw, 1, 2, 16, .imm, true, (.iv 1 255)⟩,
  ⟨0x08, 0x08, .u8, .rw, 1, 2, 56, .imm, true, (.iv 0 63)⟩,
  ⟨0x09, 0x09, .u32, .rw, 1, 2, 800, .imm, true, (.iv 10 4000)⟩,
  ⟨0x0A, 0x0A, .u8, .rw, 1, 2, 4, .imm, true, (.iv 0 16)⟩,
  ⟨0x0B, 0x0B, .u8, .rw, 1, 2, 3, .imm, true, (.iv 1 8)⟩,
  ⟨0x0C, 0x0C, .u16, .rw, 1, 2, 3072, .imm, true, (.iv 256 3584)⟩,
  ⟨0x0D, 0x0D, .enum8, .rw, 1, 2, 0, .imm, true, (.iv 0 1)⟩,
  ⟨0x0E, 0x0E, .u8, .rw, 1, 2, 2, .imm, true, (.iv 0 4)⟩,
  ⟨0x0F, 0x0F, .u16, .rw, 1, 2, 64, .imm, true, (.iv 1 1024)⟩]

/-- The rows of index 3002. -/
def rows3002 : List ORow := [
  ⟨0x00, 0x00, .u8, .const, 1, 4, 7, .imm, false, .any⟩,
  ⟨0x01, 0x01, .u64, .rw, 1, 2, 0, .imm, false, .any⟩,
  ⟨0x02, 0x02, .u64, .rw, 1, 2, 0, .imm, false, .any⟩,
  ⟨0x03, 0x03, .u32, .rw, 1, 2, 0, .imm, false, (.iv 1 65536)⟩,
  ⟨0x04, 0x04, .enum8, .wo, 4, 2, 0, .imm, false, .any⟩,
  ⟨0x05, 0x05, .u8, .ro, 1, 4, 0, .imm, false, .any⟩,
  ⟨0x06, 0x06, .u32, .ro, 1, 4, 0, .imm, false, .any⟩,
  ⟨0x07, 0x07, .u32, .ro, 1, 4, 65536, .imm, false, .any⟩]

/-- The rows of index 3003. -/
def rows3003 : List ORow := [
  ⟨0x00, 0x00, .u8, .const, 1, 4, 11, .imm, false, .any⟩,
  ⟨0x01, 0x01, .u16, .ro, 1, 4, 0, .imm, false, .any⟩,
  ⟨0x02, 0x02, .u64, .ro, 1, 4, 0, .imm, false, .any⟩,
  ⟨0x03, 0x03, .u64, .ro, 1, 4, 0, .imm, false, .any⟩,
  ⟨0x04, 0x04, .u64, .ro, 1, 4, 0, .imm, false, .any⟩,
  ⟨0x05, 0x05, .u64, .ro, 1, 4, 0, .imm, false, .any⟩,
  ⟨0x06, 0x06, .u64, .ro, 1, 4, 0, .imm, false, .any⟩,
  ⟨0x07, 0x07, .u32, .ro, 1, 4, 0, .imm, false, .any⟩,
  ⟨0x08, 0x08, .u64, .ro, 1, 4, 0, .imm, false, .any⟩,
  ⟨0x09, 0x09, .u64, .ro, 1, 4, 0, .imm, false, .any⟩,
  ⟨0x0A, 0x0A, .u64, .ro, 1, 4, 0, .imm, false, .any⟩,
  ⟨0x0B, 0x0B, .u64, .ro, 1, 4, 0, .imm, false, .any⟩]

/-- The rows of index 3004. -/
def rows3004 : List ORow := [
  ⟨0x00, 0x00, .u8, .const, 1, 4, 7, .imm, false, .any⟩,
  ⟨0x01, 0x01, .u32, .ro, 1, 4, 0, .imm, false, .any⟩,
  ⟨0x02, 0x02, .u8, .ro, 1, 4, 0, .imm, false, .any⟩,
  ⟨0x03, 0x03, .u32, .ro, 1, 4, 0, .imm, false, .any⟩,
  ⟨0x04, 0x04, .u32, .ro, 1, 4, 0, .imm, false, .any⟩,
  ⟨0x05, 0x05, .u32, .rw, 1, 2, 10, .imm, true, .any⟩,
  ⟨0x06, 0x06, .u32, .rw, 1, 2, 10, .imm, true, .any⟩,
  ⟨0x07, 0x07, .u8, .wo, 4, 2, 0, .imm, false, .any⟩]

/-- The rows of index 3005. -/
def rows3005 : List ORow := [
  ⟨0x00, 0x00, .u8, .const, 1, 4, 7, .imm, false, .any⟩,
  ⟨0x01, 0x01, .u32, .ro, 1, 4, 0, .imm, false, .any⟩,
  ⟨0x02, 0x02, .u8, .ro, 1, 4, 0, .imm, false, .any⟩,
  ⟨0x03, 0x03, .u32, .ro, 1, 4, 0, .imm, false, .any⟩,
  ⟨0x04, 0x04, .u32, .ro, 1, 4, 0, .imm, false, .any⟩,
  ⟨0x05, 0x05, .u32, .rw, 1, 2, 32768, .imm, true, .any⟩,
  ⟨0x06, 0x06, .u32, .rw, 1, 2, 32768, .imm, true, .any⟩,
  ⟨0x07, 0x07, .u8, .wo, 4, 2, 0, .imm, false, .any⟩]

/-- The rows of index 3008. -/
def rows3008 : List ORow := [
  ⟨0x00, 0x00, .u8, .const, 1, 4, 4, .imm, false, .any⟩,
  ⟨0x01, 0x01, .u32, .rw, 1, 2, 20, .imm, true, (.iv 5 10000)⟩,
  ⟨0x02, 0x02, .u16, .rw, 1, 2, 8, .imm, true, (.iv 1 1024)⟩,
  ⟨0x03, 0x03, .u8, .rw, 1, 2, 16, .imm, true, .any⟩,
  ⟨0x04, 0x04, .u16, .rw, 1, 2, 700, .imm, true, .any⟩]

/-- The rows of index 3010. -/
def rows3010 : List ORow := [
  ⟨0x00, 0x00, .u8, .const, 1, 4, 5, .imm, false, .any⟩,
  ⟨0x01, 0x01, .u8, .rw, 1, 2, 0, .imm, false, (.iv 0 47)⟩,
  ⟨0x02, 0x02, .enum8, .wo, 4, 2, 0, .imm, false, .any⟩,
  ⟨0x03, 0x03, .u8, .ro, 1, 4, 0, .imm, false, .any⟩,
  ⟨0x04, 0x04, .u32, .rw, 1, 2, 20, .imm, true, (.iv 1 60)⟩,
  ⟨0x05, 0x05, .u32, .ro, 1, 4, 0, .imm, false, .any⟩]

/-- The rows of index 3011. -/
def rows3011 : List ORow := [
  ⟨0x00, 0x00, .u8, .const, 1, 4, 48, .imm, false, .any⟩,
  ⟨0x01, 0x30, .enum8, .ro, 1, 4, 0, .imm, false, .any⟩]

/-- The rows of index 3012. -/
def rows3012 : List ORow := [
  ⟨0x00, 0x00, .u8, .const, 1, 4, 48, .imm, false, .any⟩,
  ⟨0x01, 0x30, .u32, .ro, 1, 4, 0, .imm, false, .any⟩]

/-- The rows of index 3020. -/
def rows3020 : List ORow := [
  ⟨0x00, 0x00, .u8, .const, 1, 4, 8, .imm, false, .any⟩,
  ⟨0x01, 0x01, .enum8, .ro, 1, 4, 0, .imm, false, .any⟩,
  ⟨0x02, 0x02, .enum8, .rw, 1, 2, 0, .imm, false, (.iv 0 1)⟩,
  ⟨0x03, 0x03, .u32, .rw, 1, 2, 0, .imm, false, (.mask 0x3FFFF)⟩,
  ⟨0x04, 0x04, .u64, .rw, 1, 2, 0, .imm, false, .any⟩,
  ⟨0x05, 0x05, .u64, .rw, 1, 2, 0, .imm, false, .any⟩,
  ⟨0x06, 0x06, .enum8, .wo, 4, 2, 0, .imm, false, .any⟩,
  ⟨0x07, 0x07, .u32, .ro, 1, 4, 0, .imm, false, .any⟩,
  ⟨0x08, 0x08, .u8, .ro, 1, 4, 0, .imm, false, .any⟩]

/-- The rows of index 3100. -/
def rows3100 : List ORow := [
  ⟨0x00, 0x00, .u8, .const, 1, 4, 9, .imm, false, .any⟩,
  ⟨0x01, 0x01, .enum8, .ro, 1, 4, 0, .imm, false, .any⟩,
  ⟨0x02, 0x02, .u32, .rw, 1, 2, 0, .commit, false, .any⟩,
  ⟨0x03, 0x03, .u32, .rw, 1, 2, 0, .commit, false, .any⟩,
  ⟨0x04, 0x04, .u32, .ro, 1, 4, 0, .imm, false, .any⟩,
  ⟨0x05, 0x05, .u32, .ro, 1, 4, 0, .imm, false, .any⟩,
  ⟨0x06, 0x06, .u16, .ro, 1, 4, 0, .imm, false, .any⟩,
  ⟨0x07, 0x07, .enum8, .wo, 4, 2, 0, .imm, false, .any⟩,
  ⟨0x08, 0x08, .u16, .ro, 1, 4, 0, .imm, false, .any⟩,
  ⟨0x09, 0x09, .str, .rw, 1, 2, 0, .imm, false, .any⟩]

/-- The rows of index 3800. -/
def rows3800 : List ORow := [
  ⟨0x00, 0x00, .u8, .const, 1, 4, 5, .imm, false, .any⟩,
  ⟨0x01, 0x01, .u16, .rw, 1, 2, 200, .imm, true, (.iv 0 2000)⟩,
  ⟨0x02, 0x02, .u8, .rw, 1, 2, 11, .imm, true, (.iv 6 16)⟩,
  ⟨0x03, 0x03, .u8, .rw, 1, 2, 24, .imm, true, (.iv 2 32)⟩,
  ⟨0x04, 0x04, .u8, .rw, 1, 2, 8, .imm, true, .any⟩,
  ⟨0x05, 0x05, .u16, .rw, 1, 2, 64, .imm, true, (.iv 16 1000)⟩]

/-- The rows of index 3801. -/
def rows3801 : List ORow := [
  ⟨0x00, 0x00, .u8, .const, 1, 4, 11, .imm, false, .any⟩,
  ⟨0x01, 0x01, .u16, .rw, 1, 2, 200, .imm, true, (.iv 0 2000)⟩,
  ⟨0x02, 0x02, .u16, .rw, 1, 2, 1024, .imm, true, (.iv 64 16384)⟩,
  ⟨0x03, 0x03, .u8, .rw, 1, 2, 1, .imm, true, (.iv 1 2)⟩,
  ⟨0x04, 0x04, .u8, .rw, 1, 2, 1, .imm, true, (.iv 0 1)⟩,
  ⟨0x05, 0x05, .u8, .rw, 1, 2, 48, .imm, true, (.iv 2 64)⟩,
  ⟨0x06, 0x06, .u8, .rw, 1, 2, 16, .imm, true, .any⟩,
  ⟨0x07, 0x07, .u16, .rw, 1, 2, 64, .imm, true, (.iv 16 1000)⟩,
  ⟨0x08, 0x08, .u16, .rw, 1, 2, 20, .imm, true, (.iv 5 200)⟩,
  ⟨0x09, 0x09, .bits32, .rw, 1, 2, 0, .imm, true, (.mask 0xFFFFFF)⟩,
  ⟨0x0A, 0x0A, .u32, .rw, 1, 2, 100, .imm, true, (.iv 10 1000000)⟩,
  ⟨0x0B, 0x0B, .u16, .rw, 1, 2, 10, .imm, true, (.iv 1 100)⟩]

/-- The rows of index 3810. -/
def rows3810 : List ORow := [
  ⟨0x00, 0x00, .u8, .const, 1, 4, 10, .imm, false, .any⟩,
  ⟨0x01, 0x01, .enum8, .ro, 1, 4, 0, .imm, false, .any⟩,
  ⟨0x02, 0x02, .i32, .ro, 1, 4, 0, .imm, false, .any⟩,
  ⟨0x03, 0x03, .u8, .ro, 1, 4, 0, .imm, false, .any⟩,
  ⟨0x04, 0x04, .u64, .ro, 1, 4, 0, .imm, false, .any⟩,
  ⟨0x05, 0x05, .u64, .ro, 1, 4, 0, .imm, false, .any⟩,
  ⟨0x06, 0x06, .u64, .ro, 1, 4, 0, .imm, false, .any⟩,
  ⟨0x07, 0x07, .u32, .ro, 1, 4, 0, .imm, false, .any⟩,
  ⟨0x08, 0x08, .u16, .ro, 1, 4, 0, .imm, false, .any⟩,
  ⟨0x09, 0x09, .u8, .wo, 4, 3, 0, .imm, false, .any⟩,
  ⟨0x0A, 0x0A, .u8, .wo, 4, 2, 0, .imm, false, .any⟩]

/-- The rows of index 3900. -/
def rows3900 : List ORow := [
  ⟨0x00, 0x00, .u8, .const, 1, 4, 12, .imm, false, .any⟩,
  ⟨0x01, 0x01, .enum8, .ro, 1, 4, 0, .imm, false, .any⟩,
  ⟨0x02, 0x02, .bits32, .ro, 1, 4, 0, .imm, false, .any⟩,
  ⟨0x03, 0x03, .u64, .ro, 1, 4, 0, .imm, false, .any⟩,
  ⟨0x04, 0x04, .u64, .ro, 1, 4, 0, .imm, false, .any⟩,
  ⟨0x05, 0x05, .u64, .ro, 1, 4, 0, .imm, false, .any⟩,
  ⟨0x06, 0x06, .u32, .ro, 1, 4, 0, .imm, false, .any⟩,
  ⟨0x07, 0x07, .u64, .ro, 1, 4, 0, .imm, false, .any⟩,
  ⟨0x08, 0x08, .u64, .ro, 1, 4, 0, .imm, false, .any⟩,
  ⟨0x09, 0x09, .u64, .ro, 1, 4, 0, .imm, false, .any⟩,
  ⟨0x0A, 0x0A, .u64, .ro, 1, 4, 0, .imm, false, .any⟩,
  ⟨0x0B, 0x0B, .u32, .ro, 1, 4, 0, .imm, false, .any⟩,
  ⟨0x0C, 0x0C, .u16, .ro, 1, 4, 0, .imm, false, .any⟩]

/-- The rows of index 3901. -/
def rows3901 : List ORow := [
  ⟨0x00, 0x00, .u8, .const, 1, 4, 6, .imm, false, .any⟩,
  ⟨0x01, 0x01, .enum8, .ro, 1, 4, 0, .imm, false, .any⟩,
  ⟨0x02, 0x02, .u8, .ro, 1, 4, 0, .imm, false, .any⟩,
  ⟨0x03, 0x03, .i32, .ro, 1, 4, 0, .imm, false, .any⟩,
  ⟨0x04, 0x04, .str, .ro, 1, 4, 0, .imm, false, .any⟩,
  ⟨0x05, 0x05, .u32, .ro, 1, 4, 0, .imm, false, .any⟩,
  ⟨0x06, 0x06, .u8, .ro, 1, 4, 0, .imm, false, .any⟩]

/-- The rows of index 3903. -/
def rows3903 : List ORow := [
  ⟨0x00, 0x00, .u8, .const, 1, 4, 2, .imm, false, .any⟩,
  ⟨0x01, 0x01, .u8, .wo, 4, 3, 0, .imm, false, .any⟩,
  ⟨0x02, 0x02, .u8, .wo, 4, 2, 0, .imm, false, .any⟩]

/-- The rows of index 4000. -/
def rows4000 : List ORow := [
  ⟨0x00, 0x00, .u8, .const, 1, 4, 24, .imm, false, .any⟩,
  ⟨0x01, 0x01, .enum8, .ro, 0, 4, 0, .imm, false, .any⟩,
  ⟨0x02, 0x02, .u64, .rwl, 1, 2, 0, .commit, false, .any⟩,
  ⟨0x03, 0x03, .u64, .rwl, 1, 2, 0, .commit, false, .any⟩,
  ⟨0x04, 0x04, .enum8, .rwl, 1, 2, 0, .commit, false, (.iv 0 6)⟩,
  ⟨0x05, 0x05, .enum8, .rw, 1, 2, 0, .commit, false, (.iv 0 4)⟩,
  ⟨0x06, 0x06, .u8, .rw, 1, 2, 0, .commit, false, (.iv 0 1)⟩,
  ⟨0x07, 0x07, .enum8, .rwl, 1, 2, 0, .commit, false, (.iv 0 3)⟩,
  ⟨0x08, 0x08, .enum8, .rwl, 1, 2, 0, .commit, false, (.iv 0 3)⟩,
  ⟨0x09, 0x09, .u8, .rw, 1, 2, 0, .commit, false, (.iv 0 63)⟩,
  ⟨0x0A, 0x0A, .u8, .rwl, 1, 2, 0, .commit, false, .any⟩,
  ⟨0x0B, 0x0B, .enum8, .rwl, 1, 2, 0, .commit, false, (.iv 0 1)⟩,
  ⟨0x0C, 0x0C, .enum8, .rwl, 1, 2, 0, .commit, false, (.iv 0 6)⟩,
  ⟨0x0D, 0x0D, .enum8, .rwl, 1, 2, 0, .commit, false, (.iv 0 6)⟩,
  ⟨0x0E, 0x0E, .u16, .rwl, 1, 2, 0, .commit, false, (.iv 0 1023)⟩,
  ⟨0x0F, 0x0F, .u8, .rw, 1, 2, 0, .commit, false, (.iv 0 1)⟩,
  ⟨0x10, 0x10, .bits32, .rw, 1, 2, 131071, .commit, false, (.mask 0x1FFFF)⟩,
  ⟨0x11, 0x11, .enum8, .wo, 4, 2, 0, .imm, false, .any⟩,
  ⟨0x12, 0x12, .u16, .ro, 1, 4, 0, .imm, false, .any⟩,
  ⟨0x13, 0x13, .u16, .ro, 1, 4, 0, .imm, false, .any⟩,
  ⟨0x14, 0x14, .bits64, .ro, 0, 4, 0, .imm, false, .any⟩,
  ⟨0x15, 0x15, .u64, .rwl, 1, 2, 0, .commit, false, .any⟩,
  ⟨0x16, 0x16, .u32, .ro, 1, 4, 0, .imm, false, .any⟩,
  ⟨0x17, 0x17, .u8, .ro, 1, 4, 0, .imm, false, .any⟩,
  ⟨0x18, 0x18, .u64, .ro, 1, 4, 0, .imm, false, .any⟩]

/-- The rows of index 5000. -/
def rows5000 : List ORow := [
  ⟨0x00, 0x00, .u8, .const, 1, 4, 12, .imm, false, .any⟩,
  ⟨0x01, 0x01, .u16, .ro, 1, 4, 512, .imm, false, .any⟩,
  ⟨0x02, 0x02, .u16, .ro, 1, 4, 128, .imm, false, .any⟩,
  ⟨0x03, 0x03, .u16, .ro, 1, 4, 1008, .imm, false, .any⟩,
  ⟨0x04, 0x04, .u64, .ro, 1, 4, 0, .imm, false, .any⟩,
  ⟨0x05, 0x05, .u64, .ro, 1, 4, 0, .imm, false, .any⟩,
  ⟨0x06, 0x06, .u64, .ro, 1, 4, 0, .imm, false, .any⟩,
  ⟨0x07, 0x07, .u64, .ro, 1, 4, 0, .imm, false, .any⟩,
  ⟨0x08, 0x08, .u64, .ro, 1, 4, 0, .imm, false, .any⟩,
  ⟨0x09, 0x09, .u64, .ro, 1, 4, 0, .imm, false, .any⟩,
  ⟨0x0A, 0x0A, .u8, .ro, 1, 4, 0, .imm, false, .any⟩,
  ⟨0x0B, 0x0B, .u64, .ro, 1, 4, 0, .imm, false, .any⟩,
  ⟨0x0C, 0x0C, .u32, .ro, 1, 4, 0, .imm, false, .any⟩]

/-- The rows of index 5001. -/
def rows5001 : List ORow := [
  ⟨0x00, 0x00, .u8, .const, 1, 4, 5, .imm, false, .any⟩,
  ⟨0x01, 0x01, .u16, .rw, 1, 2, 64, .imm, true, (.iv 0 256)⟩,
  ⟨0x02, 0x02, .u8, .rw, 1, 2, 12, .imm, true, (.iv 8 16)⟩,
  ⟨0x03, 0x03, .u16, .rw, 1, 2, 1024, .imm, true, (.iv 64 4096)⟩,
  ⟨0x04, 0x04, .enum8, .rw, 1, 2, 0, .imm, true, (.iv 0 1)⟩,
  ⟨0x05, 0x05, .bits32, .wo, 4, 3, 0, .imm, false, .any⟩]

/-- The rows of index 5002. -/
def rows5002 : List ORow := [
  ⟨0x00, 0x00, .u8, .const, 1, 4, 3, .imm, false, .any⟩,
  ⟨0x01, 0x01, .u16, .wo, 4, 2, 0, .imm, false, .any⟩,
  ⟨0x02, 0x02, .u8, .ro, 1, 4, 0, .imm, false, .any⟩,
  ⟨0x03, 0x03, .u16, .ro, 1, 4, 0, .imm, false, .any⟩]

/-- The rows of index 5003. -/
def rows5003 : List ORow := [
  ⟨0x00, 0x00, .u8, .const, 1, 4, 7, .imm, false, .any⟩,
  ⟨0x01, 0x01, .u16, .ro, 1, 4, 0, .imm, false, .any⟩,
  ⟨0x02, 0x02, .u8, .ro, 1, 4, 0, .imm, false, .any⟩,
  ⟨0x03, 0x03, .u32, .ro, 1, 4, 0, .imm, false, .any⟩,
  ⟨0x04, 0x04, .u16, .ro, 1, 4, 0, .imm, false, .any⟩,
  ⟨0x05, 0x05, .u16, .rw, 1, 2, 960, .imm, true, .any⟩,
  ⟨0x06, 0x06, .u16, .rw, 1, 2, 32, .imm, true, .any⟩,
  ⟨0x07, 0x07, .u8, .wo, 4, 2, 0, .imm, false, .any⟩]

/-- The rows of index 5004. -/
def rows5004 : List ORow := [
  ⟨0x00, 0x00, .u8, .const, 1, 4, 6, .imm, false, .any⟩,
  ⟨0x01, 0x06, .u16, .ro, 1, 4, 0, .act, true, .any⟩]

/-- The rows of index 5100. -/
def rows5100 : List ORow := [
  ⟨0x00, 0x00, .u8, .const, 1, 4, 6, .imm, false, .any⟩,
  ⟨0x01, 0x01, .enum8, .ro, 1, 4, 4, .imm, false, .any⟩,
  ⟨0x02, 0x02, .enum8, .ro, 1, 4, 0, .imm, false, .any⟩,
  ⟨0x03, 0x03, .u16, .ro, 1, 4, 65535, .imm, false, .any⟩,
  ⟨0x04, 0x04, .u8, .ro, 1, 4, 0, .imm, false, .any⟩,
  ⟨0x05, 0x05, .u64, .ro, 1, 4, 0, .imm, false, .any⟩,
  ⟨0x06, 0x06, .blob, .ro, 1, 4, 0, .imm, false, .any⟩]

/-- The rows of index 6000. -/
def rows6000 : List ORow := [
  ⟨0x00, 0x00, .u8, .const, 1, 4, 8, .imm, false, .any⟩,
  ⟨0x01, 0x01, .u32, .ro, 1, 4, 0, .imm, false, .any⟩,
  ⟨0x02, 0x02, .u32, .ro, 1, 4, 0, .imm, false, .any⟩,
  ⟨0x03, 0x03, .u32, .const, 1, 4, 268435456, .imm, false, .any⟩,
  ⟨0x04, 0x04, .u8, .ro, 1, 4, 0, .imm, false, .any⟩,
  ⟨0x05, 0x05, .u32, .ro, 1, 4, 0, .imm, false, .any⟩,
  ⟨0x06, 0x06, .u32, .ro, 1, 4, 0, .imm, false, .any⟩,
  ⟨0x07, 0x07, .bits32, .ro, 1, 4, 0, .imm, false, .any⟩,
  ⟨0x08, 0x08, .u32, .const, 1, 4, 278528, .imm, false, .any⟩]

/-- The rows of index 6001. -/
def rows6001 : List ORow := [
  ⟨0x00, 0x00, .u8, .const, 1, 4, 4, .imm, false, .any⟩,
  ⟨0x01, 0x01, .u32, .rw, 1, 2, 50, .imm, true, (.iv 10 10000)⟩,
  ⟨0x02, 0x02, .u32, .rw, 1, 2, 500, .imm, true, (.iv 50 100000)⟩,
  ⟨0x03, 0x03, .u32, .rw, 1, 2, 2000, .imm, true, (.iv 100 1000000)⟩,
  ⟨0x04, 0x04, .u8, .rw, 1, 2, 0, .imm, true, (.iv 0 1)⟩]

/-- The rows of index 6002. -/
def rows6002 : List ORow := [
  ⟨0x00, 0x00, .u8, .const, 1, 4, 15, .imm, false, .any⟩,
  ⟨0x01, 0x01, .u64, .ro, 1, 4, 0, .imm, false, .any⟩,
  ⟨0x02, 0x02, .u64, .ro, 1, 4, 0, .imm, false, .any⟩,
  ⟨0x03, 0x03, .u64, .ro, 1, 4, 0, .imm, false, .any⟩,
  ⟨0x04, 0x04, .u64, .ro, 1, 4, 0, .imm, false, .any⟩,
  ⟨0x05, 0x05, .u32, .ro, 1, 4, 0, .imm, false, .any⟩,
  ⟨0x06, 0x06, .u64, .ro, 1, 4, 0, .imm, false, .any⟩,
  ⟨0x07, 0x07, .u64, .ro, 1, 4, 0, .imm, false, .any⟩,
  ⟨0x08, 0x08, .u64, .ro, 1, 4, 0, .imm, false, .any⟩,
  ⟨0x09, 0x09, .u64, .ro, 1, 4, 0, .imm, false, .any⟩,
  ⟨0x0A, 0x0A, .u64, .ro, 1, 4, 0, .imm, false, .any⟩,
  ⟨0x0B, 0x0B, .u64, .ro, 1, 4, 0, .imm, false, .any⟩,
  ⟨0x0C, 0x0C, .u64, .ro, 1, 4, 0, .imm, false, .any⟩,
  ⟨0x0D, 0x0D, .u32, .ro, 1, 4, 0, .imm, false, .any⟩,
  ⟨0x0E, 0x0E, .u32, .ro, 1, 4, 0, .imm, false, .any⟩,
  ⟨0x0F, 0x0F, .u32, .ro, 1, 4, 0, .imm, false, .any⟩]

/-- The rows of index 6003. -/
def rows6003 : List ORow := [
  ⟨0x00, 0x00, .u8, .const, 1, 4, 64, .imm, false, .any⟩,
  ⟨0x01, 0x40, .u8, .rw, 1, 2, 255, .imm, true, (.oneOf [0, 1, 2, 3, 4, 5, 6, 7, 8, 9, 10, 11, 12, 13, 14, 15, 255])⟩]

/-- The rows of index 6004. -/
def rows6004 : List ORow := [
  ⟨0x00, 0x00, .u8, .const, 1, 4, 64, .imm, false, .any⟩,
  ⟨0x01, 0x40, .u8, .rw, 1, 2, 255, .imm, true, (.oneOf [0, 1, 2, 3, 4, 5, 6, 7, 8, 9, 10, 11, 12, 13, 14, 15, 255])⟩]

/-- The rows of index 6005. -/
def rows6005 : List ORow := [
  ⟨0x00, 0x00, .u8, .const, 1, 4, 7, .imm, false, .any⟩,
  ⟨0x01, 0x01, .u16, .ro, 1, 4, 0, .imm, false, .any⟩,
  ⟨0x02, 0x02, .u8, .ro, 1, 4, 0, .imm, false, .any⟩,
  ⟨0x03, 0x03, .u32, .ro, 1, 4, 0, .imm, false, .any⟩,
  ⟨0x04, 0x04, .u16, .ro, 1, 4, 0, .imm, false, .any⟩,
  ⟨0x05, 0x05, .u16, .rw, 1, 2, 900, .imm, true, .any⟩,
  ⟨0x06, 0x06, .u16, .rw, 1, 2, 50, .imm, true, .any⟩,
  ⟨0x07, 0x07, .u8, .wo, 4, 2, 0, .imm, false, .any⟩]

/-- The rows of index 6006. -/
def rows6006 : List ORow := [
  ⟨0x00, 0x00, .u8, .const, 1, 4, 2, .imm, false, .any⟩,
  ⟨0x01, 0x01, .bits32, .wo, 4, 3, 0, .imm, false, .any⟩,
  ⟨0x02, 0x02, .u8, .wo, 4, 3, 0, .imm, false, .any⟩]

/-- The rows of index 6800. -/
def rows6800 : List ORow := [
  ⟨0x00, 0x00, .u8, .const, 1, 4, 7, .imm, false, .any⟩,
  ⟨0x01, 0x01, .u64, .ro, 1, 4, 0, .imm, false, .any⟩,
  ⟨0x02, 0x02, .u64, .ro, 1, 4, 0, .imm, false, .any⟩,
  ⟨0x03, 0x03, .u32, .ro, 1, 4, 0, .imm, false, .any⟩,
  ⟨0x04, 0x04, .u64, .ro, 1, 4, 0, .imm, false, .any⟩,
  ⟨0x05, 0x05, .u64, .ro, 1, 4, 0, .imm, false, .any⟩,
  ⟨0x06, 0x06, .u64, .ro, 1, 4, 0, .imm, false, .any⟩,
  ⟨0x07, 0x07, .u64, .ro, 1, 4, 0, .imm, false, .any⟩]

/-- The rows of index 6801. -/
def rows6801 : List ORow := [
  ⟨0x00, 0x00, .u8, .const, 1, 4, 3, .imm, false, .any⟩,
  ⟨0x01, 0x01, .enum8, .rw, 1, 2, 0, .imm, true, (.iv 0 1)⟩,
  ⟨0x02, 0x02, .u64, .rw, 1, 2, 1587879397, .imm, true, (.iv 1 18446744073709551615)⟩,
  ⟨0x03, 0x03, .u64, .ro, 1, 4, 0, .imm, false, .any⟩]

/-- The rows of index 6802. -/
def rows6802 : List ORow := [
  ⟨0x00, 0x00, .u8, .const, 1, 4, 1, .imm, false, .any⟩,
  ⟨0x01, 0x01, .bits32, .wo, 4, 3, 0, .imm, false, .any⟩]

/-- The rows of index 6900. -/
def rows6900 : List ORow := [
  ⟨0x00, 0x00, .u8, .const, 1, 4, 8, .imm, false, .any⟩,
  ⟨0x01, 0x01, .u16, .const, 1, 4, 16384, .imm, false, .any⟩,
  ⟨0x02, 0x02, .u16, .const, 1, 4, 16384, .imm, false, .any⟩,
  ⟨0x03, 0x03, .u16, .ro, 1, 4, 0, .imm, false, .any⟩,
  ⟨0x04, 0x04, .u64, .ro, 1, 4, 0, .imm, false, .any⟩,
  ⟨0x05, 0x05, .u64, .ro, 1, 4, 0, .imm, false, .any⟩,
  ⟨0x06, 0x06, .u64, .ro, 1, 4, 0, .imm, false, .any⟩,
  ⟨0x07, 0x07, .u64, .ro, 1, 4, 0, .imm, false, .any⟩,
  ⟨0x08, 0x08, .u32, .ro, 1, 4, 0, .imm, false, .any⟩]

/-- The rows of index 6901. -/
def rows6901 : List ORow := [
  ⟨0x00, 0x00, .u8, .const, 1, 4, 3, .imm, false, .any⟩,
  ⟨0x01, 0x01, .u16, .rw, 1, 2, 0, .imm, false, (.iv 0 16383)⟩,
  ⟨0x02, 0x02, .u64, .ro, 1, 4, 0, .imm, false, .any⟩,
  ⟨0x03, 0x03, .u16, .ro, 1, 4, 0, .imm, false, .any⟩]

/-- The rows of index 6902. -/
def rows6902 : List ORow := [
  ⟨0x00, 0x00, .u8, .const, 1, 4, 7, .imm, false, .any⟩,
  ⟨0x01, 0x01, .u16, .ro, 1, 4, 0, .imm, false, .any⟩,
  ⟨0x02, 0x02, .u8, .ro, 1, 4, 0, .imm, false, .any⟩,
  ⟨0x03, 0x03, .u32, .ro, 1, 4, 0, .imm, false, .any⟩,
  ⟨0x04, 0x04, .u16, .ro, 1, 4, 0, .imm, false, .any⟩,
  ⟨0x05, 0x05, .u16, .rw, 1, 2, 14336, .imm, true, .any⟩,
  ⟨0x06, 0x06, .u16, .rw, 1, 2, 1024, .imm, true, .any⟩,
  ⟨0x07, 0x07, .u8, .wo, 4, 2, 0, .imm, false, .any⟩]

/-- The rows of index 6903. -/
def rows6903 : List ORow := [
  ⟨0x00, 0x00, .u8, .const, 1, 4, 1, .imm, false, .any⟩,
  ⟨0x01, 0x01, .bits32, .wo, 4, 3, 0, .imm, false, .any⟩]

/-- The rows of index 6910. -/
def rows6910 : List ORow := [
  ⟨0x00, 0x00, .u8, .const, 1, 4, 2, .imm, false, .any⟩,
  ⟨0x01, 0x01, .bits32, .rw, 1, 2, 131071, .imm, true, (.mask 0x1FFFF)⟩,
  ⟨0x02, 0x02, .u64, .ro, 1, 4, 0, .imm, false, .any⟩]

/-- The rows of index 7000. -/
def rows7000 : List ORow := [
  ⟨0x00, 0x00, .u8, .const, 1, 4, 26, .imm, false, .any⟩,
  ⟨0x01, 0x10, .u16, .rwl, 1, 2, 0, .commit, true, (.iv 0 3750)⟩,
  ⟨0x11, 0x11, .u16, .rwl, 1, 2, 0, .commit, true, (.iv 0 1000)⟩,
  ⟨0x12, 0x12, .u8, .rwl, 1, 2, 1, .commit, true, (.iv 1 255)⟩,
  ⟨0x13, 0x13, .u16, .rwl, 1, 2, 64, .commit, true, (.iv 4 1024)⟩,
  ⟨0x14, 0x14, .u16, .rwl, 1, 2, 0, .commit, true, (.iv 0 65024)⟩,
  ⟨0x15, 0x15, .u16, .rwl, 1, 2, 65024, .commit, true, (.iv 1 65024)⟩,
  ⟨0x16, 0x16, .u8, .rwl, 1, 2, 0, .commit, true, (.iv 0 16)⟩,
  ⟨0x17, 0x17, .u16, .rwl, 1, 2, 1023, .commit, true, (.iv 1 1023)⟩,
  ⟨0x18, 0x18, .u16, .ro, 1, 4, 0, .imm, false, .any⟩,
  ⟨0x19, 0x19, .u64, .ro, 1, 4, 0, .imm, false, .any⟩,
  ⟨0x1A, 0x1A, .u64, .ro, 1, 4, 0, .imm, false, .any⟩]

/-- The rows of index 7040. -/
def rows7040 : List ORow := [
  ⟨0x00, 0x00, .u8, .const, 1, 4, 9, .imm, false, .any⟩,
  ⟨0x01, 0x01, .enum8, .wo, 4, 2, 0, .imm, false, .any⟩,
  ⟨0x02, 0x02, .u16, .ro, 1, 4, 0, .imm, false, .any⟩,
  ⟨0x03, 0x03, .u8, .ro, 1, 4, 255, .imm, false, .any⟩,
  ⟨0x04, 0x04, .u32, .ro, 1, 4, 0, .imm, false, .any⟩,
  ⟨0x05, 0x05, .enum8, .ro, 1, 4, 0, .imm, false, .any⟩,
  ⟨0x06, 0x06, .u16, .const, 1, 4, 3750, .imm, false, .any⟩,
  ⟨0x07, 0x07, .u16, .const, 1, 4, 1000, .imm, false, .any⟩,
  ⟨0x08, 0x08, .u16, .const, 1, 4, 512, .imm, false, .any⟩,
  ⟨0x09, 0x09, .u8, .ro, 1, 4, 255, .imm, false, .any⟩]

/-- The rows of index 7041. -/
def rows7041 : List ORow := [
  ⟨0x00, 0x00, .u8, .const, 1, 4, 3, .imm, false, .any⟩,
  ⟨0x01, 0x01, .u16, .ro, 1, 4, 1000, .imm, false, .any⟩,
  ⟨0x02, 0x02, .u16, .ro, 1, 4, 1000, .imm, false, .any⟩,
  ⟨0x03, 0x03, .u16, .rw, 1, 2, 1000, .imm, true, (.iv 100 1000)⟩]

/-- The rows of index 7042. -/
def rows7042 : List ORow := [
  ⟨0x00, 0x00, .u8, .const, 1, 4, 7, .imm, false, .any⟩,
  ⟨0x01, 0x01, .u16, .ro, 1, 4, 0, .imm, false, .any⟩,
  ⟨0x02, 0x02, .u8, .ro, 1, 4, 0, .imm, false, .any⟩,
  ⟨0x03, 0x03, .u32, .ro, 1, 4, 0, .imm, false, .any⟩,
  ⟨0x04, 0x04, .u16, .ro, 1, 4, 0, .imm, false, .any⟩,
  ⟨0x05, 0x05, .u16, .rw, 1, 2, 900, .imm, true, .any⟩,
  ⟨0x06, 0x06, .u16, .rw, 1, 2, 50, .imm, true, .any⟩,
  ⟨0x07, 0x07, .u8, .wo, 4, 2, 0, .imm, false, .any⟩]

/-- The rows of index 7043. -/
def rows7043 : List ORow := [
  ⟨0x00, 0x00, .u8, .const, 1, 4, 2, .imm, false, .any⟩,
  ⟨0x01, 0x01, .bits32, .ro, 1, 4, 0, .imm, false, .any⟩,
  ⟨0x02, 0x02, .bits32, .ro, 1, 4, 0, .imm, false, .any⟩]

/-- The rows of index 8000. -/
def rows8000 : List ORow := [
  ⟨0x00, 0x00, .u8, .const, 1, 4, 15, .imm, false, .any⟩,
  ⟨0x01, 0x01, .u64, .ro, 1, 4, 0, .imm, false, .any⟩,
  ⟨0x02, 0x02, .u64, .ro, 1, 4, 0, .imm, false, .any⟩,
  ⟨0x03, 0x03, .u64, .ro, 1, 4, 0, .imm, false, .any⟩,
  ⟨0x04, 0x04, .u64, .ro, 1, 4, 0, .imm, false, .any⟩,
  ⟨0x05, 0x05, .u64, .ro, 1, 4, 0, .imm, false, .any⟩,
  ⟨0x06, 0x06, .u64, .ro, 1, 4, 0, .imm, false, .any⟩,
  ⟨0x07, 0x07, .u64, .ro, 1, 4, 0, .imm, false, .any⟩,
  ⟨0x08, 0x08, .u64, .ro, 1, 4, 0, .imm, false, .any⟩,
  ⟨0x09, 0x09, .u64, .ro, 1, 4, 0, .imm, false, .any⟩,
  ⟨0x0A, 0x0A, .u64, .ro, 1, 4, 0, .imm, false, .any⟩,
  ⟨0x0B, 0x0B, .enum8, .ro, 1, 4, 0, .imm, false, .any⟩,
  ⟨0x0C, 0x0C, .u64, .ro, 1, 4, 0, .imm, false, .any⟩,
  ⟨0x0D, 0x0D, .time64, .ro, 1, 4, 0, .imm, false, .any⟩,
  ⟨0x0E, 0x0E, .enum8, .ro, 1, 4, 0, .imm, false, .any⟩,
  ⟨0x0F, 0x0F, .u16, .ro, 1, 4, 0, .imm, false, .any⟩]

/-- The rows of index 8001. -/
def rows8001 : List ORow := [
  ⟨0x00, 0x00, .u8, .const, 1, 4, 6, .imm, false, .any⟩,
  ⟨0x01, 0x01, .u8, .rw, 1, 2, 8, .imm, true, (.iv 1 24)⟩,
  ⟨0x02, 0x02, .u16, .rw, 1, 2, 1023, .imm, true, (.iv 1 1023)⟩,
  ⟨0x03, 0x03, .u32, .ro, 1, 4, 0, .imm, false, .any⟩,
  ⟨0x04, 0x04, .u16, .ro, 1, 4, 0, .imm, false, .any⟩,
  ⟨0x05, 0x05, .time64, .ro, 1, 4, 0, .imm, false, .any⟩,
  ⟨0x06, 0x06, .u8, .ro, 1, 4, 0, .imm, false, .any⟩]

/-- The rows of index 8002. -/
def rows8002 : List ORow := [
  ⟨0x00, 0x00, .u8, .const, 1, 4, 4, .imm, false, .any⟩,
  ⟨0x01, 0x01, .u8, .rw, 1, 2, 4, .imm, true, (.iv 1 64)⟩,
  ⟨0x02, 0x02, .u16, .rw, 1, 2, 24, .imm, true, (.iv 1 720)⟩,
  ⟨0x03, 0x03, .u8, .rw, 1, 2, 1, .imm, true, (.iv 0 1)⟩,
  ⟨0x04, 0x04, .u16, .rw, 1, 2, 64, .imm, true, (.iv 1 65535)⟩]

/-- The rows of index 8003. -/
def rows8003 : List ORow := [
  ⟨0x00, 0x00, .u8, .const, 1, 4, 5, .imm, false, .any⟩,
  ⟨0x01, 0x01, .u16, .rw, 1, 2, 0, .imm, false, (.iv 0 279)⟩,
  ⟨0x02, 0x02, .u8, .ro, 1, 4, 0, .imm, false, .any⟩,
  ⟨0x03, 0x03, .blob, .ro, 1, 4, 0, .imm, true, .any⟩,
  ⟨0x04, 0x04, .u32, .ro, 1, 4, 0, .imm, false, .any⟩,
  ⟨0x05, 0x05, .u32, .ro, 1, 4, 0, .imm, false, .any⟩]

/-- The rows of index 8004. -/
def rows8004 : List ORow := [
  ⟨0x00, 0x00, .u8, .const, 1, 4, 2, .imm, false, .any⟩,
  ⟨0x01, 0x01, .bits32, .wo, 4, 3, 0, .imm, false, .any⟩,
  ⟨0x02, 0x02, .enum8, .wo, 4, 3, 0, .imm, false, .any⟩]

/-- The rows of index 8100. -/
def rows8100 : List ORow := [
  ⟨0x00, 0x00, .u8, .const, 1, 4, 6, .imm, false, .any⟩,
  ⟨0x01, 0x01, .enum8, .ro, 1, 4, 0, .imm, false, .any⟩,
  ⟨0x02, 0x02, .bits32, .rw, 1, 3, 131071, .imm, true, (.mask 0x1FFFF)⟩,
  ⟨0x03, 0x03, .enum8, .wo, 4, 3, 0, .imm, false, .any⟩,
  ⟨0x04, 0x04, .u8, .ro, 1, 4, 0, .imm, false, .any⟩,
  ⟨0x05, 0x05, .u16, .ro, 1, 4, 0, .imm, false, .any⟩,
  ⟨0x06, 0x06, .u32, .ro, 1, 4, 0, .imm, false, .any⟩]

/-- The rows of index 9000. -/
def rows9000 : List ORow := [
  ⟨0x00, 0x00, .u8, .const, 1, 4, 8, .imm, false, .any⟩,
  ⟨0x01, 0x01, .enum8, .ro, 0, 4, 0, .imm, false, .any⟩,
  ⟨0x02, 0x02, .enum8, .ro, 1, 4, 0, .imm, false, .any⟩,
  ⟨0x03, 0x03, .u16, .ro, 1, 4, 0, .imm, false, .any⟩,
  ⟨0x04, 0x04, .enum8, .ro, 1, 4, 0, .imm, false, .any⟩,
  ⟨0x05, 0x05, .time64, .ro, 1, 4, 0, .imm, false, .any⟩,
  ⟨0x06, 0x06, .u16, .ro, 1, 4, 0, .imm, false, .any⟩,
  ⟨0x07, 0x07, .u8, .wo, 4, 2, 0, .imm, false, .any⟩,
  ⟨0x08, 0x08, .u32, .ro, 1, 4, 0, .imm, false, .any⟩]

/-- The rows of index 9001. -/
def rows9001 : List ORow := [
  ⟨0x00, 0x00, .u8, .const, 1, 4, 7, .imm, false, .any⟩,
  ⟨0x01, 0x07, .u64, .ro, 1, 4, 0, .imm, false, .any⟩]

/-- The rows of index 9002. -/
def rows9002 : List ORow := [
  ⟨0x00, 0x00, .u8, .const, 1, 4, 5, .imm, false, .any⟩,
  ⟨0x01, 0x01, .u16, .const, 1, 4, 100, .imm, false, .any⟩,
  ⟨0x02, 0x02, .u64, .ro, 1, 4, 0, .imm, false, .any⟩,
  ⟨0x03, 0x03, .u32, .ro, 1, 4, 0, .imm, false, .any⟩,
  ⟨0x04, 0x04, .u16, .ro, 1, 4, 0, .imm, false, .any⟩,
  ⟨0x05, 0x05, .u32, .ro, 1, 4, 0, .imm, false, .any⟩]

/-- The rows of index 9003. -/
def rows9003 : List ORow := [
  ⟨0x00, 0x00, .u8, .const, 1, 4, 6, .imm, false, .any⟩,
  ⟨0x01, 0x01, .bits32, .ro, 1, 4, 0, .imm, false, .any⟩,
  ⟨0x02, 0x02, .bits32, .ro, 1, 4, 0, .imm, false, .any⟩,
  ⟨0x03, 0x03, .bits32, .ro, 1, 4, 0, .imm, false, .any⟩,
  ⟨0x04, 0x04, .bits64, .ro, 1, 4, 0, .imm, false, .any⟩,
  ⟨0x05, 0x05, .bits32, .ro, 1, 4, 0, .imm, false, .any⟩,
  ⟨0x06, 0x06, .bits32, .ro, 1, 4, 0, .imm, false, .any⟩]

/-- The rows of index 9004. -/
def rows9004 : List ORow := [
  ⟨0x00, 0x00, .u8, .const, 1, 4, 2, .imm, false, .any⟩,
  ⟨0x01, 0x01, .u8, .wo, 4, 3, 0, .imm, false, .any⟩,
  ⟨0x02, 0x02, .u8, .wo, 4, 3, 0, .imm, false, .any⟩]

/-- The rows of index A000. -/
def rowsA000 : List ORow := [
  ⟨0x00, 0x00, .u8, .const, 1, 4, 5, .imm, false, .any⟩,
  ⟨0x01, 0x01, .u32, .ro, 1, 4, 0, .imm, false, .any⟩,
  ⟨0x02, 0x02, .u32, .ro, 1, 4, 0, .imm, false, .any⟩,
  ⟨0x03, 0x03, .u32, .ro, 1, 4, 0, .imm, false, .any⟩,
  ⟨0x04, 0x04, .enum8, .ro, 1, 4, 0, .imm, false, .any⟩,
  ⟨0x05, 0x05, .u32, .ro, 1, 4, 0, .imm, false, .any⟩]

/-- The rows of index A001. -/
def rowsA001 : List ORow := [
  ⟨0x00, 0x00, .u8, .const, 1, 4, 9, .imm, false, .any⟩,
  ⟨0x01, 0x09, .u16, .ro, 1, 4, 0, .imm, false, .any⟩]

/-- The rows of index A002. -/
def rowsA002 : List ORow := [
  ⟨0x00, 0x00, .u8, .const, 1, 4, 40, .imm, false, .any⟩,
  ⟨0x01, 0x28, .i32, .ro, 1, 4, 0, .imm, false, .any⟩]

/-- The rows of index A003. -/
def rowsA003 : List ORow := [
  ⟨0x00, 0x00, .u8, .const, 1, 4, 7, .imm, false, .any⟩,
  ⟨0x01, 0x01, .i32, .ro, 1, 4, 0, .imm, false, .any⟩,
  ⟨0x02, 0x02, .u8, .ro, 1, 4, 0, .imm, false, .any⟩,
  ⟨0x03, 0x03, .u32, .ro, 1, 4, 0, .imm, false, .any⟩,
  ⟨0x04, 0x04, .i32, .ro, 1, 4, 0, .imm, false, .any⟩,
  ⟨0x05, 0x05, .i32, .rw, 1, 2, 95000, .imm, true, (.iv 70000 99000)⟩,
  ⟨0x06, 0x06, .i32, .rw, 1, 2, 5000, .imm, true, (.iv 1000 20000)⟩,
  ⟨0x07, 0x07, .u8, .wo, 4, 2, 0, .imm, false, .any⟩]

/-- The rows of index A004. -/
def rowsA004 : List ORow := [
  ⟨0x00, 0x00, .u8, .const, 1, 4, 4, .imm, false, .any⟩,
  ⟨0x01, 0x01, .i32, .const, 1, 4, 100000, .imm, false, .any⟩,
  ⟨0x02, 0x02, .i32, .const, 1, 4, 110000, .imm, false, .any⟩,
  ⟨0x03, 0x03, .i32, .const, 1, 4, 120000, .imm, false, .any⟩,
  ⟨0x04, 0x04, .u32, .ro, 1, 4, 0, .imm, false, .any⟩]

/-- The rows of index A005. -/
def rowsA005 : List ORow := [
  ⟨0x00, 0x00, .u8, .const, 1, 4, 2, .imm, false, .any⟩,
  ⟨0x01, 0x01, .i32, .ro, 1, 4, 0, .imm, false, .any⟩,
  ⟨0x02, 0x02, .u32, .ro, 1, 4, 0, .imm, false, .any⟩]

/-- The rows of index A006. -/
def rowsA006 : List ORow := [
  ⟨0x00, 0x00, .u8, .const, 1, 4, 6, .imm, false, .any⟩,
  ⟨0x01, 0x01, .u8, .wo, 4, 3, 0, .imm, false, .any⟩,
  ⟨0x02, 0x02, .enum8, .ro, 1, 4, 0, .imm, false, .any⟩,
  ⟨0x03, 0x03, .u32, .ro, 1, 4, 0, .imm, false, .any⟩,
  ⟨0x04, 0x04, .u8, .wo, 4, 2, 0, .imm, false, .any⟩,
  ⟨0x05, 0x05, .enum8, .rw, 1, 3, 0, .imm, true, (.iv 0 1)⟩,
  ⟨0x06, 0x06, .u32, .ro, 1, 4, 0, .imm, false, .any⟩]

/-- The rows of index B000. -/
def rowsB000 : List ORow := [
  ⟨0x00, 0x00, .u8, .const, 1, 4, 12, .imm, false, .any⟩,
  ⟨0x01, 0x04, .enum8, .ro, 1, 4, 0, .imm, false, .any⟩,
  ⟨0x05, 0x08, .u32, .ro, 1, 4, 0, .imm, false, .any⟩,
  ⟨0x09, 0x0C, .enum8, .ro, 1, 4, 0, .imm, false, .any⟩]

/-- The rows of index B001. -/
def rowsB001 : List ORow := [
  ⟨0x00, 0x00, .u8, .const, 1, 4, 5, .imm, false, .any⟩,
  ⟨0x01, 0x04, .u16, .rw, 1, 2, 50, .imm, true, (.iv 5 1000)⟩,
  ⟨0x05, 0x05, .u8, .wo, 4, 3, 0, .imm, false, .any⟩]

/-- The rows of index B002. -/
def rowsB002 : List ORow := [
  ⟨0x00, 0x00, .u8, .const, 1, 4, 9, .imm, false, .any⟩,
  ⟨0x01, 0x01, .enum8, .ro, 1, 4, 0, .imm, false, .any⟩,
  ⟨0x02, 0x02, .u64, .ro, 1, 4, 0, .imm, false, .any⟩,
  ⟨0x03, 0x03, .u8, .ro, 1, 4, 0, .imm, false, .any⟩,
  ⟨0x04, 0x04, .u16, .ro, 1, 4, 0, .imm, false, .any⟩,
  ⟨0x05, 0x05, .bits64, .ro, 1, 4, 0, .imm, false, .any⟩,
  ⟨0x06, 0x06, .bits64, .ro, 1, 4, 0, .imm, false, .any⟩,
  ⟨0x07, 0x07, .bits64, .const, 1, 4, 1023, .imm, false, .any⟩,
  ⟨0x08, 0x08, .bits64, .const, 1, 4, 0, .imm, false, .any⟩,
  ⟨0x09, 0x09, .bits64, .const, 1, 4, 1, .imm, false, .any⟩]

/-- The rows of index B003. -/
def rowsB003 : List ORow := [
  ⟨0x00, 0x00, .u8, .const, 1, 4, 6, .imm, false, .any⟩,
  ⟨0x01, 0x01, .u64, .ro, 1, 4, 0, .imm, false, .any⟩,
  ⟨0x02, 0x02, .u64, .ro, 1, 4, 0, .imm, false, .any⟩,
  ⟨0x03, 0x03, .u64, .ro, 1, 4, 0, .imm, false, .any⟩,
  ⟨0x04, 0x04, .u64, .ro, 1, 4, 0, .imm, false, .any⟩,
  ⟨0x05, 0x05, .u64, .ro, 1, 4, 0, .imm, false, .any⟩,
  ⟨0x06, 0x06, .u64, .ro, 1, 4, 0, .imm, false, .any⟩]

/-- The rows of index B004. -/
def rowsB004 : List ORow := [
  ⟨0x00, 0x00, .u8, .const, 1, 4, 5, .imm, false, .any⟩,
  ⟨0x01, 0x01, .u16, .ro, 1, 4, 1000, .imm, false, .any⟩,
  ⟨0x02, 0x02, .i32, .ro, 1, 4, 0, .imm, false, .any⟩,
  ⟨0x03, 0x03, .u32, .ro, 1, 4, 0, .imm, false, .any⟩,
  ⟨0x04, 0x04, .u32, .ro, 1, 4, 0, .imm, false, .any⟩,
  ⟨0x05, 0x05, .u32, .ro, 1, 4, 0, .imm, false, .any⟩]

/-- The rows of index B005. -/
def rowsB005 : List ORow := [
  ⟨0x00, 0x00, .u8, .const, 1, 4, 3, .imm, false, .any⟩,
  ⟨0x01, 0x01, .blob, .ro, 1, 4, 0, .imm, false, .any⟩,
  ⟨0x02, 0x02, .u32, .ro, 1, 4, 0, .imm, false, .any⟩,
  ⟨0x03, 0x03, .u8, .wo, 4, 3, 0, .imm, false, .any⟩]

/-- The rows of index B006. -/
def rowsB006 : List ORow := [
  ⟨0x00, 0x00, .u8, .const, 1, 4, 1, .imm, false, .any⟩,
  ⟨0x01, 0x01, .u8, .wo, 4, 3, 0, .imm, false, .any⟩]

/-- The rows of index B800. -/
def rowsB800 : List ORow := [
  ⟨0x00, 0x00, .u8, .const, 1, 4, 12, .imm, false, .any⟩,
  ⟨0x01, 0x01, .enum8, .ro, 1, 4, 0, .imm, false, .any⟩,
  ⟨0x02, 0x02, .u64, .ro, 1, 4, 0, .imm, false, .any⟩,
  ⟨0x03, 0x03, .u32, .ro, 1, 4, 0, .imm, false, .any⟩,
  ⟨0x04, 0x04, .u32, .ro, 1, 4, 0, .imm, false, .any⟩,
  ⟨0x05, 0x05, .u8, .ro, 1, 4, 0, .imm, false, .any⟩,
  ⟨0x06, 0x06, .u16, .ro, 1, 4, 0, .imm, false, .any⟩,
  ⟨0x07, 0x07, .enum8, .ro, 1, 4, 0, .imm, false, .any⟩,
  ⟨0x08, 0x08, .u32, .ro, 1, 4, 0, .imm, false, .any⟩,
  ⟨0x09, 0x09, .blob, .ro, 1, 4, 0, .imm, false, .any⟩,
  ⟨0x0A, 0x0A, .u8, .ro, 1, 4, 0, .imm, false, .any⟩,
  ⟨0x0B, 0x0B, .u32, .ro, 1, 4, 0, .imm, false, .any⟩,
  ⟨0x0C, 0x0C, .bits32, .ro, 1, 4, 0, .imm, false, .any⟩]

/-- The rows of index B801. -/
def rowsB801 : List ORow := [
  ⟨0x00, 0x00, .u8, .const, 1, 4, 3, .imm, false, .any⟩,
  ⟨0x01, 0x01, .enum8, .wo, 4, 2, 0, .imm, false, .any⟩,
  ⟨0x02, 0x02, .blob, .rw, 1, 2, 0, .imm, false, .any⟩,
  ⟨0x03, 0x03, .blob, .wo, 4, 2, 0, .imm, false, .any⟩]

/-- The rows of index B802. -/
def rowsB802 : List ORow := [
  ⟨0x00, 0x00, .u8, .const, 1, 4, 7, .imm, false, .any⟩,
  ⟨0x01, 0x01, .enum8, .rw, 1, 2, 0, .imm, true, (.iv 0 2)⟩,
  ⟨0x02, 0x02, .u8, .rw, 1, 2, 255, .imm, true, (.oneOf [0, 1, 2, 3, 4, 5, 6, 7, 255])⟩,
  ⟨0x03, 0x03, .u8, .rw, 1, 2, 255, .imm, true, (.oneOf [0, 1, 2, 3, 4, 5, 6, 7, 255])⟩,
  ⟨0x04, 0x04, .u16, .rw, 1, 2, 50, .imm, true, (.iv 10 1000)⟩,
  ⟨0x05, 0x05, .u32, .ro, 1, 4, 0, .imm, false, .any⟩,
  ⟨0x06, 0x06, .u32, .ro, 1, 4, 0, .imm, false, .any⟩,
  ⟨0x07, 0x07, .u32, .ro, 1, 4, 0, .imm, false, .any⟩]

/-- The rows of index B803. -/
def rowsB803 : List ORow := [
  ⟨0x00, 0x00, .u8, .const, 1, 4, 6, .imm, false, .any⟩,
  ⟨0x01, 0x01, .bits32, .ro, 1, 4, 0, .imm, false, .any⟩,
  ⟨0x02, 0x02, .bits32, .ro, 1, 4, 0, .imm, false, .any⟩,
  ⟨0x03, 0x03, .u32, .ro, 1, 4, 0, .imm, false, .any⟩,
  ⟨0x04, 0x04, .u32, .ro, 1, 4, 0, .imm, false, .any⟩,
  ⟨0x05, 0x05, .u8, .wo, 4, 3, 0, .imm, false, .any⟩,
  ⟨0x06, 0x06, .u64, .ro, 1, 4, 0, .imm, false, .any⟩]

/-- The rows of index B804. -/
def rowsB804 : List ORow := [
  ⟨0x00, 0x00, .u8, .const, 1, 4, 4, .imm, false, .any⟩,
  ⟨0x01, 0x01, .u32, .ro, 1, 4, 0, .imm, false, .any⟩,
  ⟨0x02, 0x02, .u32, .ro, 1, 4, 0, .imm, false, .any⟩,
  ⟨0x03, 0x03, .u32, .ro, 1, 4, 0, .imm, false, .any⟩,
  ⟨0x04, 0x04, .u64, .ro, 1, 4, 0, .imm, false, .any⟩]

/-- The rows of index C000. -/
def rowsC000 : List ORow := [
  ⟨0x00, 0x00, .u8, .const, 1, 4, 6, .imm, false, .any⟩,
  ⟨0x01, 0x01, .u8, .rw, 1, 1, 0, .imm, false, (.iv 0 1)⟩,
  ⟨0x02, 0x02, .u64, .ro, 1, 4, 0, .imm, false, .any⟩,
  ⟨0x03, 0x03, .bits64, .rw, 1, 1, 262143, .imm, false, (.mask 0x1FFFFFF)⟩,
  ⟨0x04, 0x04, .u16, .rw, 1, 1, 20481, .imm, false, .any⟩,
  ⟨0x05, 0x05, .u64, .ro, 1, 4, 0, .imm, false, .any⟩,
  ⟨0x06, 0x06, .u8, .wo, 4, 1, 0, .imm, false, .any⟩]

/-- The rows of index C800. -/
def rowsC800 : List ORow := [
  ⟨0x00, 0x00, .u8, .const, 1, 4, 5, .imm, false, .any⟩,
  ⟨0x01, 0x01, .u8, .wo, 4, 1, 0, .imm, false, .any⟩,
  ⟨0x02, 0x02, .time64, .ro, 1, 4, 0, .imm, false, .any⟩,
  ⟨0x03, 0x03, .u16, .ro, 1, 4, 0, .imm, false, .any⟩,
  ⟨0x04, 0x04, .u8, .wo, 4, 1, 0, .imm, false, .any⟩,
  ⟨0x05, 0x05, .u64, .ro, 1, 4, 0, .imm, false, .any⟩]

/-- The rows of index C801. -/
def rowsC801 : List ORow := [
  ⟨0x00, 0x00, .u8, .const, 1, 4, 9, .imm, false, .any⟩,
  ⟨0x01, 0x09, .bits32, .rw, 1, 1, 0, .imm, false, (.mask 0x1F)⟩]

/-- The rows of index C802. -/
def rowsC802 : List ORow := [
  ⟨0x00, 0x00, .u8, .const, 1, 4, 8, .imm, false, .any⟩,
  ⟨0x01, 0x01, .enum8, .rw, 1, 1, 0, .imm, false, (.iv 0 1)⟩,
  ⟨0x02, 0x02, .bits64, .rw, 1, 1, 262143, .imm, false, (.mask 0x1FFFFFF)⟩,
  ⟨0x03, 0x03, .u64, .rw, 1, 1, 0, .imm, false, .any⟩,
  ⟨0x04, 0x04, .u64, .rw, 1, 1, 17592186044416, .imm, false, .any⟩,
  ⟨0x05, 0x05, .blob, .ro, 1, 4, 0, .imm, false, .any⟩,
  ⟨0x06, 0x06, .u32, .ro, 1, 4, 0, .imm, false, .any⟩,
  ⟨0x07, 0x07, .u64, .ro, 1, 4, 0, .imm, false, .any⟩,
  ⟨0x08, 0x08, .u32, .ro, 1, 4, 0, .imm, false, .any⟩]

/-- The rows of index C803. -/
def rowsC803 : List ORow := [
  ⟨0x00, 0x00, .u8, .const, 1, 4, 6, .imm, false, .any⟩,
  ⟨0x01, 0x01, .u8, .rw, 1, 1, 0, .imm, false, (.iv 0 1)⟩,
  ⟨0x02, 0x02, .u64, .rw, 1, 1, 0, .imm, false, .any⟩,
  ⟨0x03, 0x03, .u32, .rw, 1, 1, 0, .imm, false, .any⟩,
  ⟨0x04, 0x04, .u64, .ro, 1, 4, 0, .imm, false, .any⟩,
  ⟨0x05, 0x05, .u64, .rw, 1, 1, 0, .imm, false, .any⟩,
  ⟨0x06, 0x06, .u16, .rw, 1, 1, 4, .imm, false, (.iv 1 32)⟩]

/-- The rows of index D000. -/
def rowsD000 : List ORow := [
  ⟨0x00, 0x00, .u8, .const, 1, 4, 9, .imm, false, .any⟩,
  ⟨0x01, 0x01, .time64, .rw, 1, 2, 0, .imm, false, .any⟩,
  ⟨0x02, 0x02, .u8, .ro, 1, 4, 0, .imm, false, .any⟩,
  ⟨0x03, 0x03, .u16, .ro, 1, 4, 0, .imm, false, .any⟩,
  ⟨0x04, 0x04, .u16, .rw, 1, 2, 2700, .imm, true, (.iv 2500 3300)⟩,
  ⟨0x05, 0x05, .enum8, .ro, 1, 4, 0, .imm, false, .any⟩,
  ⟨0x06, 0x06, .bits32, .ro, 1, 4, 0, .imm, false, .any⟩,
  ⟨0x07, 0x07, .u8, .wo, 4, 2, 0, .imm, false, .any⟩,
  ⟨0x08, 0x08, .i32, .rw, 1, 2, 85000, .imm, true, (.iv 60000 105000)⟩,
  ⟨0x09, 0x09, .i32, .rw, 1, 2, 0, .imm, true, (.iv (-200000) 200000)⟩]

/-- Part 0 of the table of all indices. -/
def groups0 : List OGroup := [
  ⟨0x1000, 0, 1, rows1000⟩,
  ⟨0x1001, 0, 1, rows1001⟩,
  ⟨0x1100, 0, 1, rows1100⟩,
  ⟨0x1101, 0, 1, rows1101⟩,
  ⟨0x1102, 0, 1, rows1102⟩,
  ⟨0x1103, 0, 1, rows1103⟩,
  ⟨0x1104, 0, 1, rows1104⟩,
  ⟨0x1200, 0, 1, rows1200⟩,
  ⟨0x1201, 0, 1, rows1201⟩,
  ⟨0x2000, 64, 16, rows2000⟩,
  ⟨0x2001, 64, 16, rows2001⟩,
  ⟨0x2002, 64, 16, rows2002⟩,
  ⟨0x2003, 64, 16, rows2003⟩,
  ⟨0x2004, 64, 16, rows2004⟩,
  ⟨0x2005, 64, 16, rows2005⟩,
  ⟨0x2006, 64, 16, rows2006⟩,
  ⟨0x2007, 64, 16, rows2007⟩,
  ⟨0x2800, 0, 1, rows2800⟩,
  ⟨0x2801, 0, 1, rows2801⟩,
  ⟨0x2802, 0, 1, rows2802⟩]

/-- Part 1 of the table of all indices. -/
def groups1 : List OGroup := [
  ⟨0x2803, 0, 1, rows2803⟩,
  ⟨0x2804, 0, 1, rows2804⟩,
  ⟨0x2805, 0, 1, rows2805⟩,
  ⟨0x3000, 0, 1, rows3000⟩,
  ⟨0x3001, 0, 1, rows3001⟩,
  ⟨0x3002, 0, 1, rows3002⟩,
  ⟨0x3003, 0, 1, rows3003⟩,
  ⟨0x3004, 0, 1, rows3004⟩,
  ⟨0x3005, 0, 1, rows3005⟩,
  ⟨0x3008, 0, 1, rows3008⟩,
  ⟨0x3010, 0, 1, rows3010⟩,
  ⟨0x3011, 0, 1, rows3011⟩,
  ⟨0x3012, 0, 1, rows3012⟩,
  ⟨0x3020, 1, 64, rows3020⟩,
  ⟨0x3100, 1, 1024, rows3100⟩,
  ⟨0x3800, 0, 1, rows3800⟩,
  ⟨0x3801, 0, 1, rows3801⟩,
  ⟨0x3810, 1, 8, rows3810⟩,
  ⟨0x3900, 8, 24, rows3900⟩,
  ⟨0x3901, 8, 24, rows3901⟩]

/-- Part 2 of the table of all indices. -/
def groups2 : List OGroup := [
  ⟨0x3902, 8, 24, rows3901⟩,
  ⟨0x3903, 8, 24, rows3903⟩,
  ⟨0x4000, 1, 4096, rows4000⟩,
  ⟨0x5000, 0, 1, rows5000⟩,
  ⟨0x5001, 0, 1, rows5001⟩,
  ⟨0x5002, 0, 1, rows5002⟩,
  ⟨0x5003, 0, 1, rows5003⟩,
  ⟨0x5004, 0, 1, rows5004⟩,
  ⟨0x5100, 1, 1024, rows5100⟩,
  ⟨0x6000, 0, 1, rows6000⟩,
  ⟨0x6001, 0, 1, rows6001⟩,
  ⟨0x6002, 0, 1, rows6002⟩,
  ⟨0x6003, 0, 1, rows6003⟩,
  ⟨0x6004, 0, 1, rows6004⟩,
  ⟨0x6005, 0, 1, rows6005⟩,
  ⟨0x6006, 0, 1, rows6006⟩,
  ⟨0x6800, 0, 1, rows6800⟩,
  ⟨0x6801, 0, 1, rows6801⟩,
  ⟨0x6802, 0, 1, rows6802⟩,
  ⟨0x6900, 0, 1, rows6900⟩]

/-- Part 3 of the table of all indices. -/
def groups3 : List OGroup := [
  ⟨0x6901, 0, 1, rows6901⟩,
  ⟨0x6902, 0, 1, rows6902⟩,
  ⟨0x6903, 0, 1, rows6903⟩,
  ⟨0x6910, 1, 64, rows6910⟩,
  ⟨0x7000, 1, 64, rows7000⟩,
  ⟨0x7040, 0, 1, rows7040⟩,
  ⟨0x7041, 0, 1, rows7041⟩,
  ⟨0x7042, 0, 1, rows7042⟩,
  ⟨0x7043, 0, 1, rows7043⟩,
  ⟨0x8000, 0, 1, rows8000⟩,
  ⟨0x8001, 0, 1, rows8001⟩,
  ⟨0x8002, 0, 1, rows8002⟩,
  ⟨0x8003, 0, 1, rows8003⟩,
  ⟨0x8004, 0, 1, rows8004⟩,
  ⟨0x8100, 1, 256, rows8100⟩,
  ⟨0x9000, 0, 1, rows9000⟩,
  ⟨0x9001, 0, 1, rows9001⟩,
  ⟨0x9002, 0, 1, rows9002⟩,
  ⟨0x9003, 0, 1, rows9003⟩,
  ⟨0x9004, 0, 1, rows9004⟩]

/-- Part 4 of the table of all indices. -/
def groups4 : List OGroup := [
  ⟨0xA000, 0, 1, rowsA000⟩,
  ⟨0xA001, 0, 1, rowsA001⟩,
  ⟨0xA002, 0, 1, rowsA002⟩,
  ⟨0xA003, 0, 1, rowsA003⟩,
  ⟨0xA004, 0, 1, rowsA004⟩,
  ⟨0xA005, 0, 1, rowsA005⟩,
  ⟨0xA006, 0, 1, rowsA006⟩,
  ⟨0xB000, 0, 1, rowsB000⟩,
  ⟨0xB001, 0, 1, rowsB001⟩,
  ⟨0xB002, 0, 1, rowsB002⟩,
  ⟨0xB003, 0, 1, rowsB003⟩,
  ⟨0xB004, 0, 1, rowsB004⟩,
  ⟨0xB005, 0, 1, rowsB005⟩,
  ⟨0xB006, 0, 1, rowsB006⟩,
  ⟨0xB800, 0, 1, rowsB800⟩,
  ⟨0xB801, 0, 1, rowsB801⟩,
  ⟨0xB802, 0, 1, rowsB802⟩,
  ⟨0xB803, 0, 1, rowsB803⟩,
  ⟨0xB804, 0, 1, rowsB804⟩,
  ⟨0xC000, 1, 2048, rowsC000⟩]

/-- Part 5 of the table of all indices. -/
def groups5 : List OGroup := [
  ⟨0xC800, 0, 1, rowsC800⟩,
  ⟨0xC801, 0, 1, rowsC801⟩,
  ⟨0xC802, 0, 1, rowsC802⟩,
  ⟨0xC803, 0, 1, rowsC803⟩,
  ⟨0xD000, 0, 1, rowsD000⟩]

/-- Every index that an object table defines (R688). -/
def groups : List OGroup := groups0 ++ groups1 ++ groups2 ++ groups3 ++ groups4 ++ groups5

/-- Whether an index belongs to a group. -/
def OGroup.has (g : OGroup) (index : Nat) : Bool :=
  if g.count = 1 then index == g.base
  else g.base ≤ index && (index - g.base) % g.stride == 0 && (index - g.base) / g.stride < g.count

/-- The row of object index.sub, or none where no table defines it (R688). -/
def objRow (index sub : Nat) : Option ORow :=
  match groups.find? (·.has index) with
  | none   => none
  | some g => g.rows.find? (fun r => r.sub0 ≤ sub && sub ≤ r.sub1)

/-- The default of an object (its table's Default column); the few that repeat with a factor are written out: window w's
base is w × 2^36, and DEFAULT_SLOT i names slot i + 1. -/
def objDflt (key : Nat) : Nat :=
  let index := key / 256
  let sub := key % 256
  if index = 0x2801 ∧ 1 ≤ sub ∧ sub ≤ 4 then (sub - 1) * 2 ^ 36
  else if index = 0x5004 ∧ 1 ≤ sub ∧ sub ≤ 6 then sub
  else match objRow index sub with
    | some r => r.dflt
    | none   => 0

namespace Obj

/-- 1000.01 `PART_NUMBER`. -/
abbrev partNumber : Nat := okey 0x1000 1
/-- 1000.02 `STEPPING`. -/
abbrev stepping : Nat := okey 0x1000 2
/-- 1000.03 `SERIAL_NUMBER`. -/
abbrev serialNumber : Nat := okey 0x1000 3
/-- 1000.04 `VENDOR_ID`. -/
abbrev vendorId : Nat := okey 0x1000 4
/-- 1000.05 `FW_VERSION`. -/
abbrev fwVersion : Nat := okey 0x1000 5
/-- 1000.06 `IMAGE_DIGEST`. -/
abbrev imageDigest : Nat := okey 0x1000 6
/-- 1000.07 `ACTIVE_BANK`. -/
abbrev activeBank : Nat := okey 0x1000 7
/-- 1000.08 `MAC_ADDRESS`. -/
abbrev macAddress : Nat := okey 0x1000 8
/-- 1001.01 `LINK_FEATURE_WORD`. -/
abbrev linkFeatureWord : Nat := okey 0x1001 1
/-- 1001.02 `DICT_FEATURES`. -/
abbrev dictFeatures : Nat := okey 0x1001 2
/-- 1100.01 `T1S_NODE_ID`. -/
abbrev t1sNodeId : Nat := okey 0x1100 1
/-- 1100.02 `T1S_NODE_COUNT`. -/
abbrev t1sNodeCount : Nat := okey 0x1100 2
/-- 1100.03 `T1S_LINK_STATE`. -/
abbrev t1sLinkState : Nat := okey 0x1100 3
/-- 1100.04 `IPV6_LINK_LOCAL`. -/
abbrev ipv6LinkLocal : Nat := okey 0x1100 4
/-- 1100.05 `UDP_PORT`. -/
abbrev udpPort : Nat := okey 0x1100 5
/-- 1100.06 `T1S_FRAMES_RX`. -/
abbrev t1sFramesRx : Nat := okey 0x1100 6
/-- 1100.07 `T1S_FRAMES_TX`. -/
abbrev t1sFramesTx : Nat := okey 0x1100 7
/-- 1100.08 `T1S_DISCARDS`. -/
abbrev t1sDiscards : Nat := okey 0x1100 8
/-- 1100.09 `T1S_OPEN_READ`. -/
abbrev t1sOpenRead : Nat := okey 0x1100 9
/-- 1101.01 `NODE_ID`. -/
abbrev nodeId : Nat := okey 0x1101 1
/-- 1102.01 `OWNER_LOCK`. -/
abbrev ownerLock : Nat := okey 0x1102 1
/-- 1102.02 `EP_DEFAULT_AUTH`. -/
abbrev epDefaultAuth : Nat := okey 0x1102 2
/-- 1102.03 `OWNER_SECRET`. -/
abbrev ownerSecret : Nat := okey 0x1102 3
/-- 1102.04 `OPERATOR_SECRET`. -/
abbrev operatorSecret : Nat := okey 0x1102 4
/-- 1102.05 `SECRET_STATE`. -/
abbrev secretState : Nat := okey 0x1102 5
/-- 1103.01 `SESSION_IDLE`. -/
abbrev sessionIdle : Nat := okey 0x1103 1
/-- 1103.02 `SESSIONS_T1S`. -/
abbrev sessionsT1s : Nat := okey 0x1103 2
/-- 1103.03 `SESSIONS_WINDOW`. -/
abbrev sessionsWindow : Nat := okey 0x1103 3
/-- 1103.04 `MY_AUTHORITY`. -/
abbrev myAuthority : Nat := okey 0x1103 4
/-- 1103.05 `AUTH_FAILURES`. -/
abbrev authFailures : Nat := okey 0x1103 5
/-- 1103.06 `AUTH_LOCKOUTS`. -/
abbrev authLockouts : Nat := okey 0x1103 6
/-- 1103.07 `LAST_AUTH_FAIL_TIME`. -/
abbrev lastAuthFailTime : Nat := okey 0x1103 7
/-- 1103.08 `TAG_FAILURES`. -/
abbrev tagFailures : Nat := okey 0x1103 8
/-- 1104.01 `REQUESTS`. -/
abbrev requests (i : Nat) : Nat := okey 0x1104 (1 + i)
/-- 1104.04 `DENIALS`. -/
abbrev denials : Nat := okey 0x1104 4
/-- 1104.05 `REPLAYS_ANSWERED`. -/
abbrev replaysAnswered : Nat := okey 0x1104 5
/-- 1104.06 `WINDOW_GO_DROPS`. -/
abbrev windowGoDrops : Nat := okey 0x1104 6
/-- 1200.01 `DEVICE_STATE`. -/
abbrev deviceState : Nat := okey 0x1200 1
/-- 1200.02 `PREVIOUS_STATE`. -/
abbrev previousState : Nat := okey 0x1200 2
/-- 1200.03 `STATE_SINCE`. -/
abbrev stateSince : Nat := okey 0x1200 3
/-- 1200.04 `STATE_CHANGES`. -/
abbrev stateChanges : Nat := okey 0x1200 4
/-- 1200.05 `LAST_RESET_KIND`. -/
abbrev lastResetKind : Nat := okey 0x1200 5
/-- 1201.01 `CONFIG_LOAD_STATUS`. -/
abbrev configLoadStatus : Nat := okey 0x1201 1
/-- 1201.02 `CONFIG_RECORDS`. -/
abbrev configRecords : Nat := okey 0x1201 2
/-- 1201.03 `CONFIG_SAVE_PENDING`. -/
abbrev configSavePending : Nat := okey 0x1201 3
/-- 1201.04 `CONFIG_REJECTS`. -/
abbrev configRejects : Nat := okey 0x1201 4
/-- 1201.05 `CONFIG_COMPACTIONS`. -/
abbrev configCompactions : Nat := okey 0x1201 5
/-- 1201.06 `CONFIG_RESET`. -/
abbrev configReset : Nat := okey 0x1201 6
/-- 2000.01 `PORT_STATE`. -/
abbrev portState (n : Nat) : Nat := okey (0x2000 + n * 64) 1
/-- 2000.02 `PORT_WIDTH_ACTIVE`. -/
abbrev portWidthActive (n : Nat) : Nat := okey (0x2000 + n * 64) 2
/-- 2000.03 `LANE_HALF_ACTIVE`. -/
abbrev laneHalfActive (n : Nat) : Nat := okey (0x2000 + n * 64) 3
/-- 2000.04 `PARTNER_NODE_ID`. -/
abbrev partnerNodeId (n : Nat) : Nat := okey (0x2000 + n * 64) 4
/-- 2000.05 `PARTNER_FEATURES`. -/
abbrev partnerFeatures (n : Nat) : Nat := okey (0x2000 + n * 64) 5
/-- 2000.06 `REPLAY_COUNT`. -/
abbrev replayCount (n : Nat) : Nat := okey (0x2000 + n * 64) 6
/-- 2000.07 `DEGRADE_COUNT`. -/
abbrev degradeCount (n : Nat) : Nat := okey (0x2000 + n * 64) 7
/-- 2000.08 `RESET_COUNT`. -/
abbrev resetCount (n : Nat) : Nat := okey (0x2000 + n * 64) 8
/-- 2000.09 `LAST_RESET_CAUSE`. -/
abbrev lastResetCause (n : Nat) : Nat := okey (0x2000 + n * 64) 9
/-- 2000.0A `LAST_RESET_MODE`. -/
abbrev lastResetMode (n : Nat) : Nat := okey (0x2000 + n * 64) 10
/-- 2000.0B `TAGS_IN_FLIGHT`. -/
abbrev tagsInFlight (n : Nat) : Nat := okey (0x2000 + n * 64) 11
/-- 2000.0C `TAG_REUSE_DROPS`. -/
abbrev tagReuseDrops (n : Nat) : Nat := okey (0x2000 + n * 64) 12
/-- 2001.01 `PORT_ENABLE`. -/
abbrev portEnable (n : Nat) : Nat := okey (0x2001 + n * 64) 1
/-- 2001.02 `PORT_WIDTH_MAX`. -/
abbrev portWidthMax (n : Nat) : Nat := okey (0x2001 + n * 64) 2
/-- 2001.03 `AUTO_DEGRADE`. -/
abbrev autoDegrade (n : Nat) : Nat := okey (0x2001 + n * 64) 3
/-- 2001.04 `AUTO_UPSHIFT`. -/
abbrev autoUpshift (n : Nat) : Nat := okey (0x2001 + n * 64) 4
/-- 2001.05 `TRAIN_PRESET_SET`. -/
abbrev trainPresetSet (n : Nat) : Nat := okey (0x2001 + n * 64) 5
/-- 2001.06 `LANE_POLARITY`. -/
abbrev lanePolarity (n : Nat) : Nat := okey (0x2001 + n * 64) 6
/-- 2001.07 `INIT_TRICKLE`. -/
abbrev initTrickle (n : Nat) : Nat := okey (0x2001 + n * 64) 7
/-- 2001.08 `INIT_HINT_MIN`. -/
abbrev initHintMin (n : Nat) : Nat := okey (0x2001 + n * 64) 8
/-- 2001.09 `HOLD_HINT`. -/
abbrev holdHint (n : Nat) : Nat := okey (0x2001 + n * 64) 9
/-- 2001.0A `RESUME_ENABLE`. -/
abbrev resumeEnable (n : Nat) : Nat := okey (0x2001 + n * 64) 10
/-- 2002.01 `ADV_REQ`. -/
abbrev advReq (n : Nat) : Nat := okey (0x2002 + n * 64) 1
/-- 2002.02 `ADV_RSP`. -/
abbrev advRsp (n : Nat) : Nat := okey (0x2002 + n * 64) 2
/-- 2002.03 `ADV_SNP`. -/
abbrev advSnp (n : Nat) : Nat := okey (0x2002 + n * 64) 3
/-- 2002.04 `ADV_MGMT`. -/
abbrev advMgmt (n : Nat) : Nat := okey (0x2002 + n * 64) 4
/-- 2002.05 `TX_CREDIT_REQ`. -/
abbrev txCreditReq (n : Nat) : Nat := okey (0x2002 + n * 64) 5
/-- 2002.06 `TX_CREDIT_RSP`. -/
abbrev txCreditRsp (n : Nat) : Nat := okey (0x2002 + n * 64) 6
/-- 2002.07 `TX_CREDIT_SNP`. -/
abbrev txCreditSnp (n : Nat) : Nat := okey (0x2002 + n * 64) 7
/-- 2002.08 `TX_CREDIT_MGMT`. -/
abbrev txCreditMgmt (n : Nat) : Nat := okey (0x2002 + n * 64) 8
/-- 2003.01 `REPLAY_ESC_COUNT`. -/
abbrev replayEscCount (n : Nat) : Nat := okey (0x2003 + n * 64) 1
/-- 2003.02 `ACK_TIMEOUT`. -/
abbrev ackTimeout (n : Nat) : Nat := okey (0x2003 + n * 64) 2
/-- 2003.03 `LANE_SER_THRESHOLD`. -/
abbrev laneSerThreshold (n : Nat) : Nat := okey (0x2003 + n * 64) 3
/-- 2003.04 `DEGRADE_LIMIT`. -/
abbrev degradeLimit (n : Nat) : Nat := okey (0x2003 + n * 64) 4
/-- 2003.05 `RETRAIN_ATTEMPTS`. -/
abbrev retrainAttempts (n : Nat) : Nat := okey (0x2003 + n * 64) 5
/-- 2003.06 `RETRAIN_LIMIT`. -/
abbrev retrainLimit (n : Nat) : Nat := okey (0x2003 + n * 64) 6
/-- 2003.07 `UPSHIFT_SOAK`. -/
abbrev upshiftSoak (n : Nat) : Nat := okey (0x2003 + n * 64) 7
/-- 2004.01 `LANE_ERRORS`. -/
abbrev laneErrors (n i : Nat) : Nat := okey (0x2004 + n * 64) (1 + i)
/-- 2005.01 `LANE_STATE`. -/
abbrev laneState (n i : Nat) : Nat := okey (0x2005 + n * 64) (1 + i)
/-- 2006.01 `BP_LEVEL`. -/
abbrev bpLevel (n : Nat) : Nat := okey (0x2006 + n * 64) 1
/-- 2006.02 `BP_EVENT`. -/
abbrev bpEvent (n : Nat) : Nat := okey (0x2006 + n * 64) 2
/-- 2006.03 `BP_COUNT`. -/
abbrev bpCount (n : Nat) : Nat := okey (0x2006 + n * 64) 3
/-- 2006.04 `BP_PEAK`. -/
abbrev bpPeak (n : Nat) : Nat := okey (0x2006 + n * 64) 4
/-- 2006.05 `BP_MARK`. -/
abbrev bpMark (n : Nat) : Nat := okey (0x2006 + n * 64) 5
/-- 2006.06 `BP_HYSTERESIS`. -/
abbrev bpHysteresis (n : Nat) : Nat := okey (0x2006 + n * 64) 6
/-- 2006.07 `BP_ACK`. -/
abbrev bpAck (n : Nat) : Nat := okey (0x2006 + n * 64) 7
/-- 2007.01 `INJECT_FLIT_CRC`. -/
abbrev injectFlitCrc (n : Nat) : Nat := okey (0x2007 + n * 64) 1
/-- 2800.01 `EP_LINK_RATE`. -/
abbrev epLinkRate : Nat := okey 0x2800 1
/-- 2800.02 `EP_LINK_WIDTH`. -/
abbrev epLinkWidth : Nat := okey 0x2800 2
/-- 2800.03 `EP_D_STATE`. -/
abbrev epDState : Nat := okey 0x2800 3
/-- 2800.04 `EP_BUS_MASTER`. -/
abbrev epBusMaster : Nat := okey 0x2800 4
/-- 2800.05 `EP_ATS_ENABLED`. -/
abbrev epAtsEnabled : Nat := okey 0x2800 5
/-- 2800.06 `EP_LINES_IN_FLIGHT`. -/
abbrev epLinesInFlight : Nat := okey 0x2800 6
/-- 2800.07 `EP_CPL_TIMEOUT`. -/
abbrev epCplTimeout : Nat := okey 0x2800 7
/-- 2801.01 `WIN_BASE`. -/
abbrev winBase (i : Nat) : Nat := okey 0x2801 (1 + i)
/-- 2801.05 `WIN_VIEW`. -/
abbrev winView (i : Nat) : Nat := okey 0x2801 (5 + i)
/-- 2801.09 `EP_CONTROL_CLASS`. -/
abbrev epControlClass : Nat := okey 0x2801 9
/-- 2801.0A `WAKE_CAUSES`. -/
abbrev wakeCauses : Nat := okey 0x2801 10
/-- 2802.01 `DMA_STATE`. -/
abbrev dmaState (i : Nat) : Nat := okey 0x2802 (1 + i)
/-- 2802.05 `DMA_HALT_STATUS`. -/
abbrev dmaHaltStatus (i : Nat) : Nat := okey 0x2802 (5 + i)
/-- 2802.09 `DMA_RESTART`. -/
abbrev dmaRestart : Nat := okey 0x2802 9
/-- 2803.01 `ATC_ENTRIES_USED`. -/
abbrev atcEntriesUsed : Nat := okey 0x2803 1
/-- 2803.02 `ATS_TRANSLATIONS`. -/
abbrev atsTranslations : Nat := okey 0x2803 2
/-- 2803.03 `ATS_INVALIDATIONS`. -/
abbrev atsInvalidations : Nat := okey 0x2803 3
/-- 2803.04 `ATS_INVAL_TIME_MAX`. -/
abbrev atsInvalTimeMax : Nat := okey 0x2803 4
/-- 2803.05 `ATS_DENIALS`. -/
abbrev atsDenials : Nat := okey 0x2803 5
/-- 2804.01 `EP_READ_TLPS`. -/
abbrev epReadTlps : Nat := okey 0x2804 1
/-- 2804.02 `EP_WRITE_TLPS`. -/
abbrev epWriteTlps : Nat := okey 0x2804 2
/-- 2804.03 `EP_UR_SENT`. -/
abbrev epUrSent : Nat := okey 0x2804 3
/-- 2804.04 `EP_CA_SENT`. -/
abbrev epCaSent : Nat := okey 0x2804 4
/-- 2804.05 `EP_POISON_SENT`. -/
abbrev epPoisonSent : Nat := okey 0x2804 5
/-- 2804.06 `EP_POISON_RECEIVED`. -/
abbrev epPoisonReceived : Nat := okey 0x2804 6
/-- 2804.07 `EP_WRITES_REFUSED`. -/
abbrev epWritesRefused : Nat := okey 0x2804 7
/-- 2804.08 `CPL_TIMEOUTS`. -/
abbrev cplTimeouts : Nat := okey 0x2804 8
/-- 2804.09 `LATE_COMPLETIONS`. -/
abbrev lateCompletions : Nat := okey 0x2804 9
/-- 2804.0A `DOOR_BUSY_DROPS`. -/
abbrev doorBusyDrops : Nat := okey 0x2804 10
/-- 2804.0B `BAR0_BAD_ACCESSES`. -/
abbrev bar0BadAccesses : Nat := okey 0x2804 11
/-- 2804.0C `FLR_COUNT`. -/
abbrev flrCount : Nat := okey 0x2804 12
/-- 2805.01 `EP_LAST_FAIL_STATUS`. -/
abbrev epLastFailStatus : Nat := okey 0x2805 1
/-- 2805.02 `EP_LAST_FAIL_ADDR`. -/
abbrev epLastFailAddr : Nat := okey 0x2805 2
/-- 2805.03 `EP_LAST_FAIL_TIME`. -/
abbrev epLastFailTime : Nat := okey 0x2805 3
/-- 3000.01 `NEAR_PAGES_TOTAL`. -/
abbrev nearPagesTotal : Nat := okey 0x3000 1
/-- 3000.02 `NEAR_META_PAGES`. -/
abbrev nearMetaPages : Nat := okey 0x3000 2
/-- 3000.03 `NEAR_RESERVABLE`. -/
abbrev nearReservable : Nat := okey 0x3000 3
/-- 3000.04 `NEAR_PINNED_RESERVED`. -/
abbrev nearPinnedReserved : Nat := okey 0x3000 4
/-- 3000.05 `NEAR_FLOODED`. -/
abbrev nearFlooded : Nat := okey 0x3000 5
/-- 3000.06 `NEAR_FREE`. -/
abbrev nearFree : Nat := okey 0x3000 6
/-- 3000.07 `FAR_PAGES_INSTALLED`. -/
abbrev farPagesInstalled : Nat := okey 0x3000 7
/-- 3000.08 `FAR_RESERVABLE`. -/
abbrev farReservable : Nat := okey 0x3000 8
/-- 3000.09 `FAR_RESERVED`. -/
abbrev farReserved : Nat := okey 0x3000 9
/-- 3000.0A `FAR_FREE`. -/
abbrev farFree : Nat := okey 0x3000 10
/-- 3000.0B `LENT_PAGES`. -/
abbrev lentPages : Nat := okey 0x3000 11
/-- 3000.0C `PAGES_WRITTEN`. -/
abbrev pagesWritten : Nat := okey 0x3000 12
/-- 3001.01 `NEAR_RESERVABLE_CAP`. -/
abbrev nearReservableCap : Nat := okey 0x3001 1
/-- 3001.02 `EPOCH_US`. -/
abbrev epochUs : Nat := okey 0x3001 2
/-- 3001.03 `FLOOD_THRESHOLD`. -/
abbrev floodThreshold : Nat := okey 0x3001 3
/-- 3001.04 `EBB_THRESHOLD`. -/
abbrev ebbThreshold : Nat := okey 0x3001 4
/-- 3001.05 `NEAR_LOW_MARK`. -/
abbrev nearLowMark : Nat := okey 0x3001 5
/-- 3001.06 `NEAR_HIGH_MARK`. -/
abbrev nearHighMark : Nat := okey 0x3001 6
/-- 3001.07 `LENT_THRESHOLD`. -/
abbrev lentThreshold : Nat := okey 0x3001 7
/-- 3001.08 `MIGRATION_CLASS`. -/
abbrev migrationClass : Nat := okey 0x3001 8
/-- 3001.09 `MIG_RATE_CAP`. -/
abbrev migRateCap : Nat := okey 0x3001 9
/-- 3001.0A `MIG_DIRTY_MAX`. -/
abbrev migDirtyMax : Nat := okey 0x3001 10
/-- 3001.0B `MIG_PASSES`. -/
abbrev migPasses : Nat := okey 0x3001 11
/-- 3001.0C `FLOOD_ADMIT_MARK`. -/
abbrev floodAdmitMark : Nat := okey 0x3001 12
/-- 3001.0D `OWNED_LINE_MODE`. -/
abbrev ownedLineMode : Nat := okey 0x3001 13
/-- 3001.0E `PREFER_FACTOR_LOG2`. -/
abbrev preferFactorLog2 : Nat := okey 0x3001 14
/-- 3001.0F `EBB_SWEEP_RATE`. -/
abbrev ebbSweepRate : Nat := okey 0x3001 15
/-- 3002.01 `CLONE_SRC_OFFSET`. -/
abbrev cloneSrcOffset : Nat := okey 0x3002 1
/-- 3002.02 `CLONE_DST_OFFSET`. -/
abbrev cloneDstOffset : Nat := okey 0x3002 2
/-- 3002.03 `CLONE_PAGES`. -/
abbrev clonePages : Nat := okey 0x3002 3
/-- 3002.04 `CLONE_ACTION`. -/
abbrev cloneAction : Nat := okey 0x3002 4
/-- 3002.05 `CLONE_STATUS`. -/
abbrev cloneStatus : Nat := okey 0x3002 5
/-- 3002.06 `CLONE_DONE`. -/
abbrev cloneDone : Nat := okey 0x3002 6
/-- 3002.07 `SHARE_RECORDS_FREE`. -/
abbrev shareRecordsFree : Nat := okey 0x3002 7
/-- 3003.01 `MIG_QUEUE_DEPTH`. -/
abbrev migQueueDepth : Nat := okey 0x3003 1
/-- 3003.02 `FLOODS`. -/
abbrev floods : Nat := okey 0x3003 2
/-- 3003.03 `EBBS`. -/
abbrev ebbs : Nat := okey 0x3003 3
/-- 3003.04 `FLOOD_HINTS_DROPPED`. -/
abbrev floodHintsDropped : Nat := okey 0x3003 4
/-- 3003.05 `FLOOD_HINTS_MERGED`. -/
abbrev floodHintsMerged : Nat := okey 0x3003 5
/-- 3003.06 `EXTRA_PASSES`. -/
abbrev extraPasses : Nat := okey 0x3003 6
/-- 3003.07 `DRAIN_HOLD_MAX`. -/
abbrev drainHoldMax : Nat := okey 0x3003 7
/-- 3003.08 `COW_COPIES`. -/
abbrev cowCopies : Nat := okey 0x3003 8
/-- 3003.09 `LENT_LATE_COMPLETIONS`. -/
abbrev lentLateCompletions : Nat := okey 0x3003 9
/-- 3003.0A `LENT_TIMEOUTS`. -/
abbrev lentTimeouts : Nat := okey 0x3003 10
/-- 3003.0B `VERSION_WRAPS`. -/
abbrev versionWraps : Nat := okey 0x3003 11
/-- 3004.01 `MIG_OVERLOAD_LEVEL`. -/
abbrev migOverloadLevel : Nat := okey 0x3004 1
/-- 3004.02 `MIG_OVERLOAD_EVENT`. -/
abbrev migOverloadEvent : Nat := okey 0x3004 2
/-- 3004.03 `MIG_OVERLOAD_COUNT`. -/
abbrev migOverloadCount : Nat := okey 0x3004 3
/-- 3004.04 `MIG_OVERLOAD_PEAK`. -/
abbrev migOverloadPeak : Nat := okey 0x3004 4
/-- 3004.05 `MIG_OVERLOAD_MARK`. -/
abbrev migOverloadMark : Nat := okey 0x3004 5
/-- 3004.06 `MIG_OVERLOAD_HYSTERESIS`. -/
abbrev migOverloadHysteresis : Nat := okey 0x3004 6
/-- 3004.07 `MIG_OVERLOAD_ACK`. -/
abbrev migOverloadAck : Nat := okey 0x3004 7
/-- 3005.01 `NEAR_FREE_LEVEL`. -/
abbrev nearFreeLevel : Nat := okey 0x3005 1
/-- 3005.02 `NEAR_FREE_EVENT`. -/
abbrev nearFreeEvent : Nat := okey 0x3005 2
/-- 3005.03 `NEAR_FREE_COUNT`. -/
abbrev nearFreeCount : Nat := okey 0x3005 3
/-- 3005.04 `NEAR_FREE_PEAK`. -/
abbrev nearFreePeak : Nat := okey 0x3005 4
/-- 3005.05 `NEAR_FREE_MARK`. -/
abbrev nearFreeMark : Nat := okey 0x3005 5
/-- 3005.06 `NEAR_FREE_HYSTERESIS`. -/
abbrev nearFreeHysteresis : Nat := okey 0x3005 6
/-- 3005.07 `NEAR_FREE_ACK`. -/
abbrev nearFreeAck : Nat := okey 0x3005 7
/-- 3008.01 `LENT_READ_TIMEOUT`. -/
abbrev lentReadTimeout : Nat := okey 0x3008 1
/-- 3008.02 `LENT_FAIL_COUNT`. -/
abbrev lentFailCount : Nat := okey 0x3008 2
/-- 3008.03 `LENT_QUIET`. -/
abbrev lentQuiet : Nat := okey 0x3008 3
/-- 3008.04 `LENT_FAR_BUSY`. -/
abbrev lentFarBusy : Nat := okey 0x3008 4
/-- 3010.01 `SLOT_SELECT`. -/
abbrev slotSelect : Nat := okey 0x3010 1
/-- 3010.02 `SLOT_ACTION`. -/
abbrev slotAction : Nat := okey 0x3010 2
/-- 3010.03 `SLOT_ACTION_STATUS`. -/
abbrev slotActionStatus : Nat := okey 0x3010 3
/-- 3010.04 `EVAC_RATE`. -/
abbrev evacRate : Nat := okey 0x3010 4
/-- 3010.05 `EVAC_PAGES_LEFT`. -/
abbrev evacPagesLeft : Nat := okey 0x3010 5
/-- 3011.01 `SLOT_STATE`. -/
abbrev slotState (i : Nat) : Nat := okey 0x3011 (1 + i)
/-- 3012.01 `SLOT_PAGES`. -/
abbrev slotPages (i : Nat) : Nat := okey 0x3012 (1 + i)
/-- 3020.01 `LENT_STATE`. -/
abbrev lentState (n : Nat) : Nat := okey (0x3020 + n) 1
/-- 3020.02 `LENT_KIND`. -/
abbrev lentKind (n : Nat) : Nat := okey (0x3020 + n) 2
/-- 3020.03 `LENT_LENDER_NODE`. -/
abbrev lentLenderNode (n : Nat) : Nat := okey (0x3020 + n) 3
/-- 3020.04 `LENT_BUS_BASE`. -/
abbrev lentBusBase (n : Nat) : Nat := okey (0x3020 + n) 4
/-- 3020.05 `LENT_LENGTH`. -/
abbrev lentLength (n : Nat) : Nat := okey (0x3020 + n) 5
/-- 3020.06 `LENT_ACTION`. -/
abbrev lentAction (n : Nat) : Nat := okey (0x3020 + n) 6
/-- 3020.07 `LENT_USED_PAGES`. -/
abbrev lentUsedPages (n : Nat) : Nat := okey (0x3020 + n) 7
/-- 3020.08 `LENT_STATUS`. -/
abbrev lentStatus (n : Nat) : Nat := okey (0x3020 + n) 8
/-- 3100.01 `SESSION_STATE`. -/
abbrev sessionState (n : Nat) : Nat := okey (0x3100 + n) 1
/-- 3100.02 `SESSION_NEAR_LIMIT`. -/
abbrev sessionNearLimit (n : Nat) : Nat := okey (0x3100 + n) 2
/-- 3100.03 `SESSION_FAR_LIMIT`. -/
abbrev sessionFarLimit (n : Nat) : Nat := okey (0x3100 + n) 3
/-- 3100.04 `SESSION_NEAR_RESERVED`. -/
abbrev sessionNearReserved (n : Nat) : Nat := okey (0x3100 + n) 4
/-- 3100.05 `SESSION_FAR_RESERVED`. -/
abbrev sessionFarReserved (n : Nat) : Nat := okey (0x3100 + n) 5
/-- 3100.06 `SESSION_REGIONS`. -/
abbrev sessionRegions (n : Nat) : Nat := okey (0x3100 + n) 6
/-- 3100.07 `SESSION_ACTION`. -/
abbrev sessionAction (n : Nat) : Nat := okey (0x3100 + n) 7
/-- 3100.08 `SESSION_REASON`. -/
abbrev sessionReason (n : Nat) : Nat := okey (0x3100 + n) 8
/-- 3100.09 `SESSION_LABEL`. -/
abbrev sessionLabel (n : Nat) : Nat := okey (0x3100 + n) 9
/-- 3800.01 `NEAR_IDLE_TIMER`. -/
abbrev nearIdleTimer : Nat := okey 0x3800 1
/-- 3800.02 `NEAR_TRR_LOG2`. -/
abbrev nearTrrLog2 : Nat := okey 0x3800 2
/-- 3800.03 `NEAR_WQ_HIGH`. -/
abbrev nearWqHigh : Nat := okey 0x3800 3
/-- 3800.04 `NEAR_WQ_LOW`. -/
abbrev nearWqLow : Nat := okey 0x3800 4
/-- 3800.05 `NEAR_RECAL_INTERVAL`. -/
abbrev nearRecalInterval : Nat := okey 0x3800 5
/-- 3801.01 `FAR_IDLE_TIMER`. -/
abbrev farIdleTimer : Nat := okey 0x3801 1
/-- 3801.02 `FAR_RD_THRESHOLD`. -/
abbrev farRdThreshold : Nat := okey 0x3801 2
/-- 3801.03 `FAR_RD_RADIUS`. -/
abbrev farRdRadius : Nat := okey 0x3801 3
/-- 3801.04 `FAR_RFM_ENABLE`. -/
abbrev farRfmEnable : Nat := okey 0x3801 4
/-- 3801.05 `FAR_WQ_HIGH`. -/
abbrev farWqHigh : Nat := okey 0x3801 5
/-- 3801.06 `FAR_WQ_LOW`. -/
abbrev farWqLow : Nat := okey 0x3801 6
/-- 3801.07 `FAR_RECAL_INTERVAL`. -/
abbrev farRecalInterval : Nat := okey 0x3801 7
/-- 3801.08 `FAR_DRIFT_LIMIT`. -/
abbrev farDriftLimit : Nat := okey 0x3801 8
/-- 3801.09 `IDLE_SR_ENABLE`. -/
abbrev idleSrEnable : Nat := okey 0x3801 9
/-- 3801.0A `IDLE_SR_DELAY`. -/
abbrev idleSrDelay : Nat := okey 0x3801 10
/-- 3801.0B `DIMM_TEMP_POLL`. -/
abbrev dimmTempPoll : Nat := okey 0x3801 11
/-- 3810.01 `STACK_STATE`. -/
abbrev stackState (n : Nat) : Nat := okey (0x3810 + n) 1
/-- 3810.02 `STACK_TEMP`. -/
abbrev stackTemp (n : Nat) : Nat := okey (0x3810 + n) 2
/-- 3810.03 `STACK_REFRESH_FAST`. -/
abbrev stackRefreshFast (n : Nat) : Nat := okey (0x3810 + n) 3
/-- 3810.04 `STACK_ACTIVATES`. -/
abbrev stackActivates (n : Nat) : Nat := okey (0x3810 + n) 4
/-- 3810.05 `STACK_NEIGHBOUR_REFRESHES`. -/
abbrev stackNeighbourRefreshes (n : Nat) : Nat := okey (0x3810 + n) 5
/-- 3810.06 `STACK_FORWARDS`. -/
abbrev stackForwards (n : Nat) : Nat := okey (0x3810 + n) 6
/-- 3810.07 `STACK_RECALS`. -/
abbrev stackRecals (n : Nat) : Nat := okey (0x3810 + n) 7
/-- 3810.08 `STACK_EYE_MARGIN`. -/
abbrev stackEyeMargin (n : Nat) : Nat := okey (0x3810 + n) 8
/-- 3810.09 `STACK_SPLIT_WRITE`. -/
abbrev stackSplitWrite (n : Nat) : Nat := okey (0x3810 + n) 9
/-- 3810.0A `STACK_RECAL_NOW`. -/
abbrev stackRecalNow (n : Nat) : Nat := okey (0x3810 + n) 10
/-- 3900.01 `CH_STATE`. -/
abbrev chState (n : Nat) : Nat := okey (0x3900 + n * 8) 1
/-- 3900.02 `CH_REFRESH_FAST`. -/
abbrev chRefreshFast (n : Nat) : Nat := okey (0x3900 + n * 8) 2
/-- 3900.03 `CH_ACTIVATES`. -/
abbrev chActivates (n : Nat) : Nat := okey (0x3900 + n * 8) 3
/-- 3900.04 `CH_NEIGHBOUR_REFRESHES`. -/
abbrev chNeighbourRefreshes (n : Nat) : Nat := okey (0x3900 + n * 8) 4
/-- 3900.05 `CH_RFM_ISSUED`. -/
abbrev chRfmIssued (n : Nat) : Nat := okey (0x3900 + n * 8) 5
/-- 3900.06 `CH_RD_SATURATIONS`. -/
abbrev chRdSaturations (n : Nat) : Nat := okey (0x3900 + n * 8) 6
/-- 3900.07 `CH_FORWARDS`. -/
abbrev chForwards (n : Nat) : Nat := okey (0x3900 + n * 8) 7
/-- 3900.08 `CH_SR_ENTRIES`. -/
abbrev chSrEntries (n : Nat) : Nat := okey (0x3900 + n * 8) 8
/-- 3900.09 `CH_SR_ABORTS`. -/
abbrev chSrAborts (n : Nat) : Nat := okey (0x3900 + n * 8) 9
/-- 3900.0A `CH_SR_WAITS`. -/
abbrev chSrWaits (n : Nat) : Nat := okey (0x3900 + n * 8) 10
/-- 3900.0B `CH_RECALS`. -/
abbrev chRecals (n : Nat) : Nat := okey (0x3900 + n * 8) 11
/-- 3900.0C `CH_EYE_MARGIN`. -/
abbrev chEyeMargin (n : Nat) : Nat := okey (0x3900 + n * 8) 12
/-- 3901.01 `DIMM_DENSITY`. -/
abbrev dimmDensity (n : Nat) : Nat := okey (0x3901 + n * 8) 1
/-- 3901.02 `DIMM_RANKS`. -/
abbrev dimmRanks (n : Nat) : Nat := okey (0x3901 + n * 8) 2
/-- 3901.03 `DIMM_TEMP`. -/
abbrev dimmTemp (n : Nat) : Nat := okey (0x3901 + n * 8) 3
/-- 3901.04 `DIMM_PART`. -/
abbrev dimmPart (n : Nat) : Nat := okey (0x3901 + n * 8) 4
/-- 3901.05 `DIMM_SERIAL`. -/
abbrev dimmSerial (n : Nat) : Nat := okey (0x3901 + n * 8) 5
/-- 3901.06 `DIMM_RFM_REQUIRED`. -/
abbrev dimmRfmRequired (n : Nat) : Nat := okey (0x3901 + n * 8) 6
/-- 3903.01 `CH_SPLIT_WRITE`. -/
abbrev chSplitWrite (n : Nat) : Nat := okey (0x3903 + n * 8) 1
/-- 3903.02 `CH_RECAL_NOW`. -/
abbrev chRecalNow (n : Nat) : Nat := okey (0x3903 + n * 8) 2
/-- 4000.01 `REGION_STATE`. -/
abbrev regionState (n : Nat) : Nat := okey (0x4000 + n) 1
/-- 4000.02 `REGION_BASE`. -/
abbrev regionBase (n : Nat) : Nat := okey (0x4000 + n) 2
/-- 4000.03 `REGION_LENGTH`. -/
abbrev regionLength (n : Nat) : Nat := okey (0x4000 + n) 3
/-- 4000.04 `REGION_FORMAT`. -/
abbrev regionFormat (n : Nat) : Nat := okey (0x4000 + n) 4
/-- 4000.05 `REGION_TIER_POLICY`. -/
abbrev regionTierPolicy (n : Nat) : Nat := okey (0x4000 + n) 5
/-- 4000.06 `REGION_LENT_ALLOWED`. -/
abbrev regionLentAllowed (n : Nat) : Nat := okey (0x4000 + n) 6
/-- 4000.07 `REGION_COMPRESSION`. -/
abbrev regionCompression (n : Nat) : Nat := okey (0x4000 + n) 7
/-- 4000.08 `REGION_COHERENCE`. -/
abbrev regionCoherence (n : Nat) : Nat := okey (0x4000 + n) 8
/-- 4000.09 `REGION_DEFAULT_CLASS`. -/
abbrev regionDefaultClass (n : Nat) : Nat := okey (0x4000 + n) 9
/-- 4000.0A `REGION_REALM`. -/
abbrev regionRealm (n : Nat) : Nat := okey (0x4000 + n) 10
/-- 4000.0B `REGION_ECC_MODE`. -/
abbrev regionEccMode (n : Nat) : Nat := okey (0x4000 + n) 11
/-- 4000.0C `REGION_VIEW_A`. -/
abbrev regionViewA (n : Nat) : Nat := okey (0x4000 + n) 12
/-- 4000.0D `REGION_VIEW_B`. -/
abbrev regionViewB (n : Nat) : Nat := okey (0x4000 + n) 13
/-- 4000.0E `REGION_SESSION`. -/
abbrev regionSession (n : Nat) : Nat := okey (0x4000 + n) 14
/-- 4000.0F `REGION_ATOMICS`. -/
abbrev regionAtomics (n : Nat) : Nat := okey (0x4000 + n) 15
/-- 4000.10 `REGION_PORT_MASK`. -/
abbrev regionPortMask (n : Nat) : Nat := okey (0x4000 + n) 16
/-- 4000.11 `REGION_ACTION`. -/
abbrev regionAction (n : Nat) : Nat := okey (0x4000 + n) 17
/-- 4000.12 `REGION_REASON`. -/
abbrev regionReason (n : Nat) : Nat := okey (0x4000 + n) 18
/-- 4000.13 `REGION_CONFLICT_WITH`. -/
abbrev regionConflictWith (n : Nat) : Nat := okey (0x4000 + n) 19
/-- 4000.14 `REGION_MODE_LIVE`. -/
abbrev regionModeLive (n : Nat) : Nat := okey (0x4000 + n) 20
/-- 4000.15 `REGION_INGEST_BYTES`. -/
abbrev regionIngestBytes (n : Nat) : Nat := okey (0x4000 + n) 21
/-- 4000.16 `REGION_RESERVED_PAGES`. -/
abbrev regionReservedPages (n : Nat) : Nat := okey (0x4000 + n) 22
/-- 4000.17 `REGION_SEAL_RESULT`. -/
abbrev regionSealResult (n : Nat) : Nat := okey (0x4000 + n) 23
/-- 4000.18 `REGION_STORED_BYTES`. -/
abbrev regionStoredBytes (n : Nat) : Nat := okey (0x4000 + n) 24
/-- 5000.01 `DECODERS_AVAILABLE`. -/
abbrev decodersAvailable : Nat := okey 0x5000 1
/-- 5000.02 `ENCODERS_AVAILABLE`. -/
abbrev encodersAvailable : Nat := okey 0x5000 2
/-- 5000.03 `SLOTS_FREE`. -/
abbrev slotsFree : Nat := okey 0x5000 3
/-- 5000.04 `BLOCKS_CODED`. -/
abbrev blocksCoded : Nat := okey 0x5000 4
/-- 5000.05 `BLOCKS_RAW`. -/
abbrev blocksRaw : Nat := okey 0x5000 5
/-- 5000.06 `BLOCKS_ZERO`. -/
abbrev blocksZero : Nat := okey 0x5000 6
/-- 5000.07 `SLACK_MOVES`. -/
abbrev slackMoves : Nat := okey 0x5000 7
/-- 5000.08 `RELAYS`. -/
abbrev relays : Nat := okey 0x5000 8
/-- 5000.09 `DAMAGE_READS`. -/
abbrev damageReads : Nat := okey 0x5000 9
/-- 5000.0A `DAMAGE_LAST_CHECK`. -/
abbrev damageLastCheck : Nat := okey 0x5000 10
/-- 5000.0B `DAMAGE_LAST_OFFSET`. -/
abbrev damageLastOffset : Nat := okey 0x5000 11
/-- 5000.0C `SLOT_FALLBACKS`. -/
abbrev slotFallbacks : Nat := okey 0x5000 12
/-- 5001.01 `SLACK_GRANULES`. -/
abbrev slackGranules : Nat := okey 0x5001 1
/-- 5001.02 `ESCAPE_LOG2`. -/
abbrev escapeLog2 : Nat := okey 0x5001 2
/-- 5001.03 `SAMPLE_PAGES`. -/
abbrev samplePages : Nat := okey 0x5001 3
/-- 5001.04 `VIEW_OVERFLOW`. -/
abbrev viewOverflow : Nat := okey 0x5001 4
/-- 5001.05 `CODEC_FLIP_MASK`. -/
abbrev codecFlipMask : Nat := okey 0x5001 5
/-- 5002.01 `RETABLE_REGION`. -/
abbrev retableRegion : Nat := okey 0x5002 1
/-- 5002.02 `RETABLE_STATUS`. -/
abbrev retableStatus : Nat := okey 0x5002 2
/-- 5002.03 `RETABLE_SLOT`. -/
abbrev retableSlot : Nat := okey 0x5002 3
/-- 5003.01 `SLOT_LEVEL`. -/
abbrev slotLevel : Nat := okey 0x5003 1
/-- 5003.02 `SLOT_EVENT`. -/
abbrev slotEvent : Nat := okey 0x5003 2
/-- 5003.03 `SLOT_COUNT`. -/
abbrev slotCount : Nat := okey 0x5003 3
/-- 5003.04 `SLOT_PEAK`. -/
abbrev slotPeak : Nat := okey 0x5003 4
/-- 5003.05 `SLOT_MARK`. -/
abbrev slotMark : Nat := okey 0x5003 5
/-- 5003.06 `SLOT_HYSTERESIS`. -/
abbrev slotHysteresis : Nat := okey 0x5003 6
/-- 5003.07 `SLOT_ACK`. -/
abbrev slotAck : Nat := okey 0x5003 7
/-- 5004.01 `DEFAULT_SLOT`. -/
abbrev defaultSlot (i : Nat) : Nat := okey 0x5004 (1 + i)
/-- 5100.01 `SLOT_STATE`. -/
abbrev tabState (n : Nat) : Nat := okey (0x5100 + n) 1
/-- 5100.02 `SLOT_FORMAT`. -/
abbrev slotFormat (n : Nat) : Nat := okey (0x5100 + n) 2
/-- 5100.03 `SLOT_REGION`. -/
abbrev slotRegion (n : Nat) : Nat := okey (0x5100 + n) 3
/-- 5100.04 `SLOT_ENCODING`. -/
abbrev slotEncoding (n : Nat) : Nat := okey (0x5100 + n) 4
/-- 5100.05 `SLOT_BLOCKS`. -/
abbrev slotBlocks (n : Nat) : Nat := okey (0x5100 + n) 5
/-- 5100.06 `SLOT_TABLE`. -/
abbrev slotTable (n : Nat) : Nat := okey (0x5100 + n) 6
/-- 6000.01 `DIR_ENTRIES_CACHED`. -/
abbrev dirEntriesCached : Nat := okey 0x6000 1
/-- 6000.02 `DIR_RECORDS_USED`. -/
abbrev dirRecordsUsed : Nat := okey 0x6000 2
/-- 6000.03 `DIR_RECORDS_TOTAL`. -/
abbrev dirRecordsTotal : Nat := okey 0x6000 3
/-- 6000.04 `DIR_OWN_POD`. -/
abbrev dirOwnPod : Nat := okey 0x6000 4
/-- 6000.05 `DIR_LINES_FENCED`. -/
abbrev dirLinesFenced : Nat := okey 0x6000 5
/-- 6000.06 `DIR_BUCKETS_FENCED`. -/
abbrev dirBucketsFenced : Nat := okey 0x6000 6
/-- 6000.07 `DIR_PURGE_ACTIVE`. -/
abbrev dirPurgeActive : Nat := okey 0x6000 7
/-- 6000.08 `DIR_META_BAYS`. -/
abbrev dirMetaBays : Nat := okey 0x6000 8
/-- 6001.01 `SNOOP_TIMEOUT_L0`. -/
abbrev snoopTimeoutL0 : Nat := okey 0x6001 1
/-- 6001.02 `SNOOP_TIMEOUT_L1`. -/
abbrev snoopTimeoutL1 : Nat := okey 0x6001 2
/-- 6001.03 `SNOOP_TIMEOUT_L2`. -/
abbrev snoopTimeoutL2 : Nat := okey 0x6001 3
/-- 6001.04 `EP_GRANTS`. -/
abbrev epGrants : Nat := okey 0x6001 4
/-- 6002.01 `SNOOPS_NODE`. -/
abbrev snoopsNode : Nat := okey 0x6002 1
/-- 6002.02 `SNOOPS_GROUP`. -/
abbrev snoopsGroup : Nat := okey 0x6002 2
/-- 6002.03 `SNOOPS_POD`. -/
abbrev snoopsPod : Nat := okey 0x6002 3
/-- 6002.04 `BROADCASTS`. -/
abbrev broadcasts : Nat := okey 0x6002 4
/-- 6002.05 `SNOOP_TIMEOUTS`. -/
abbrev snoopTimeouts : Nat := okey 0x6002 5
/-- 6002.06 `LATE_SNOOP_ANSWERS`. -/
abbrev lateSnoopAnswers : Nat := okey 0x6002 6
/-- 6002.07 `WB_PENDING_WAITS`. -/
abbrev wbPendingWaits : Nat := okey 0x6002 7
/-- 6002.08 `STRAY_WRITEBACKS`. -/
abbrev strayWritebacks : Nat := okey 0x6002 8
/-- 6002.09 `LEVEL_RELEASES_IGNORED`. -/
abbrev levelReleasesIgnored : Nat := okey 0x6002 9
/-- 6002.0A `CACHE_MISSES`. -/
abbrev cacheMisses : Nat := okey 0x6002 10
/-- 6002.0B `BACK_INVALIDATIONS`. -/
abbrev backInvalidations : Nat := okey 0x6002 11
/-- 6002.0C `LOST_OWNER_LINES`. -/
abbrev lostOwnerLines : Nat := okey 0x6002 12
/-- 6002.0D `COPY_MISMATCHES_CORRECTED`. -/
abbrev copyMismatchesCorrected : Nat := okey 0x6002 13
/-- 6002.0E `BACKING_RECOVERIES`. -/
abbrev backingRecoveries : Nat := okey 0x6002 14
/-- 6002.0F `CENSUS_REBUILDS`. -/
abbrev censusRebuilds : Nat := okey 0x6002 15
/-- 6003.01 `GROUP_ROUTE`. -/
abbrev groupRoute (i : Nat) : Nat := okey 0x6003 (1 + i)
/-- 6004.01 `POD_ROUTE`. -/
abbrev podRoute (i : Nat) : Nat := okey 0x6004 (1 + i)
/-- 6005.01 `BACKING_LEVEL`. -/
abbrev backingLevel : Nat := okey 0x6005 1
/-- 6005.02 `BACKING_EVENT`. -/
abbrev backingEvent : Nat := okey 0x6005 2
/-- 6005.03 `BACKING_COUNT`. -/
abbrev backingCount : Nat := okey 0x6005 3
/-- 6005.04 `BACKING_PEAK`. -/
abbrev backingPeak : Nat := okey 0x6005 4
/-- 6005.05 `BACKING_MARK`. -/
abbrev backingMark : Nat := okey 0x6005 5
/-- 6005.06 `BACKING_HYSTERESIS`. -/
abbrev backingHysteresis : Nat := okey 0x6005 6
/-- 6005.07 `BACKING_ACK`. -/
abbrev backingAck : Nat := okey 0x6005 7
/-- 6006.01 `DIR_FLIP_MASK`. -/
abbrev dirFlipMask : Nat := okey 0x6006 1
/-- 6006.02 `DIR_SPLIT_WRITE`. -/
abbrev dirSplitWrite : Nat := okey 0x6006 2
/-- 6800.01 `FENCES`. -/
abbrev fences : Nat := okey 0x6800 1
/-- 6800.02 `ORDERED_REQUESTS`. -/
abbrev orderedRequests : Nat := okey 0x6800 2
/-- 6800.03 `ORDER_HOLD_MAX`. -/
abbrev orderHoldMax : Nat := okey 0x6800 3
/-- 6800.04 `ATOMICS`. -/
abbrev atomics : Nat := okey 0x6800 4
/-- 6800.05 `VEC_ACCUMS`. -/
abbrev vecAccums : Nat := okey 0x6800 5
/-- 6800.06 `ALU_POISON_REFUSALS`. -/
abbrev aluPoisonRefusals : Nat := okey 0x6800 6
/-- 6800.07 `SR_DRAWS`. -/
abbrev srDraws : Nat := okey 0x6800 7
/-- 6801.01 `SR_SEED_MODE`. -/
abbrev srSeedMode : Nat := okey 0x6801 1
/-- 6801.02 `SR_SEED`. -/
abbrev srSeed : Nat := okey 0x6801 2
/-- 6801.03 `SR_STATE`. -/
abbrev srState : Nat := okey 0x6801 3
/-- 6802.01 `ALU_FLIP_MASK`. -/
abbrev aluFlipMask : Nat := okey 0x6802 1
/-- 6900.01 `BOLLARDS`. -/
abbrev bollards : Nat := okey 0x6900 1
/-- 6900.02 `WAIT_ENTRIES_TOTAL`. -/
abbrev waitEntriesTotal : Nat := okey 0x6900 2
/-- 6900.03 `WAIT_ENTRIES_USED`. -/
abbrev waitEntriesUsed : Nat := okey 0x6900 3
/-- 6900.04 `BOLLARD_TIMEOUTS`. -/
abbrev bollardTimeouts : Nat := okey 0x6900 4
/-- 6900.05 `BOLLARD_CANCELS`. -/
abbrev bollardCancels : Nat := okey 0x6900 5
/-- 6900.06 `BOLLARD_RACE_ARRIVALS`. -/
abbrev bollardRaceArrivals : Nat := okey 0x6900 6
/-- 6900.07 `BOLLARD_RACE_CANCELS`. -/
abbrev bollardRaceCancels : Nat := okey 0x6900 7
/-- 6900.08 `BARRIER_MISMATCHES`. -/
abbrev barrierMismatches : Nat := okey 0x6900 8
/-- 6901.01 `BOLLARD_SELECT`. -/
abbrev bollardSelect : Nat := okey 0x6901 1
/-- 6901.02 `BOLLARD_VALUE`. -/
abbrev bollardValue : Nat := okey 0x6901 2
/-- 6901.03 `BOLLARD_WAITERS`. -/
abbrev bollardWaiters : Nat := okey 0x6901 3
/-- 6902.01 `WAITLIST_LEVEL`. -/
abbrev waitlistLevel : Nat := okey 0x6902 1
/-- 6902.02 `WAITLIST_EVENT`. -/
abbrev waitlistEvent : Nat := okey 0x6902 2
/-- 6902.03 `WAITLIST_COUNT`. -/
abbrev waitlistCount : Nat := okey 0x6902 3
/-- 6902.04 `WAITLIST_PEAK`. -/
abbrev waitlistPeak : Nat := okey 0x6902 4
/-- 6902.05 `WAITLIST_MARK`. -/
abbrev waitlistMark : Nat := okey 0x6902 5
/-- 6902.06 `WAITLIST_HYSTERESIS`. -/
abbrev waitlistHysteresis : Nat := okey 0x6902 6
/-- 6902.07 `WAITLIST_ACK`. -/
abbrev waitlistAck : Nat := okey 0x6902 7
/-- 6903.01 `BOLLARD_FLIP_MASK`. -/
abbrev bollardFlipMask : Nat := okey 0x6903 1
/-- 6910.01 `BOLLARD_GROUP_MASK`. -/
abbrev bollardGroupMask (n : Nat) : Nat := okey (0x6910 + n) 1
/-- 6910.02 `BOLLARD_GROUP_OPS`. -/
abbrev bollardGroupOps (n : Nat) : Nat := okey (0x6910 + n) 2
/-- 7000.01 `CLASS_MIN_BW`. -/
abbrev classMinBw (n i : Nat) : Nat := okey (0x7000 + n) (1 + i)
/-- 7000.11 `CLASS_MIN_BW_EP`. -/
abbrev classMinBwEp (n : Nat) : Nat := okey (0x7000 + n) 17
/-- 7000.12 `CLASS_SHARE`. -/
abbrev classShare (n : Nat) : Nat := okey (0x7000 + n) 18
/-- 7000.13 `CLASS_BURST`. -/
abbrev classBurst (n : Nat) : Nat := okey (0x7000 + n) 19
/-- 7000.14 `CLASS_SLOT_RESERVE`. -/
abbrev classSlotReserve (n : Nat) : Nat := okey (0x7000 + n) 20
/-- 7000.15 `CLASS_SLOT_LIMIT`. -/
abbrev classSlotLimit (n : Nat) : Nat := okey (0x7000 + n) 21
/-- 7000.16 `CLASS_WAY_SHARE`. -/
abbrev classWayShare (n : Nat) : Nat := okey (0x7000 + n) 22
/-- 7000.17 `CLASS_DEFAULT_DEADLINE`. -/
abbrev classDefaultDeadline (n : Nat) : Nat := okey (0x7000 + n) 23
/-- 7000.18 `CLASS_SLOTS_IN_USE`. -/
abbrev classSlotsInUse (n : Nat) : Nat := okey (0x7000 + n) 24
/-- 7000.19 `CLASS_GRANTED_BYTES`. -/
abbrev classGrantedBytes (n : Nat) : Nat := okey (0x7000 + n) 25
/-- 7000.1A `CLASS_DEADLINE_MISSES`. -/
abbrev classDeadlineMisses (n : Nat) : Nat := okey (0x7000 + n) 26
/-- 7040.01 `CLASS_ACTION`. -/
abbrev classAction : Nat := okey 0x7040 1
/-- 7040.02 `CLASS_REASON`. -/
abbrev classReason : Nat := okey 0x7040 2
/-- 7040.03 `CLASS_REASON_SOURCE`. -/
abbrev classReasonSource : Nat := okey 0x7040 3
/-- 7040.04 `CLASS_COMMITS`. -/
abbrev classCommits : Nat := okey 0x7040 4
/-- 7040.05 `CLASS_COMMIT_STATE`. -/
abbrev classCommitState : Nat := okey 0x7040 5
/-- 7040.06 `PORT_RATED`. -/
abbrev portRated : Nat := okey 0x7040 6
/-- 7040.07 `EP_RATED`. -/
abbrev epRated : Nat := okey 0x7040 7
/-- 7040.08 `WB_POOL`. -/
abbrev wbPool : Nat := okey 0x7040 8
/-- 7040.09 `CLASS_REASON_CLASS`. -/
abbrev classReasonClass : Nat := okey 0x7040 9
/-- 7041.01 `RATE_CAP_EFFECTIVE`. -/
abbrev rateCapEffective : Nat := okey 0x7041 1
/-- 7041.02 `THERMAL_CAP`. -/
abbrev thermalCap : Nat := okey 0x7041 2
/-- 7041.03 `OPERATOR_CAP`. -/
abbrev operatorCap : Nat := okey 0x7041 3
/-- 7042.01 `SLOT_USE_LEVEL`. -/
abbrev slotUseLevel : Nat := okey 0x7042 1
/-- 7042.02 `SLOT_USE_EVENT`. -/
abbrev slotUseEvent : Nat := okey 0x7042 2
/-- 7042.03 `SLOT_USE_COUNT`. -/
abbrev slotUseCount : Nat := okey 0x7042 3
/-- 7042.04 `SLOT_USE_PEAK`. -/
abbrev slotUsePeak : Nat := okey 0x7042 4
/-- 7042.05 `SLOT_USE_MARK`. -/
abbrev slotUseMark : Nat := okey 0x7042 5
/-- 7042.06 `SLOT_USE_HYSTERESIS`. -/
abbrev slotUseHysteresis : Nat := okey 0x7042 6
/-- 7042.07 `SLOT_USE_ACK`. -/
abbrev slotUseAck : Nat := okey 0x7042 7
/-- 7043.01 `PORT_RSP_HOLD`. -/
abbrev portRspHold : Nat := okey 0x7043 1
/-- 7043.02 `PORT_HALF_RATE`. -/
abbrev portHalfRate : Nat := okey 0x7043 2
/-- 8000.01 `CE_NEAR`. -/
abbrev ceNear : Nat := okey 0x8000 1
/-- 8000.02 `CE_FAR`. -/
abbrev ceFar : Nat := okey 0x8000 2
/-- 8000.03 `UE_NEAR`. -/
abbrev ueNear : Nat := okey 0x8000 3
/-- 8000.04 `UE_FAR`. -/
abbrev ueFar : Nat := okey 0x8000 4
/-- 8000.05 `TAG_MISMATCHES`. -/
abbrev tagMismatches : Nat := okey 0x8000 5
/-- 8000.06 `POISON_WRITTEN`. -/
abbrev poisonWritten : Nat := okey 0x8000 6
/-- 8000.07 `MIRROR_RECOVERIES`. -/
abbrev mirrorRecoveries : Nat := okey 0x8000 7
/-- 8000.08 `PARITY_FAULTS`. -/
abbrev parityFaults : Nat := okey 0x8000 8
/-- 8000.09 `MASKED_POISON_WRITES`. -/
abbrev maskedPoisonWrites : Nat := okey 0x8000 9
/-- 8000.0A `LENT_CHECK_FAILS`. -/
abbrev lentCheckFails : Nat := okey 0x8000 10
/-- 8000.0B `LAST_ERROR_KIND`. -/
abbrev lastErrorKind : Nat := okey 0x8000 11
/-- 8000.0C `LAST_ERROR_LOC`. -/
abbrev lastErrorLoc : Nat := okey 0x8000 12
/-- 8000.0D `LAST_ERROR_TIME`. -/
abbrev lastErrorTime : Nat := okey 0x8000 13
/-- 8000.0E `NEAR_FILL_STATE`. -/
abbrev nearFillState : Nat := okey 0x8000 14
/-- 8000.0F `FAR_INIT_PERMILLE`. -/
abbrev farInitPermille : Nat := okey 0x8000 15
/-- 8001.01 `SCRUB_PERIOD`. -/
abbrev scrubPeriod : Nat := okey 0x8001 1
/-- 8001.02 `SCRUB_DEADLINE`. -/
abbrev scrubDeadline : Nat := okey 0x8001 2
/-- 8001.03 `SCRUB_PASSES`. -/
abbrev scrubPasses : Nat := okey 0x8001 3
/-- 8001.04 `SCRUB_PROGRESS`. -/
abbrev scrubProgress : Nat := okey 0x8001 4
/-- 8001.05 `SCRUB_LAST_PASS_END`. -/
abbrev scrubLastPassEnd : Nat := okey 0x8001 5
/-- 8001.06 `SCRUB_BEHIND`. -/
abbrev scrubBehind : Nat := okey 0x8001 6
/-- 8002.01 `REMAP_CE_THRESHOLD`. -/
abbrev remapCeThreshold : Nat := okey 0x8002 1
/-- 8002.02 `REMAP_WINDOW`. -/
abbrev remapWindow : Nat := okey 0x8002 2
/-- 8002.03 `PPR_ENABLE`. -/
abbrev pprEnable : Nat := okey 0x8002 3
/-- 8002.04 `UE_FENCE_LIMIT`. -/
abbrev ueFenceLimit : Nat := okey 0x8002 4
/-- 8003.01 `REMAP_SELECT`. -/
abbrev remapSelect : Nat := okey 0x8003 1
/-- 8003.02 `REMAP_USED`. -/
abbrev remapUsed : Nat := okey 0x8003 2
/-- 8003.03 `REMAP_TABLE`. -/
abbrev remapTable : Nat := okey 0x8003 3
/-- 8003.04 `REMAPS_TOTAL`. -/
abbrev remapsTotal : Nat := okey 0x8003 4
/-- 8003.05 `REPAIRS_TOTAL`. -/
abbrev repairsTotal : Nat := okey 0x8003 5
/-- 8004.01 `ECC_FLIP_MASK`. -/
abbrev eccFlipMask : Nat := okey 0x8004 1
/-- 8004.02 `PARITY_FLIP_PATH`. -/
abbrev parityFlipPath : Nat := okey 0x8004 2
/-- 8100.01 `REALM_STATE`. -/
abbrev realmState (n : Nat) : Nat := okey (0x8100 + n) 1
/-- 8100.02 `REALM_MASK`. -/
abbrev realmMask (n : Nat) : Nat := okey (0x8100 + n) 2
/-- 8100.03 `REALM_ACTION`. -/
abbrev realmAction (n : Nat) : Nat := okey (0x8100 + n) 3
/-- 8100.04 `REALM_STATUS`. -/
abbrev realmStatus (n : Nat) : Nat := okey (0x8100 + n) 4
/-- 8100.05 `REALM_REGIONS`. -/
abbrev realmRegions (n : Nat) : Nat := okey (0x8100 + n) 5
/-- 8100.06 `REALM_KEY_GENERATION`. -/
abbrev realmKeyGeneration (n : Nat) : Nat := okey (0x8100 + n) 6
/-- 9000.01 `SAFETY_LEVEL`. -/
abbrev safetyLevel : Nat := okey 0x9000 1
/-- 9000.02 `SAFE_CAUSE`. -/
abbrev safeCause : Nat := okey 0x9000 2
/-- 9000.03 `LAST_SAFETY_EVENT`. -/
abbrev lastSafetyEvent : Nat := okey 0x9000 3
/-- 9000.04 `LAST_SAFETY_CLASS`. -/
abbrev lastSafetyClass : Nat := okey 0x9000 4
/-- 9000.05 `LAST_SAFETY_TIME`. -/
abbrev lastSafetyTime : Nat := okey 0x9000 5
/-- 9000.06 `ALERT_PENDING`. -/
abbrev alertPending : Nat := okey 0x9000 6
/-- 9000.07 `SAFETY_ACK`. -/
abbrev safetyAck : Nat := okey 0x9000 7
/-- 9000.08 `REPORT_DELAY_MAX`. -/
abbrev reportDelayMax : Nat := okey 0x9000 8
/-- 9001.01 `CLASS_EVENTS`. -/
abbrev classEvents (i : Nat) : Nat := okey 0x9001 (1 + i)
/-- 9002.01 `SELFTEST_PERIOD`. -/
abbrev selftestPeriod : Nat := okey 0x9002 1
/-- 9002.02 `SELFTEST_ROUNDS`. -/
abbrev selftestRounds : Nat := okey 0x9002 2
/-- 9002.03 `SELFTEST_FAILS`. -/
abbrev selftestFails : Nat := okey 0x9002 3
/-- 9002.04 `SELFTEST_LAST_FAIL`. -/
abbrev selftestLastFail : Nat := okey 0x9002 4
/-- 9002.05 `SELFTEST_AGE_MAX`. -/
abbrev selftestAgeMax : Nat := okey 0x9002 5
/-- 9003.01 `FENCED_PORTS`. -/
abbrev fencedPorts : Nat := okey 0x9003 1
/-- 9003.02 `FENCED_STACKS`. -/
abbrev fencedStacks : Nat := okey 0x9003 2
/-- 9003.03 `FENCED_CHANNELS`. -/
abbrev fencedChannels : Nat := okey 0x9003 3
/-- 9003.04 `FENCED_SLOTS`. -/
abbrev fencedSlots : Nat := okey 0x9003 4
/-- 9003.05 `FENCED_FUNCTIONS`. -/
abbrev fencedFunctions : Nat := okey 0x9003 5
/-- 9003.06 `FAULTED_STRIPES`. -/
abbrev faultedStripes : Nat := okey 0x9003 6
/-- 9004.01 `ALERT_TEST`. -/
abbrev alertTest : Nat := okey 0x9004 1
/-- 9004.02 `FORCE_SAFE`. -/
abbrev forceSafe : Nat := okey 0x9004 2
/-- A000.01 `PKG_POWER_1MS`. -/
abbrev pkgPower1ms : Nat := okey 0xA000 1
/-- A000.02 `PKG_POWER_1S`. -/
abbrev pkgPower1s : Nat := okey 0xA000 2
/-- A000.03 `RAIL_FAULTS`. -/
abbrev railFaults : Nat := okey 0xA000 3
/-- A000.04 `LAST_RAIL_FAULT`. -/
abbrev lastRailFault : Nat := okey 0xA000 4
/-- A000.05 `START_TO_SERVICE`. -/
abbrev startToService : Nat := okey 0xA000 5
/-- A001.01 `RAIL_MV`. -/
abbrev railMv (i : Nat) : Nat := okey 0xA001 (1 + i)
/-- A002.01 `TJ_SENSOR`. -/
abbrev tjSensor (i : Nat) : Nat := okey 0xA002 (1 + i)
/-- A003.01 `TJ_LEVEL`. -/
abbrev tjLevel : Nat := okey 0xA003 1
/-- A003.02 `TJ_EVENT`. -/
abbrev tjEvent : Nat := okey 0xA003 2
/-- A003.03 `TJ_COUNT`. -/
abbrev tjCount : Nat := okey 0xA003 3
/-- A003.04 `TJ_PEAK`. -/
abbrev tjPeak : Nat := okey 0xA003 4
/-- A003.05 `TJ_MARK`. -/
abbrev tjMark : Nat := okey 0xA003 5
/-- A003.06 `TJ_HYSTERESIS`. -/
abbrev tjHysteresis : Nat := okey 0xA003 6
/-- A003.07 `TJ_ACK`. -/
abbrev tjAck : Nat := okey 0xA003 7
/-- A004.01 `TJ_THROTTLE`. -/
abbrev tjThrottle : Nat := okey 0xA004 1
/-- A004.02 `TJ_TRIP`. -/
abbrev tjTrip : Nat := okey 0xA004 2
/-- A004.03 `TJ_THERMTRIP`. -/
abbrev tjThermtrip : Nat := okey 0xA004 3
/-- A004.04 `THERMAL_TRIPS`. -/
abbrev thermalTrips : Nat := okey 0xA004 4
/-- A005.01 `REFCLK_PPM`. -/
abbrev refclkPpm : Nat := okey 0xA005 1
/-- A005.02 `CLOCK_RESETS`. -/
abbrev clockResets : Nat := okey 0xA005 2
/-- A006.01 `DEVICE_RESET`. -/
abbrev deviceReset : Nat := okey 0xA006 1
/-- A006.02 `MEMHOLD_STATE`. -/
abbrev memholdState : Nat := okey 0xA006 2
/-- A006.03 `HOLD_ENTRIES`. -/
abbrev holdEntries : Nat := okey 0xA006 3
/-- A006.04 `PIN_CHATTER_ACK`. -/
abbrev pinChatterAck : Nat := okey 0xA006 4
/-- A006.05 `TAMPER_ACTION`. -/
abbrev tamperAction : Nat := okey 0xA006 5
/-- A006.06 `HOLD_ENTRY_MAX`. -/
abbrev holdEntryMax : Nat := okey 0xA006 6
/-- B000.01 `CORE_STATE`. -/
abbrev coreState (i : Nat) : Nat := okey 0xB000 (1 + i)
/-- B000.05 `CORE_RESTARTS`. -/
abbrev coreRestarts (i : Nat) : Nat := okey 0xB000 (5 + i)
/-- B000.09 `CORE_LAST_CAUSE`. -/
abbrev coreLastCause (i : Nat) : Nat := okey 0xB000 (9 + i)
/-- B001.01 `WDOG_TIMEOUT`. -/
abbrev wdogTimeout (i : Nat) : Nat := okey 0xB001 (1 + i)
/-- B001.05 `CORE_RESTART`. -/
abbrev coreRestart : Nat := okey 0xB001 5
/-- B002.01 `RING_STATE`. -/
abbrev ringState : Nat := okey 0xB002 1
/-- B002.02 `RING_BASE_IN_FORCE`. -/
abbrev ringBaseInForce : Nat := okey 0xB002 2
/-- B002.03 `RING_REFUSE_REASON`. -/
abbrev ringRefuseReason : Nat := okey 0xB002 3
/-- B002.04 `RING_COMMIT_REASON`. -/
abbrev ringCommitReason : Nat := okey 0xB002 4
/-- B002.05 `RING_AGREED_LO`. -/
abbrev ringAgreedLo : Nat := okey 0xB002 5
/-- B002.06 `RING_AGREED_HI`. -/
abbrev ringAgreedHi : Nat := okey 0xB002 6
/-- B002.07 `DEVICE_FEATURES_LO`. -/
abbrev deviceFeaturesLo : Nat := okey 0xB002 7
/-- B002.08 `DEVICE_FEATURES_HI`. -/
abbrev deviceFeaturesHi : Nat := okey 0xB002 8
/-- B002.09 `DEVICE_MANDATORY_LO`. -/
abbrev deviceMandatoryLo : Nat := okey 0xB002 9
/-- B003.01 `COMMANDS`. -/
abbrev commands : Nat := okey 0xB003 1
/-- B003.02 `EVENTS_WRITTEN`. -/
abbrev eventsWritten : Nat := okey 0xB003 2
/-- B003.03 `EVENTS_DROPPED`. -/
abbrev eventsDropped : Nat := okey 0xB003 3
/-- B003.04 `LOG_WRITTEN`. -/
abbrev logWritten : Nat := okey 0xB003 4
/-- B003.05 `LOG_DROPPED`. -/
abbrev logDropped : Nat := okey 0xB003 5
/-- B003.06 `SHADOW_WRITES`. -/
abbrev shadowWrites : Nat := okey 0xB003 6
/-- B004.01 `LOOP_CAP`. -/
abbrev loopCap : Nat := okey 0xB004 1
/-- B004.02 `LOOP_TJ_MAX`. -/
abbrev loopTjMax : Nat := okey 0xB004 2
/-- B004.03 `LOOP_POWER_1S`. -/
abbrev loopPower1s : Nat := okey 0xB004 3
/-- B004.04 `LOOP_POWER_1MS`. -/
abbrev loopPower1ms : Nat := okey 0xB004 4
/-- B004.05 `AON_FALLBACKS`. -/
abbrev aonFallbacks : Nat := okey 0xB004 5
/-- B005.01 `BACKUP_LOG`. -/
abbrev backupLog : Nat := okey 0xB005 1
/-- B005.02 `BACKUP_LOG_SEQ`. -/
abbrev backupLogSeq : Nat := okey 0xB005 2
/-- B005.03 `BACKUP_LOG_CLEAR`. -/
abbrev backupLogClear : Nat := okey 0xB005 3
/-- B006.01 `LOCKSTEP_INJECT`. -/
abbrev lockstepInject : Nat := okey 0xB006 1
/-- B800.01 `UPD_STATE`. -/
abbrev updState : Nat := okey 0xB800 1
/-- B800.02 `UPD_CONTAINER_ID`. -/
abbrev updContainerId : Nat := okey 0xB800 2
/-- B800.03 `UPD_BLOCK_NEXT`. -/
abbrev updBlockNext : Nat := okey 0xB800 3
/-- B800.04 `UPD_BLOCK_COUNT`. -/
abbrev updBlockCount : Nat := okey 0xB800 4
/-- B800.05 `UPD_LAST_STATUS`. -/
abbrev updLastStatus : Nat := okey 0xB800 5
/-- B800.06 `UPD_REASON`. -/
abbrev updReason : Nat := okey 0xB800 6
/-- B800.07 `UPD_VERIFY_RESULT`. -/
abbrev updVerifyResult : Nat := okey 0xB800 7
/-- B800.08 `UPD_TARGET_VERSION`. -/
abbrev updTargetVersion : Nat := okey 0xB800 8
/-- B800.09 `UPD_TARGET_DIGEST`. -/
abbrev updTargetDigest : Nat := okey 0xB800 9
/-- B800.0A `UPD_TRIAL_RUNS`. -/
abbrev updTrialRuns : Nat := okey 0xB800 10
/-- B800.0B `UPD_TRIAL_LEFT`. -/
abbrev updTrialLeft : Nat := okey 0xB800 11
/-- B800.0C `UPD_BLOCKERS`. -/
abbrev updBlockers : Nat := okey 0xB800 12
/-- B801.01 `UPD_ACTION`. -/
abbrev updAction : Nat := okey 0xB801 1
/-- B801.02 `UPD_HEADER`. -/
abbrev updHeader : Nat := okey 0xB801 2
/-- B801.03 `UPD_BLOCK`. -/
abbrev updBlock : Nat := okey 0xB801 3
/-- B802.01 `RELAY_ROLE`. -/
abbrev relayRole : Nat := okey 0xB802 1
/-- B802.02 `RELAY_PREV`. -/
abbrev relayPrev : Nat := okey 0xB802 2
/-- B802.03 `RELAY_NEXT`. -/
abbrev relayNext : Nat := okey 0xB802 3
/-- B802.04 `RELAY_ACK_TIMEOUT`. -/
abbrev relayAckTimeout : Nat := okey 0xB802 4
/-- B802.05 `RELAY_NEXT_BLOCK`. -/
abbrev relayNextBlock : Nat := okey 0xB802 5
/-- B802.06 `RELAY_FORWARDED`. -/
abbrev relayForwarded : Nat := okey 0xB802 6
/-- B802.07 `RELAY_RESENDS`. -/
abbrev relayResends : Nat := okey 0xB802 7
/-- B803.01 `ROOT_SLOT_STATE`. -/
abbrev rootSlotState : Nat := okey 0xB803 1
/-- B803.02 `BANK_STATE`. -/
abbrev bankState : Nat := okey 0xB803 2
/-- B803.03 `BANK0_VERSION`. -/
abbrev bank0Version : Nat := okey 0xB803 3
/-- B803.04 `BANK1_VERSION`. -/
abbrev bank1Version : Nat := okey 0xB803 4
/-- B803.05 `ROOT_SLOT_REVOKE`. -/
abbrev rootSlotRevoke : Nat := okey 0xB803 5
/-- B803.06 `PKE_VERIFICATIONS`. -/
abbrev pkeVerifications : Nat := okey 0xB803 6
/-- B804.01 `ACTIVATIONS`. -/
abbrev activations : Nat := okey 0xB804 1
/-- B804.02 `ROLLBACKS`. -/
abbrev rollbacks : Nat := okey 0xB804 2
/-- B804.03 `CONFIRMS`. -/
abbrev confirms : Nat := okey 0xB804 3
/-- B804.04 `BLOCKS_DAMAGED`. -/
abbrev blocksDamaged : Nat := okey 0xB804 4
/-- C000.01 `CNT_ENABLE`. -/
abbrev cntEnable (n : Nat) : Nat := okey (0xC000 + n) 1
/-- C000.02 `CNT_VALUE`. -/
abbrev cntValue (n : Nat) : Nat := okey (0xC000 + n) 2
/-- C000.03 `CNT_FILTER`. -/
abbrev cntFilter (n : Nat) : Nat := okey (0xC000 + n) 3
/-- C000.04 `CNT_SELECT`. -/
abbrev cntSelect (n : Nat) : Nat := okey (0xC000 + n) 4
/-- C000.05 `CNT_SNAP`. -/
abbrev cntSnap (n : Nat) : Nat := okey (0xC000 + n) 5
/-- C000.06 `CNT_CLEAR`. -/
abbrev cntClear (n : Nat) : Nat := okey (0xC000 + n) 6
/-- C800.01 `CNT_SNAPSHOT`. -/
abbrev cntSnapshot : Nat := okey 0xC800 1
/-- C800.02 `CNT_SNAPSHOT_TIME`. -/
abbrev cntSnapshotTime : Nat := okey 0xC800 2
/-- C800.03 `CNT_ENABLED`. -/
abbrev cntEnabled : Nat := okey 0xC800 3
/-- C800.04 `CNT_CLEAR_ALL`. -/
abbrev cntClearAll : Nat := okey 0xC800 4
/-- C800.05 `CNT_DROPS`. -/
abbrev cntDrops : Nat := okey 0xC800 5
/-- C801.01 `TP_CONTROL`. -/
abbrev tpControl (i : Nat) : Nat := okey 0xC801 (1 + i)
/-- C802.01 `TRACE_MODE`. -/
abbrev traceMode : Nat := okey 0xC802 1
/-- C802.02 `TRACE_FILTER`. -/
abbrev traceFilter : Nat := okey 0xC802 2
/-- C802.03 `TRACE_ADDR_LO`. -/
abbrev traceAddrLo : Nat := okey 0xC802 3
/-- C802.04 `TRACE_ADDR_HI`. -/
abbrev traceAddrHi : Nat := okey 0xC802 4
/-- C802.05 `TRACE_READ`. -/
abbrev traceRead : Nat := okey 0xC802 5
/-- C802.06 `TRACE_FILL`. -/
abbrev traceFill : Nat := okey 0xC802 6
/-- C802.07 `TRACE_DROPS`. -/
abbrev traceDrops : Nat := okey 0xC802 7
/-- C802.08 `TRACE_SEQ`. -/
abbrev traceSeq : Nat := okey 0xC802 8
/-- C803.01 `STREAM_ENABLE`. -/
abbrev streamEnable : Nat := okey 0xC803 1
/-- C803.02 `STREAM_BASE`. -/
abbrev streamBase : Nat := okey 0xC803 2
/-- C803.03 `STREAM_SIZE`. -/
abbrev streamSize : Nat := okey 0xC803 3
/-- C803.04 `STREAM_TAIL`. -/
abbrev streamTail : Nat := okey 0xC803 4
/-- C803.05 `STREAM_HEAD`. -/
abbrev streamHead : Nat := okey 0xC803 5
/-- C803.06 `STREAM_RATE_CAP`. -/
abbrev streamRateCap : Nat := okey 0xC803 6
/-- D000.01 `RTC_TIME`. -/
abbrev rtcTime : Nat := okey 0xD000 1
/-- D000.02 `RTC_VALID`. -/
abbrev rtcValid : Nat := okey 0xD000 2
/-- D000.03 `VBAT_MV`. -/
abbrev vbatMv : Nat := okey 0xD000 3
/-- D000.04 `VBAT_LOW_MV`. -/
abbrev vbatLowMv : Nat := okey 0xD000 4
/-- D000.05 `TAMPER_STATE`. -/
abbrev tamperState : Nat := okey 0xD000 5
/-- D000.06 `BACKUP_ALARMS`. -/
abbrev backupAlarms : Nat := okey 0xD000 6
/-- D000.07 `BACKUP_ALARM_ACK`. -/
abbrev backupAlarmAck : Nat := okey 0xD000 7
/-- D000.08 `BACKUP_TEMP_LIMIT`. -/
abbrev backupTempLimit : Nat := okey 0xD000 8
/-- D000.09 `RTC_TRIM`. -/
abbrev rtcTrim : Nat := okey 0xD000 9

end Obj

end Sys2Proof.Machine
end

