-- ==== Sys2Proof/Config.lean ====
section
/-! DEFINITION. What a particular part fixes and what the manual leaves open. Each constant here is opaque: no proof can
see its value, so a claim holds whatever it is. -/

namespace Sys2Proof.Config

/-- The i-th draw from the on-die entropy source, or any value that the manual leaves open (log 3). -/
opaque fresh : Nat → BitVec 64

/-- A byte of data that the manual leaves open: what a miscorrected code word decrypts to (log 5). -/
opaque garbledByte : Nat → Byte

/-- Values fused into the part (R2, Table 14-11): the serial number, the PCI-SIG vendor number and the MAC address. -/
opaque serialNumber : BitVec 64
opaque vendorId : BitVec 16
opaque macAddress : BitVec 48

/-- The root public keys of the four slots (R694): the two coordinates of a P-384 point, 48 bytes each. -/
opaque rootKey : Fin 4 → List Byte

/-- Which root-key slots are provisioned at manufacture (R694). -/
opaque rootProvisioned : Fin 4 → Bool

/-- The code lengths of the factory default table of a format (R176): symbol 0 onward, then the escape. -/
opaque factoryLengths : Nat → List Nat

/-- The image that bank 0 holds when the part is delivered (Table 15-1). -/
opaque factoryImage : List Byte

/-- SEVERITY and TEXT of a log entry by its event code (Table 13-8), which the manual leaves open. -/
opaque logSeverity : Nat → BitVec 3
opaque logText : Nat → List Byte

/-- The feature word that the device offers a partner in the PARAM exchange (R71). -/
opaque linkFeatures : BitVec 64

/-- The refresh-management threshold RAAIMT that a DIMM declares, by its slot (R464). -/
opaque raaimt : Nat → Nat

/-- The device's own estimate of the fill time that remains, in µs, by the time (R741). -/
opaque timeToService : Nat → BitVec 32

/-- What a RETURN finds at a slot, where the command that starts it does not say: the DIMM, and whether it powers and trains. -/
opaque foundDimm : Nat → Option Spd × Bool × Bool

/-- A reading of a sensor of the board that the manual leaves open: rail voltages and the reference clock's offset, by object and time. -/
opaque reading : Nat → Nat → BitVec 32

end Sys2Proof.Config
end

