-- ==== Sys2Proof/Machine/DataTypes.lean ====
section
/-! DEFINITION. The parts of the state that belong to the data path: link ports, requests, directory, Bollards, Tide
engine, DRAM, codec, regions and Breakwater. Plain data only. -/

namespace Sys2Proof.Machine

/-- Completion status (Table 00-4). -/
inductive Status where
  | ok | retryLater | poison | capacity | denied | unmapped | cancelled | timeout | lost | damaged | modeConflict | unsupported
  deriving DecidableEq, Repr

/-- The code of a status (Table 00-4). -/
def Status.code : Status → Nat
  | .ok => 0 | .retryLater => 1 | .poison => 2 | .capacity => 3 | .denied => 4 | .unmapped => 5 | .cancelled => 6
  | .timeout => 7 | .lost => 8 | .damaged => 9 | .modeConflict => 10 | .unsupported => 11

/-- Device states (Table 00-6). -/
inductive DevState where
  | off | backup | reset | boot | init | service | degraded | hold | safe
  deriving DecidableEq, Repr

/-- The code that 1200.01 shows (Table 00-6 in order). -/
def DevState.code : DevState → Nat
  | .off => 0 | .backup => 1 | .reset => 2 | .boot => 3 | .init => 4 | .service => 5 | .degraded => 6 | .hold => 7 | .safe => 8

/-! ## Link ports (chapter 02) -/

/-- 2000.01 `PORT_STATE`. -/
inductive PortState where
  | down | training | up | recovering | fenced | disabled
  deriving DecidableEq, Repr

/-- The code that 2000.01 shows. -/
def PortState.code : PortState → Nat
  | .down => 0 | .training => 1 | .up => 2 | .recovering => 3 | .fenced => 4 | .disabled => 5

/-- Virtual channels (R58). -/
inductive VC where
  | req | rsp | snp | mgmt
  deriving DecidableEq, Repr

/-- The VC field's code (R58, Table 02-3). -/
def VC.code : VC → Nat
  | .req => 0 | .rsp => 1 | .snp => 2 | .mgmt => 3

/-- A count of message units for each virtual channel. -/
structure Credits where
  req  : Nat
  rsp  : Nat
  snp  : Nat
  mgmt : Nat
  deriving DecidableEq, Repr

/-- A message that waits to start at a port. `tag` is the requester tag it completes; `line` the line a completion grants
or a snoop names (R318); `slot` the class of the request slot it still holds, and whether that is a writeback pool slot. -/
structure Msg where
  vc     : VC
  units  : List U64
  tag    : Option (BitVec 12)
  line   : Option Nat
  report : Bool
  slot   : Option (Nat × Bool)
  deriving DecidableEq, Repr

/-- A PAYLOAD flit held in the retry buffer (R56, R88): the messages whose last unit it holds, and the cycle in which it was first
sent. -/
structure SentFlit where
  seq   : BitVec 10
  cvc   : BitVec 2
  ccnt  : BitVec 8
  units : List U64
  ends  : List Msg
  sent  : Nat
  deriving DecidableEq, Repr

/-- The requester tag that a message completes; a snoop's tag is the device's own. -/
def Msg.done (m : Msg) : Option (BitVec 12) := if m.vc == .snp then none else m.tag

/-- The requester tags whose completions end in a flit. -/
def SentFlit.tags (f : SentFlit) : List (BitVec 12) := f.ends.filterMap Msg.done

/-- The CONTROL messages (chapter 02, CTYPE 0x01–0x08). -/
inductive Ctl where
  | replayReq (seq : BitVec 10)
  | degradeReq (half : Half) (at_ : BitVec 12)
  | degradeAck (at_ : BitVec 12)
  | upshiftReq (at_ : BitVec 12)
  | upshiftAck (at_ : BitVec 12)
  | param (width : Nat) (adv : Credits) (node : BitVec 18) (features : U64)
  | resume (valid : Bool) (seq : BitVec 10)
  | resetNotice
  deriving DecidableEq, Repr

/-- Why a port is FENCED (R80, R102). -/
inductive PortFence where
  | none | training | checker
  deriving DecidableEq, Repr

/-- A link port. `retry` holds the oldest flit first; `rxHeld` counts the units received whose credits are not yet
returned; `owedRet` the REQ units that left it in INIT or HOLD and are returned at R82's rate; `switchAt` names the codeword of a width change and the half it leaves in use (none: 16 lanes); `stalled` says that
the next message waits for credits or for the retry buffer. `newCredit` are the credits returned in the cycle `creditAt` − 1, which
count from the next cycle (R74); `sinceIdle` counts the flits sent since the last IDLE flit (R47); `replayAt` is one above the last
cycle that decided a rung 1 replay and `replayN` how many it decided (R86); `soakBad` is one above the last cycle in which an
idle lane was not clean (R90). -/
structure Port where
  state       : PortState
  width       : Nat
  half        : Half
  node        : BitVec 18
  features    : U64
  relay       : Bool
  adv         : Credits
  rxLast      : BitVec 10
  txNext      : BitVec 10
  retry       : List SentFlit
  credit      : Credits
  pendRet     : Credits
  rrVc        : Nat
  rxHeld      : Credits
  rxPart      : List U64
  ready       : List Msg
  sinceMgmt   : Nat
  replayWait  : Bool
  replayFails : Nat
  replayLane  : Option Nat
  ctrl        : List Ctl
  switchAt    : Option (BitVec 12 × Option Half)
  degrading   : Bool
  lowClean    : Bool
  highClean   : Bool
  soakBad     : Nat
  laneFault   : BitVec 16
  inReset     : Bool
  forceFresh  : Bool
  resetAt     : Nat
  degradeAt   : Nat
  was         : Nat × Bool
  attempts    : Nat
  fence       : PortFence
  cancelled   : List (BitVec 12)
  lost        : List (BitVec 12)
  pending     : List (BitVec 12)
  rspHold     : Bool
  stalled     : Bool
  inject      : Nat
  halfRate    : Bool
  withheld    : Nat
  owedRet     : Nat
  discarded   : Nat
  newCredit   : Credits
  creditAt    : Nat
  sinceIdle   : Nat
  replayAt    : Nat
  replayN     : Nat
  deriving DecidableEq, Repr

/-! ## Requests (chapters 01, 07, 08) -/

/-- The Bollard operations (Table 07-5). -/
inductive BolOp where
  | add | signal | reset | waitGe | arrive | cancel
  deriving DecidableEq, Repr

/-- What a request asks, with its payload (Table 02-6). -/
inductive ReqOp where
  | read | readExcl | readOnce | readHalf
  | write (d : List Byte)
  | writeMasked (m : BitVec 64) (d : List Byte)
  | writeback (d : List Byte)
  | releaseClean
  | fence
  | add (a : U64)
  | cas (c s : U64)
  | fadd (a : U64)
  | bfadd (a : U64)
  | vec (d : List Byte)
  | bol (k : BolOp) (a : U64)
  deriving DecidableEq, Repr

/-- Where a request came from, and so where its completion goes. -/
inductive Via where
  | link
  | tlp (id part : Nat)
  | door (d : Fin 56)
  | internal
  deriving DecidableEq, Repr

/-- Whose requests are kept in order (R355). -/
inductive Origin where
  | node (n : BitVec 18)
  | ep
  deriving DecidableEq, Repr

/-- A storage granule's content: 64 bytes, or poison. -/
structure Gran where
  bytes  : List Byte
  poison : Bool
  deriving DecidableEq, Repr

/-- A mode set (Table 03-2) with the range it covers. -/
structure Mode where
  region  : Nat
  format  : Nat
  tier    : Nat
  lent    : Bool
  comp    : Nat
  coh     : Nat
  mirror  : Bool
  viewA   : Nat
  viewB   : Nat
  atom    : Bool
  cls     : Nat
  realm   : Nat
  session : Nat
  mask    : BitVec 17
  base    : Nat
  len     : Nat
  ingest  : Nat
  ro      : Bool
  deriving DecidableEq, Repr

/-- What a request waits for. -/
inductive Stage where
  | waiting    -- ungranted, in its port's receive buffer or in the endpoint's queue
  | line       -- step 5 found the line BUSY (R315)
  | snoop      -- its own transaction waits for snoop answers
  | tide       -- step 6: a placement, a draining page, a copy-on-write or a far bay
  | h7         -- the line store: an entry, a fetch or a writeback in progress (R42)
  | h8         -- a landing cache install or eviction (R197, R202)
  | mem        -- DRAM or lent accesses
  | bollard    -- a wait entry
  | fence      -- a FENCE that waits for what it orders (R365)
  | acked      -- its effect is accepted; it waits for its invalidations (R34)
  deriving DecidableEq, Repr

/-- A request that the device holds. `bad` marks the halves of its data that carry poison; `held` says that R363 or R366 has
held it; `stamp` is the 24-bit deadline of R423; `gseq` its place in grant order; `need` the granules it still reads and
`got` those it has; `writes` the writes of it that no write queue has accepted yet; `grant` the copy its completion grants;
`accepted` says that its write is accepted; `inv` that a transaction of its own is open; `wbFor` that a transaction waits for
it (R323); `snap` the native granules that it took from H7 or H8 (R39, R801). An internal request writes data home for the device
itself. -/
structure Req where
  id       : Nat
  via      : Via
  hdr      : Hdr
  op       : ReqOp
  bad      : Nat
  origin   : Origin
  arrived  : Nat
  held     : Bool
  stage    : Stage
  cls      : Nat
  ddl      : Nat
  stamp    : Nat
  overdue  : Bool
  pool     : Bool
  gseq     : Nat
  mode     : Option Mode
  line     : Nat
  page     : Nat
  need     : List Nat
  got      : List (Nat × Gran)
  writes   : Nat
  grant    : Nat
  accepted : Bool
  inv      : Bool
  wbFor    : Bool
  snap     : List (Nat × Gran)
  asked    : List Nat
  tweaks   : List (Nat × Nat)
  deriving DecidableEq, Repr

/-- What a DRAM access is for. -/
inductive Purpose where
  | read       -- a request's read, or the fetch of an atomic's line or of a masked write's granule
  | mirror     -- the read of copy B in place of copy A (R499)
  | write      -- a request's write, or data written home
  | cond (since : Nat)  -- a conditional write-back (R510); `since` is the number of its read
  deriving DecidableEq, Repr

/-- A granule to be written: its place (tier × 2^38 + LOC), its content, its V0 (R489) and the tweak that it is encrypted under
(R204). -/
structure GW where
  key   : Nat
  gran  : Gran
  v0    : Nat
  tweak : Nat
  deriving DecidableEq, Repr

/-- A request at a DRAM queue: waiting for admission, in the read queue or in the write queue (R425, R443). `entered` numbers its
admission; `since` is the time of its arrival. -/
structure Acc where
  id      : Nat
  write   : Bool
  owner   : Option Nat
  purpose : Purpose
  line    : Nat
  gseq    : Nat
  stamp   : Nat
  overdue : Bool
  cls     : Nat
  keys    : List Nat
  got     : List (Nat × Gran)
  wr      : List GW
  entered : Nat
  since   : Nat
  deriving DecidableEq, Repr

/-- A line of the H7 line store (R38–R42): its halves, the value of the LRU clock at its last use, whether it is still being
read, whether its writeback has begun and by which internal request, whether a parity fault was planted in it (R399), the mode
set it was read under, and the atomic for which it is written back (R41, R42). -/
structure StoreLine where
  lo      : Gran
  hi      : Gran
  used    : Nat
  filling : Bool
  leaving : Bool
  wb      : Nat
  badPar  : Bool
  mode    : Mode
  heir    : Option Nat
  deriving DecidableEq, Repr

/-- A landing cache block (R36, R197–R202). -/
inductive BlockSt where
  | installing | present | evicting
  deriving DecidableEq, Repr

/-- A decoded 4 KiB block in H8: its 64 granules. `due` says that its eviction waits: 1 for the re-lay that it needs, 2 for a job that
runs on its page (R198, R202). -/
structure Block where
  st    : BlockSt
  grans : List Gran
  dirty : Bool
  mode  : Mode
  used  : Nat
  due   : Nat
  deriving DecidableEq, Repr

/-- A waiter of a Bollard (R392), oldest first. `n` is a barrier's participant count; `ready` numbers the cycle in which it
became ready and `readyAt` is its time; `val` is the counter then. -/
structure Waiter where
  req    : Nat
  bol    : Nat
  target : U64
  n      : Option Nat
  src    : Src
  origin : Origin
  tag    : BitVec 12
  queued : Nat
  limit  : Option Nat
  ready  : Option Nat
  readyAt : Nat
  val    : U64
  deriving DecidableEq, Repr

/-! ## Directory (chapter 06) -/

/-- Stable line states (Table 06-3). -/
inductive LineSt where
  | uncached | shared | exclusive | home
  deriving DecidableEq, Repr

/-- A directory entry's content (Table 06-4) without TAG, BUSY, PEND, WB_WAIT and CHK, and the value of the LRU clock at
its last use; `cached` is false while the entry lies in the backing store only. -/
structure DEntry where
  st       : LineSt
  owner    : BitVec 18
  ownLocal : Bool
  l0       : BitVec 17
  l1       : BitVec 64
  l2       : List (BitVec 6)
  bcast    : Bool
  cls      : Nat
  cached   : Bool
  used     : Nat
  deriving DecidableEq, Repr

/-- Who runs a transaction on a line. -/
inductive TxnFor where
  | req (id : Nat)
  | job (page : Nat)
  | seal (region : Nat)
  | retire (region : Nat)
  | mask (region : Nat)
  | clone
  | evict
  deriving DecidableEq, Repr

/-- A transaction on a line: BUSY, PEND and WB_WAIT of its entry, the content it installs, the requests that wait, and how many
snoops were sent. -/
structure Txn where
  who    : TxnFor
  pend   : Nat
  wbWait : Bool
  wbGot  : Bool
  next   : DEntry
  wait   : List Nat
  sent   : Nat
  deriving DecidableEq, Repr

/-- Snoop opcodes. -/
inductive SnpOp where
  | inv | read | recall
  deriving DecidableEq, Repr

/-- A snoop that awaits its answer. `level` is 0, 1 or 2; `dest` the node, group or pod, with its SCOPE; `waitWb` says that it
is answered and waits for the WRITEBACK (R323, R325). -/
structure Snoop where
  master : Src
  tag    : BitVec 12
  line   : Nat
  op     : SnpOp
  level  : Nat
  dest   : BitVec 18
  scope  : BitVec 2
  waitWb : Bool
  deriving DecidableEq, Repr

/-- A running purge and the lines it has changed (R332). -/
structure Purge where
  who   : Holder
  lines : Nat
  reply : Option (Who × BitVec 8)
  deriving DecidableEq, Repr

/-! ## Tide engine (chapter 05) -/

/-- Page states (Table 05-4). -/
inductive PState where
  | unwritten | resident | copying | draining | shared | faulted
  deriving DecidableEq, Repr

/-- One copy of a page (Table 05-2): TIER 0 none, 1 near, 2 far, 3 lent; LOC of Table 05-3. -/
structure Copy where
  tier   : Nat
  loc    : Nat
  cont   : Nat
  len    : Nat
  comp   : Bool
  vdelta : Nat
  deriving DecidableEq, Repr

/-- ROLE_B (Table 05-2). -/
inductive RoleB where
  | none | mirror | lower
  deriving DecidableEq, Repr

/-- A tide map entry (Table 05-2). `bad` says that its CHECK fails (R228); `share` is the record of a SHARED page; `under` is one above
the page number that its extents are encrypted under where that is another page's (R272, R274), else 0; `flooded` says that a flood
raised through it has completed and no ebb since (R276). -/
structure TEntry where
  a       : Copy
  b       : Copy
  role    : RoleB
  pstate  : PState
  version : BitVec 32
  acc     : Nat
  epoch   : Nat
  lastWr  : Nat
  share   : Nat
  bad     : Bool
  under   : Nat
  flooded : Bool
  deriving DecidableEq, Repr

/-- A copy that a switch left behind, with its page; `twin` says that it is the second of a mirrored pair (R243). -/
structure Left where
  page : Nat
  copy : Copy
  twin : Bool
  deriving DecidableEq, Repr

/-- A share record (R272). `near` lists the sharers through which a flood has completed; `down` says that the last near hold has ended
and the ebb that follows is still to be made (R277, R278). -/
structure Share where
  a       : Copy
  b       : Copy
  role    : RoleB
  version : BitVec 32
  refs    : Nat
  near    : List Nat
  page    : Nat
  pstate  : PState
  down    : Bool
  deriving DecidableEq, Repr

/-- Job kinds in the order of R263's priorities. -/
inductive JobKind where
  | evac | cow | capEbb | relay | seal | lent | flood
  deriving DecidableEq, Repr

/-- Where a job stands. -/
inductive JobPhase where
  | queued | copying | draining
  deriving DecidableEq, Repr

/-- A block as it has been coded for its place (R239): KIND, slot and granules; `fresh` until it is stored. -/
structure JobBlk where
  blk   : Nat
  kind  : Nat
  slot  : Nat
  grans : List Gran
  fresh : Bool
  deriving DecidableEq, Repr

/-- A migration job (R235–R244). `dirty` lists the blocks that the next pass copies, `rescan` the lines that were BUSY when the
scan reached them (R336); `started` is the time of dispatch or of DRAINING; `moveB` says that an evacuation moves copy B. `todo` lists
the blocks that the present pass has still to copy, `out` counts the requests that the first of them has been granted (R422), `first`
says that it is the first pass, `blks` holds what has been coded; `also` lists the sharers whose hints have merged with it, `held` says
whether the record was held near when it was queued (R278); `bay` is one above the bay that an evacuation moves as a whole (R287), else
0, and `push` says that a page leaves its die to make room there; `ver` is the VERSION of its destination (R229). -/
structure Job where
  id     : Nat
  page   : Nat
  kind   : JobKind
  phase  : JobPhase
  dstA   : Copy
  dstB   : Copy
  dirty  : List Nat
  passes : Nat
  rescan : List Nat
  started : Nat
  moveB  : Bool
  todo   : List Nat
  out    : Nat
  first  : Bool
  blks   : List JobBlk
  also   : List Nat
  held   : Bool
  bay    : Nat
  push   : Bool
  ver    : BitVec 32
  deriving DecidableEq, Repr

/-- 3011 `SLOT_STATE` of a far-tier slot. -/
inductive SlotSt where
  | empty | inService | evacuating | evacuated | off | training | filling | fenced
  deriving DecidableEq, Repr

/-- A far-tier slot: its DIMM, its fill and its temperature record; `hot` says that its readings ask for the fast refresh rate (R456),
which three failed polls ask for as well (R481). -/
structure FarSlot where
  st      : SlotSt
  spd     : Option Spd
  filled  : Nat
  own     : Bool
  temp    : Int
  fails   : Nat
  fast    : Bool
  hot     : Bool
  deriving DecidableEq, Repr

/-- A lent range's state, its reads and the run of timeouts (R280–R284). -/
structure LentRange where
  active : Bool
  failed : Bool
  draining : Bool
  base   : Nat
  len    : Nat
  run    : Nat
  reply  : Option Who
  deriving DecidableEq, Repr

/-- Where a lent read stands: formed, waiting for its translation, issued (R588), or issued with its completion timed out (R591). -/
inductive LentSt where
  | formed | translating | issued | expired
  deriving DecidableEq, Repr

/-- A read outstanding at a lender. -/
structure LentRead where
  id    : Nat
  range : Nat
  req   : Nat
  keys  : List Nat
  st    : LentSt
  deriving DecidableEq, Repr

/-- A clone that is being installed (R268–R271). -/
structure Clone where
  src  : Nat
  dst  : Nat
  left : Nat
  who  : Who
  deriving DecidableEq, Repr

/-! ## DRAM (chapters 09, 10) -/

/-- A far row-disturb table entry (R460). -/
structure RdEnt where
  row  : Nat
  est  : Nat
  base : Nat
  deriving DecidableEq, Repr

/-- STATE of a remap entry (Table 10-5); a soft repair and its copy-back are one step, so that no entry is seen repairing. -/
inductive RemapSt where
  | free | installing | remapped
  deriving DecidableEq, Repr

/-- A remap entry: a row by its number (see `rowOf`). -/
structure Remap where
  st  : RemapSt
  row : Nat
  deriving DecidableEq, Repr

/-- Self-refresh of a far channel (R465–R470). -/
inductive SrSt where
  | no | idle | held | exiting
  deriving DecidableEq, Repr

/-- A row that is remapped or was repaired, as flash keeps it: its channel, the DIMM's serial number (0 for a stack), the row and
whether it was repaired (R518). -/
structure StoredRow where
  chan     : Nat
  serial   : BitVec 32
  row      : Nat
  repaired : Bool
  deriving DecidableEq, Repr

/-- One DRAM channel: a near pseudo-channel (0–255) or a far channel (256–279). `nbr` lists the rows of a bank that are refreshed before
its next activate (R458, R460); `admAt` and `issAt` are one above the last 1 GHz cycle of an admission and of an issue (R425,
R446). -/
structure ChanSt where
  wait     : List Acc
  rq       : List Acc
  wq       : List Acc
  flight   : List Acc
  draining : Bool
  openRow  : List (Nat × Nat)
  owed     : Nat
  recal    : Bool
  recalDue : Bool
  recFails : Nat
  lfsr     : BitVec 32
  rd       : List (Nat × List RdEnt)
  satDone  : Bool
  raa      : List (Nat × Nat)
  remap    : List (Nat × Remap)
  ceRows   : List (Nat × Nat × Nat)
  sr       : SrSt
  ceAt     : Option Nat
  lastWr   : List (Nat × Nat)
  use      : Nat × Nat × Nat
  nbr      : List (Nat × List Nat)
  admAt    : Nat
  issAt    : Nat
  deriving DecidableEq, Repr

/-- State of a stack or far channel as a unit (3810.01, 3900.01). -/
inductive UnitSt where
  | empty | training | inService | fenced
  deriving DecidableEq, Repr

/-- Training and error history of a stack or far channel, with its temperature. -/
structure DUnitSt where
  st       : UnitSt
  attempts : Nat
  ueTimes  : List (Nat × Nat)
  fast     : Bool
  temp     : Int
  deriving DecidableEq, Repr

/-- What a stored granule holds besides its bytes: the poison mark, the V0 it was encoded with, errors of its stored symbols
(R486–R491) and the tweak it was encrypted under (R204): the bytes themselves are kept as they read under that tweak (log 61). -/
structure GMeta where
  poison : Bool
  v0     : Nat
  errs   : List SymErr
  tweak  : Nat
  deriving DecidableEq, Repr

/-! ## Codec (chapter 04) -/

/-- 5100.01 `SLOT_STATE`: never used, default, allocated (in use), reserved, free. -/
inductive TabSt where
  | never | dflt | inUse | reserved | free
  deriving DecidableEq, Repr

/-- A code table slot (R174, Table 04-13): `lens` holds LEN[s] and then ESC_LEN. -/
structure TabSlot where
  st     : TabSt
  format : Nat
  region : Nat
  enc    : Bool
  lens   : List Nat
  deriving DecidableEq, Repr

/-- An index granule's entry (Table 04-3). KIND: 0 CODED, 1 RAW, 2 ZERO. -/
structure IdxEnt where
  off  : Nat
  len  : Nat
  kind : Nat
  slot : Nat
  deriving DecidableEq, Repr

/-! ## Regions and sessions (chapter 03) -/

/-- Region states (Table 03-1). -/
inductive RegState where
  | free | open | sealing | sealed | retiring
  deriving DecidableEq, Repr

/-- The code of a region state. -/
def RegState.code : RegState → Nat
  | .free => 0 | .open => 1 | .sealing => 2 | .sealed => 3 | .retiring => 4

/-- An action whose installation is in progress (R122). -/
inductive RegAct where
  | none | commit | seal | retire
  deriving DecidableEq, Repr

/-- A region: its state, the mode set in force, the action in progress with its reply, the pages it reserves and its
sealing. `was` is what was in force before the last installation, with one above its cycle (R125), and
`encWas` its encode slot before the last change, with one above that cycle (R179). -/
structure Region where
  st     : RegState
  mode   : Mode
  act    : RegAct
  who    : Option Who
  staged : Mode
  pages  : Nat
  near   : Bool
  slot   : Nat
  tables : List Nat
  packed : List Nat
  tails  : FMap Nat
  was    : Nat × RegState × Mode
  encWas : Nat × Nat
  deriving DecidableEq, Repr

/-- A session: whether it is OPEN, and its limits in force (R146–R150). -/
structure Session where
  isOpen : Bool
  near   : Nat
  far    : Nat
  deriving DecidableEq, Repr

/-! ## Breakwater (chapter 08) -/

/-- The class values in force (Table 08-5): MIN for the 16 ports and the endpoint. -/
structure ClassVals where
  min     : List Nat
  share   : Nat
  burst   : Nat
  reserve : Nat
  limit   : Nat
  way     : Nat
  ddl     : Nat
  deriving DecidableEq, Repr

/-- Breakwater's state: the classes in force that differ from the defaults, the tokens of each master in 1/40,000 byte, the
cap bucket in the same unit, and the arbitration's pointers and deficits. `filled` is one above the last cycle whose fill took
place, and `ranAt` one above the last cycle in which H2 arbitrated. `mig` and `evac` are the buckets of `MIG_RATE_CAP` and `EVAC_RATE`, and
`jobAt` the job that source 17 was granted for last (R422). `capNow` is the effective cap in force in this cycle (R435), and `held` the
slots that were in use at its start (R415). -/
structure Water where
  cls      : List (Nat × ClassVals)
  tokens   : List (Nat × Int)
  cap      : Int
  start    : List Nat
  rr       : List (Nat × Nat)
  deficit  : List (Nat × Int)
  capNow   : Nat
  filled   : Nat
  ranAt    : Nat
  mig      : Int
  evac     : Int
  jobAt    : Nat
  held     : List (Nat × Bool)
  deriving DecidableEq, Repr

/-! ## The data path -/

/-- Completion kinds (Table 02-7). -/
inductive CKind where
  | done | dataLine | dataHalf | dataWord | dictReply
  deriving DecidableEq, Repr

/-- What a completion says besides its tag: status, kind, grant, POISON_HALF, ARG and its data. -/
structure Cpl where
  status : Status
  kind   : CKind
  grant  : Nat
  half   : Nat
  arg    : Nat
  data   : List Byte
  deriving DecidableEq, Repr

/-- The slack placements of one page's blocks in one cycle: the page, one above the cycle, its index entries before them, and the blocks
with their KIND, slot and granules (R199). -/
structure SlackRun where
  page  : Nat
  cycle : Nat
  es    : List IdxEnt
  puts  : List JobBlk
  deriving DecidableEq, Repr

/-- Requests and the hub's stores. `work` lists the requests that continue, with the step they continue from; `epDone` the
completions on their way to the endpoint. Both are empty between steps. `heirs` lists the atomics whose victim has left the line
store and that take the entry it freed (R42). `disp` is one above the last cycle in which waiters were dispatched (R394). -/
structure DataPath where
  reqs     : List Req
  store    : FMap StoreLine
  blocks   : FMap Block
  bols     : FMap U64
  bolBad   : List Nat
  bolPar   : List Nat
  waiters  : List Waiter
  sr       : BitVec 64
  gseq     : Nat
  useClock : Nat
  work     : List (Nat × Nat)
  epDone   : List (Via × Cpl)
  heirs    : List Nat
  slack    : SlackRun
  disp     : Nat
  deriving DecidableEq, Repr

/-- The directory. `swept` lists the broadcast lines whose holders behind the ports that a recommit removes are invalidated (R126);
`epLost` is one above the last cycle in which the endpoint was lost as a holder (R328, R329). -/
structure Dir where
  ents     : FMap DEntry
  badA     : FMap (BitVec 192)
  badB     : FMap (BitVec 192)
  txns     : FMap Txn
  snoops   : List Snoop
  late     : List (Src × BitVec 12)
  nextTag  : List (Nat × Nat)
  fenced   : List Nat
  buckets  : List Nat
  purges   : List Purge
  sweep    : Nat
  censusBad : List Nat
  swept    : List Nat
  epLost   : Nat
  deriving DecidableEq, Repr

/-- The Tide engine. `mapCache` lists the pages whose map entry lies in the tide map cache and `idxCache` the index granules in the
index cache, each the least recently used first (Table 01-4); `idxStore` is the index store: the index granules of compressed
extents outside the near tier, by the key of the extent's granule 0 (R220). `cloned` is the source page of the clone's last installation, with one above its cycle
(R271). -/
structure Tide where
  map      : FMap TEntry
  placing  : List Nat
  leaving  : List Left
  shares   : FMap Share
  bays     : FMap Nat
  jobs     : List Job
  sweepAt  : Nat
  ebbing   : Bool
  fewCands : Nat
  ovlRun   : Nat
  dropped  : Bool
  clone    : Option Clone
  lents    : FMap LentRange
  lentRds  : List LentRead
  lentGone : List (Nat × Nat)
  slots    : FMap FarSlot
  mapCache : List Nat
  idxCache : List Nat
  idxStore : FMap Gran
  cloned   : Nat × Nat
  deriving DecidableEq, Repr

/-- The DRAM controllers and what DRAM holds; `decOut` and `encOut` list the decoders and encoders that are out of use. -/
structure Dram where
  chans   : FMap ChanSt
  units   : FMap DUnitSt
  mem     : FMap Byte
  gmeta   : FMap GMeta
  farDone : Bool
  scrub   : FMap Nat
  keyBad  : List (Nat × Nat)
  decOut  : List Nat
  encOut  : List Nat
  deriving DecidableEq, Repr

/-- Regions, sessions, codec slots, Breakwater and realms: `realms` says which are ENABLED, and `keys` holds the data key and the tweak
key of each (R524), which every key store and the hub hold as well. `leftOpen` says that the region of a running retable has left OPEN (R185). `h3` holds the region and session actions that wait behind a commit, with
who wrote them, their object and the action (R123). -/
structure Ctl3 where
  regions  : FMap Region
  sessions : FMap Session
  tabs     : FMap TabSlot
  retable  : Option (Nat × Who)
  leftOpen : Bool
  h3       : List (Who × Nat × Nat)
  water    : Water
  realms   : FMap Nat
  keys     : FMap (BitVec 256 × BitVec 256)
  deriving DecidableEq, Repr

end Sys2Proof.Machine
end

