-- ==== Sys2Proof/Machine/MgmtTypes.lean ====
section
/-! DEFINITION. The parts of the state that belong to the host endpoint, the management complex, the dictionary, the update, power
and observation (chapters 12–17). Plain data only. -/

namespace Sys2Proof.Machine

/-- A Bollard door (Table 12-6): OPERAND, BUSY, the IRQ bit and the status code and RESULT of its last completion. -/
structure Door where
  operand : U64
  busy    : Bool
  irq     : Bool
  stat    : Nat
  result  : U64
  deriving DecidableEq, Repr

/-- What a TLP asks (Table 12-3). -/
inductive TlpKind where
  | read | write | atomic | fence
  deriving DecidableEq, Repr

/-- A line request of a TLP: its pool address, the first byte of its line or half that the TLP covers and how many, and its
completion once it has one. -/
structure TlpPart where
  addr : Nat
  lo   : Nat
  n    : Nat
  done : Option Cpl
  deriving DecidableEq, Repr

/-- A TLP whose line requests are in flight: `id` is the host's number, `next` the first part that is not yet returned, `ended`
says that a failing line has ended it or that it receives no completion (R574, R595). -/
structure TlpSt where
  serial : Nat
  id     : Nat
  kind   : TlpKind
  ro     : Bool
  parts  : List TlpPart
  next   : Nat
  ended  : Bool
  deriving DecidableEq, Repr

/-- Invalidation in progress (R590): the start, and the lent reads that used a removed entry. -/
structure Inval where
  since : Nat
  reads : List Nat
  deriving DecidableEq, Repr

/-- The host endpoint: readiness, configuration fields, D-state, function-level reset, doors, TLPs in flight, the snoop queue,
interrupts, the translation cache and invalidations, the BAR0 registers that hold what is written, and GENERATION of
the device description table. `intxSet` is one above the last cycle in which causes set bits of INTX_CAUSE, with the bits (R585); `atcWas` is
one above the cycle of the last Invalidate Request, with the entries before it (R590). -/
structure Ep where
  ready     : Bool
  linkUp    : Bool
  perst     : Bool
  flr       : Bool
  dState    : Nat
  busMaster : Bool
  memEnable : Bool
  intDis    : Bool
  msixEn    : Bool
  atsEn     : Bool
  pmeEn     : Bool
  timeoutUs : Nat
  rcb128    : Bool
  wake      : Bool
  doors     : FMap Door
  tlps      : List TlpSt
  sq        : FMap Nat
  sqIn      : List (BitVec 12)
  sqTail    : Nat
  sqHead    : Nat
  intxCause : U64
  intxSet   : Nat × U64
  atc       : List Nat
  atcWas    : Nat × List Nat
  inval     : List Inval
  ringBase  : U64
  shadow    : U64
  msix      : FMap U64
  descGen   : Nat
  deriving DecidableEq, Repr

/-! ## Dictionary (chapter 14) -/

/-- A reply that is sent later: who asked, and the object that was written (R659). -/
structure Owed where
  who : Who
  key : Nat
  deriving DecidableEq, Repr

/-- A dictionary session (R673–R679): its path (1 T1S, 2 window), number, authority, NONCE, whether it is active, the time of its
last request, the REQ_ID performed last and the reply to it, and both as they were before that request (R12). -/
structure DSess where
  path   : Nat
  num    : BitVec 32
  auth   : Nat
  nonce  : List Byte
  active : Bool
  since  : Nat
  last   : Option (BitVec 16)
  reply  : List Byte
  prev   : Option (BitVec 16) × List Byte
  deriving DecidableEq, Repr

/-- A value that is being assembled from segments (R662). -/
structure Asm where
  path  : Nat
  num   : BitVec 32
  key   : Nat
  bytes : List Byte
  deriving DecidableEq, Repr

/-- The dictionary server: sessions, assemblies, failed PROVEs in a row and lockouts by path × 4 + authority (R676), the window's
BUSY, count and buffer, and the change records that are not yet complete in flash (R651). -/
structure Dict where
  sess    : List DSess
  asm     : List Asm
  fails   : FMap Nat
  locked  : List Nat
  winBusy : Bool
  winDone : Nat
  winBuf  : List Byte
  saving  : FMap (List Byte)
  deriving DecidableEq, Repr

/-! ## Host rings and logs (chapter 13) -/

/-- A doorbell write that waits for earlier write TLPs (R620). -/
inductive Bell where
  | enable
  | offer
  | disable
  | cmdTail (v : Nat)
  | head (r : HeadReg) (v : Nat)
  deriving DecidableEq, Repr

/-- The rings: RING_STATUS, AGREED, the bound base, the indices, the command that is being executed, waiting doorbells, and
whether the shadow is due (Table 13-5). -/
structure Ring where
  st      : Nat
  side    : Nat
  reason  : Nat
  bit     : Nat
  agreed  : BitVec 128
  base    : Nat
  cmdTail : Nat
  cmdHead : Nat
  cplTail : Nat
  cplHead : Nat
  evtTail : Nat
  evtHead : Nat
  logTail : Nat
  logHead : Nat
  busy    : Option (BitVec 32 × CmdEntry)
  bells   : List (List Nat × Bell)
  shadow  : Bool
  deriving DecidableEq, Repr

/-- A log entry that waits to be written (Table 13-8); CORE is 4 for hardware. -/
structure LogE where
  time : Nat
  code : Nat
  core : Nat
  seq  : Nat
  deriving DecidableEq, Repr

/-! ## Update (chapter 15) -/

/-- An update record (Table 15-4). KIND: 1 PROGRESS, 2 PREPARED, 3 COMMITTED, 4 CONFIRMED, 5 ROLLED_BACK; PRIOR_BANK 255: none. -/
structure URec where
  seq      : Nat
  kind     : Nat
  target   : Nat
  prior    : Nat
  runs     : Nat
  next     : Nat
  deadline : Nat
  tdigest  : List Byte
  pdigest  : List Byte
  header   : List Byte
  deriving DecidableEq, Repr

/-- An image bank: its state (0 EMPTY, 1 VALID, 2 DAMAGED, 3 WRITING), what it holds, and whether that is the image that the
part was delivered with, whose default code tables are the factory ones (R176). -/
structure Bank where
  st      : Nat
  bytes   : List Byte
  factory : Bool
  deriving DecidableEq, Repr

/-- What the external flash and the fuses hold: the configuration journal, by object, and whether it is discarded at the next
start (R654); the image banks; the update records; the revoked root slots; the remapped and repaired
rows (R518). -/
structure Flash where
  journal : FMap (List Byte)
  wipe    : Bool
  bank0   : Bank
  bank1   : Bank
  recs    : List URec
  revoked : List Nat
  rows    : List StoredRow
  deriving DecidableEq, Repr

/-- The update in progress: the reply it owes, the container header, the block that is being written, the blocks kept for the
relay, whether the COMMITTED record of an activation is complete, the cause and the time of a rollback, and the slots named in
`DEFAULT_SLOT` before the activation (R717). -/
structure Upd where
  owed      : Option Owed
  header    : List Byte
  block     : Option (List Byte)
  blocks    : FMap (List Byte)
  committed : Bool
  cause     : Nat
  since     : Nat
  slots     : List Nat
  deriving DecidableEq, Repr

/-- The relay (R704–R706): the fragments of the block that is being received, the blocks sent and not acknowledged, resends in a
row by block, whether it is paused, and the block sent next. -/
structure Relay where
  blk    : Nat
  frags  : FMap (List Byte)
  sent   : List Nat
  resend : FMap Nat
  paused : Bool
  next   : Nat
  began  : Bool
  deriving DecidableEq, Repr

/-! ## Power (chapter 16) -/

/-- Where a HOLD stands (Table 16-7). -/
inductive HoldSt where
  | none | entering | held | exiting
  deriving DecidableEq, Repr

/-- Power and pins: the kind of the reset under way (0: PWRGOOD has not risen), whether main power and VBAT are there, whether
the ROM recovery server serves (R605), the pins' filtered levels and their changes in the last second, a command reset that is
due, the HOLD and its start, THERMTRIP_N, the trial clock and whether it was lost (R719), the straps, a start that TAMPER_N holds
at the end of BOOT (R749), the causes of backup alarms that hold now (R751), and the AON cycles in which a HOLD (R744) and a TAMPER reset
(R748) follow; 0 is none. -/
structure Power where
  kind    : Nat
  main    : Bool
  vbat    : Bool
  boot    : Bool
  hold    : Bool
  tamper  : Bool
  holdAt  : Nat
  holdChg : List Nat
  tampChg : List Nat
  due     : Bool
  phase   : HoldSt
  thermtrip : Bool
  trialBase : Nat
  trialLost : Bool
  straps    : BitVec 3
  held      : Option BootView
  causes    : Nat
  holdDue   : Nat
  tampDue   : Nat
  deriving DecidableEq, Repr

/-! ## Tidegauge (chapter 17) -/

/-- A trace record (Table 17-3). -/
structure TRec where
  time  : Nat
  point : Nat
  src   : Nat
  cls   : Nat
  stat  : Nat
  drop  : Bool
  tag   : Nat
  addr  : Nat
  arg   : Nat
  seq   : Nat
  deriving DecidableEq, Repr

/-- Tidegauge: the enabled counters, the points' generators, the unread records oldest first, whether a record was dropped
since the last one written, whether a full buffer has stopped (R774), the staging queue and how many records were offered to it in
this cycle, and the records whose offer waits for a later cycle (R773), all oldest first. -/
structure Gauge where
  on    : List Nat
  lfsr  : FMap (BitVec 16)
  recs  : List TRec
  drop  : Bool
  stopped : Bool
  staged  : List TRec
  offered : Nat
  late    : List TRec
  adds    : FMap Nat
  deriving DecidableEq, Repr

/-- The management complex: dictionary, rings, logs, core restarts by core and time (R613), the AON cycle after each core's last
kick (R608), the one after the last thermal fallback (R636), the power readings of the last second (R632), update, relay, power,
observation, and the mismatches to come in cores with the cycles that they follow (R641). -/
structure Mgmt where
  dict     : Dict
  ring     : Ring
  logq     : List LogE
  logSeq   : Nat
  restarts : List (Nat × Nat)
  kicks    : FMap Nat
  fallback : Nat
  watts    : List Nat
  upd      : Upd
  relay    : Relay
  power    : Power
  gauge    : Gauge
  inject   : List (Nat × Nat)
  deriving DecidableEq, Repr

end Sys2Proof.Machine
end

