-- ==== Sys2Proof/Machine/State.lean ====
section
/-! DEFINITION. The state of the P9 as plain data, the reasons a step can stop, and the state right after a device reset. -/

namespace Sys2Proof.Machine

/-- An error that the endpoint reports through Advanced Error Reporting (R577, Table 12-5). -/
inductive AerError where
  | unsupportedRequest | completerAbort | poisonedTlp
  deriving DecidableEq, Repr

/-- What the device sends or shows to the outside, in order: the model's record of its outputs (log 4). -/
inductive Out where
  | flit (p : Fin 16) (kind : BitVec 2) (seq ack : BitVec 10) (cvc : BitVec 2) (ccnt : BitVec 8) (units : List U64) (badCrc : Bool)
  | ctl (p : Fin 16) (seq ack : BitVec 10) (c : Ctl)
  | event (code detail : Nat)
  | tlpCpl (id status : Nat) (ep : Bool) (data : List Byte)
  | msix (v : Nat)
  | inta (on : Bool)
  | wakeN (on : Bool)
  | cfgCpl (id : Nat) (retry : Bool)
  | invalidated
  | aer (e : AerError)
  | onesRead
  | dmaRead (ch id addr : Nat)
  | dmaWrite (ch addr : Nat) (data : List Byte)
  | dictReply (path peer : Nat) (body : List Byte)
  | relay (kind status : Nat) (id blk frag frags : Nat) (body : List Byte)
  | ndAnswer (peer : Nat) (addr : BitVec 128)
  | echoReply (peer : Nat) (data : List Byte)
  | thermtrip (on : Bool)
  deriving DecidableEq, Repr

/-- An event on its way to the event ring; `cls` is its safety class, 0 for an event that is no safety event. -/
structure Ev where
  code   : Nat
  detail : Nat
  time   : Nat
  cls    : Nat
  deriving DecidableEq, Repr

/-- An entry of the battery-backed log (R637, Table 13-10). -/
structure BLog where
  seq    : Nat
  time   : Nat
  code   : Nat
  state  : Nat
  safety : Bool
  backup : Bool
  detail : Nat
  deriving DecidableEq, Repr

/-- The always-on reporter and the backup domain: the queue before the event ring, the counts of safety events that got no
place in it (R627), the events dropped since, the interrupt vectors that are pending, the battery-backed log, and the
notices that are disarmed (R683), and the checker self-test: the checkers that completed a test in this period and in this round,
those that missed the last period, and the time of each one's last test (R541–R544). `latched` is one above the last 250 MHz cycle in which
safety events were latched, and how many they were (R549); `crossed` is one above the time of each notice's last crossing (R686), and
`due` lists the notices that are evaluated in the next cycle (R682). -/
structure Aon where
  evq      : List Ev
  lostCls  : FMap Nat
  dropped  : Nat
  irqs     : List Nat
  blog     : List BLog
  blogSeq  : Nat
  disarmed : List Nat
  tested   : List Nat
  round    : List Nat
  missed   : List Nat
  testAt   : FMap Nat
  latched  : Nat × Nat
  crossed  : FMap Nat
  due      : List Nat
  deriving DecidableEq, Repr

/-- The clock and the device's state. `now` counts 2 GHz cycles (log 2); `fresh` numbers the values that the manual leaves
open (log 3); `startAt` is the time of the last start; `serial` numbers requests, accesses and jobs (log 2). `was` holds one above the
last cycle in which a setting changed that is in force from the next cycle, and the values before it (R527, R553, R770); `initEnd` is
one above the cycle of the last transition out of INIT (R738). -/
structure Dev where
  now      : Nat
  fresh    : Nat
  serial   : Nat
  state    : DevState
  rtcBase  : Nat
  startAt  : Nat
  alertTest : Bool
  was      : Nat × List (Nat × Nat)
  initEnd  : Nat
  deriving DecidableEq, Repr

/-- The dictionary's stored numbers (an unlisted object reads its default) and byte strings. -/
structure Objs where
  vals  : FMap Nat
  blobs : FMap (List Byte)
  force : FMap Nat
  deriving DecidableEq, Repr

/-- The state. -/
structure State where
  pending : List Instr
  dev     : Dev
  objs    : Objs
  ports   : Vector Port 16
  path    : DataPath
  dir     : Dir
  tide    : Tide
  dram    : Dram
  ctl     : Ctl3
  ep      : Ep
  aon     : Aon
  mgmt    : Mgmt
  flash   : Flash
  out     : List Out
  deriving DecidableEq, Repr

/-- Why a step stops. The manual stops the device for nothing: it answers, poisons, fences or enters SAFE. -/
inductive Fault where
  /-- Raised by every command whose operands no sender can form (`WellFormed`); safe: the model stops where there is no
  hardware behaviour to describe. -/
  | illFormed
  deriving DecidableEq, Repr

/-- Why a command has no meaning. -/
inductive Refusal where
  /-- Raised by `exec` for a command that is not modelled yet; safe: nothing is claimed of it. -/
  | notModelled (mnemonic : String)
  deriving DecidableEq, Repr

/-- No credits. -/
def Credits.zero : Credits := ⟨0, 0, 0, 0⟩

/-- A port after a device reset: DOWN, with nothing held (R736). The last accepted SEQ is 1,023, so that the first PAYLOAD
flit has SEQ 0 (DESIGN CHOICE, log 6). -/
def Port.reset : Port where
  state := .down
  width := 0
  half := .low
  node := 0
  features := 0
  relay := false
  adv := Credits.zero
  rxLast := 1023
  txNext := 0
  retry := []
  credit := Credits.zero
  pendRet := Credits.zero
  rrVc := 0
  rxHeld := Credits.zero
  rxPart := []
  ready := []
  sinceMgmt := 0
  replayWait := false
  replayFails := 0
  replayLane := none
  ctrl := []
  switchAt := none
  degrading := false
  lowClean := false
  highClean := false
  soakBad := 0
  laneFault := 0
  inReset := false
  forceFresh := false
  resetAt := 0
  degradeAt := 0
  was := (0, false)
  attempts := 0
  fence := .none
  cancelled := []
  lost := []
  pending := []
  rspHold := false
  stalled := false
  inject := 0
  halfRate := false
  withheld := 0
  owedRet := 0
  discarded := 0
  newCredit := Credits.zero
  creditAt := 0
  sinceIdle := 0
  replayAt := 0
  replayN := 0

/-- The mode set of a region that has none in force. -/
def Mode.none : Mode :=
  ⟨0, 0, 0, false, 0, 0, false, 0, 0, false, 0, 0, 0, 0, 0, 0, 0, false⟩

/-- A FREE region (R148: after any reset every region is FREE). -/
def Region.free : Region := ⟨.free, Mode.none, .none, Option.none, Mode.none, 0, false, 0, [], [], [], (0, .free, Mode.none), (0, 0)⟩

/-- A CLOSED session. -/
def Session.closed : Session := ⟨false, 0, 0⟩

/-- No copy. -/
def Copy.none : Copy := ⟨0, 0, 0, 0, false, 0⟩

/-- An UNWRITTEN page's entry (R227). -/
def TEntry.unwritten : TEntry := ⟨Copy.none, Copy.none, .none, .unwritten, 0, 0, 0, 0, 0, false, 0, false⟩

/-- No entry: the line is UNCACHED (Table 06-3). -/
def DEntry.none : DEntry := ⟨.uncached, 0, false, 0, 0, [], false, 0, true, 0⟩

/-- A granule of zeros, as the fills leave it (R500, R218). -/
def GMeta.clean : GMeta := ⟨false, 0, [], 0⟩

/-- A DRAM channel with empty queues; its generator is loaded when the reset is released (R459). -/
def ChanSt.idle : ChanSt :=
  ⟨[], [], [], [], false, [], 0, false, false, 0, 0, [], false, [], [], [], .no, none, [], (0, 0, 0), [], 0, 0⟩

/-- A stack or channel that has not trained. -/
def DUnitSt.untrained : DUnitSt := ⟨.empty, 0, [], false, 0⟩

/-- A free share record. -/
def Share.free : Share := ⟨Copy.none, Copy.none, .none, 0, 0, [], 0, .resident, false⟩

/-- A far slot before its SPD is read. -/
def FarSlot.empty : FarSlot := ⟨.empty, none, 0, false, 0, 0, false, false⟩

/-- A FREE lent range. -/
def LentRange.free : LentRange := ⟨false, false, false, 0, 0, 0, none⟩

/-- The class values of Table 08-5's defaults. -/
def ClassVals.dflt : ClassVals := ⟨List.replicate 17 0, 1, 64, 0, 65024, 0, 1023⟩

/-- The slot of a code table number s before any seal: 1–6 default, 0 and 7–15 never used, the others FREE (R176). -/
def TabSlot.initial (s : Nat) : TabSlot :=
  if 1 ≤ s ∧ s ≤ 6 then ⟨.dflt, s, 0xFFFF, false, Config.factoryLengths s⟩
  else if s < 16 then ⟨.never, 0, 0xFFFF, false, []⟩
  else ⟨.free, 0, 0xFFFF, false, []⟩

/-- An idle door. -/
def Door.idle : Door := ⟨0, false, false, 0, 0⟩

/-- The endpoint after a device reset: not ready, in D0, with nothing in flight. The completion timeout is R591's default. -/
def Ep.reset : Ep where
  ready := false
  linkUp := false
  perst := false
  flr := false
  dState := 0
  busMaster := false
  memEnable := false
  intDis := false
  msixEn := false
  atsEn := false
  pmeEn := false
  timeoutUs := 50000
  rcb128 := false
  wake := false
  doors := []
  tlps := []
  sq := []
  sqIn := []
  sqTail := 0
  sqHead := 0
  intxCause := 0
  intxSet := (0, 0)
  atc := []
  atcWas := (0, [])
  inval := []
  ringBase := 0
  shadow := 0
  msix := []
  descGen := 0

/-- The dictionary server with nothing open. -/
def Dict.reset : Dict := ⟨[], [], [], [], false, 0, [], []⟩

/-- The rings DISABLED. -/
def Ring.reset : Ring := ⟨0, 0, 0, 0, 0, 0, 0, 0, 0, 0, 0, 0, 0, 0, none, [], false⟩

/-- No update in progress. -/
def Upd.reset : Upd := ⟨none, [], none, [], false, 0, 0, []⟩

/-- No relay in progress. -/
def Relay.reset : Relay := ⟨0, [], [], [], false, 0, false⟩

/-- Main power and VBAT present, both pins inactive; the reset under way is a power-on (log 27). -/
def Power.reset : Power := ⟨1, true, true, false, false, false, 0, [], [], false, .none, false, 0, false, 0, none, 0, 0, 0⟩

/-- Nothing counted and nothing traced. -/
def Gauge.reset : Gauge := ⟨[], [], [], false, false, [], 0, [], []⟩

/-- The management complex after a device reset. -/
def Mgmt.reset : Mgmt := ⟨Dict.reset, Ring.reset, [], 0, [], [], 0, [], Upd.reset, Relay.reset, Power.reset, Gauge.reset, []⟩

/-- The flash and the fuses as the part is delivered: the factory image in bank 0 (log 27). -/
def Flash.factory : Flash := ⟨[], false, ⟨1, Config.factoryImage, true⟩, ⟨0, [], false⟩, [], [], []⟩

/-- The device right after a device reset: state RESET, every volatile object at its default, every queue empty; LEVEL and PEAK of the
near-free notice are `NEAR_FREE`, as it then reads (R294, R682). -/
def State.reset : State where
  pending := []
  dev := ⟨0, 0, 0, .reset, 0, 0, false, (0, []), 0⟩
  objs := ⟨[(0x300501, 7716688), (0x300504, 7716688)], [], []⟩
  ports := Vector.replicate 16 Port.reset
  path := ⟨[], [], [], [], [], [], [], 0, 0, 0, [], [], [], ⟨0, 0, [], []⟩, 0⟩
  dir := ⟨[], [], [], [], [], [], [], [], [], [], 0, [], [], 0⟩
  tide := ⟨[], [], [], [], [], [], 0, false, 0, 0, false, none, [], [], [], [], [], [], [], (0, 0)⟩
  dram := ⟨[], [], [], [], false, [], [], [], []⟩
  ctl := ⟨[], [], [], none, false, [], ⟨[], [], 0, [], [], [], 1000, 0, 0, 0, 0, 0, []⟩, [], []⟩
  ep := Ep.reset
  aon := ⟨[], [], 0, [], [], 0, [], [], [], [], [], (0, 0), [], []⟩
  mgmt := Mgmt.reset
  flash := Flash.factory
  out := []

end Sys2Proof.Machine
end

