-- ==== Sys2Proof/Machine/Ops.lean ====
section
/-! DEFINITION. The named operations over the state: maps by number, dictionary objects, ports, bytes, outputs and events.
Every meaning is written over these. -/

namespace Sys2Proof

/-! ## Maps by number: sparse, in rising order, an unlisted number holding the default `d` -/

/-- What number `k` holds. -/
def FMap.find {α : Type} (d : α) : FMap α → Nat → α
  | [], _ => d
  | (i, v) :: m, k => if k = i then v else FMap.find d m k

/-- Put `v` under `k`, in its place. -/
def FMap.put {α : Type} : FMap α → Nat → α → FMap α
  | [], k, v => [(k, v)]
  | (i, w) :: m, k, v =>
    if k = i then (k, v) :: m
    else if k < i then (k, v) :: (i, w) :: m
    else (i, w) :: FMap.put m k v

/-- Drop what `k` holds. -/
def FMap.del {α : Type} (m : FMap α) (k : Nat) : FMap α := m.filter (fun e => e.1 != k)

/-- Store `v` under `k`; the default is not listed. -/
def FMap.set {α : Type} [DecidableEq α] (d : α) (m : FMap α) (k : Nat) (v : α) : FMap α :=
  if v = d then FMap.del m k else FMap.put m k v

/-- The canonical form: numbers strictly rising and no entry equal to the default. -/
def FMap.wf {α : Type} [DecidableEq α] (d : α) : FMap α → Bool
  | [] => true
  | (i, v) :: m => decide (v ≠ d) && m.all (fun e => decide (i < e.1)) && FMap.wf d m

namespace Machine

/-! ## Numbers and bytes -/

/-- Little-endian bytes of a number (R6). -/
def leBytes : Nat → Nat → List Byte
  | 0, _ => []
  | n + 1, v => BitVec.ofNat 8 v :: leBytes n (v / 256)

/-- The number that little-endian bytes hold. -/
def leNat : List Byte → Nat
  | [] => 0
  | b :: bs => b.toNat + 256 * leNat bs

/-- The bits [hi:lo] of a number (R5). -/
def bits (v hi lo : Nat) : Nat := (v / 2 ^ lo) % 2 ^ (hi + 1 - lo)

/-- Whether bit i of a number is set. -/
def bit (v i : Nat) : Bool := (v / 2 ^ i) % 2 == 1

/-- The bytes of one 8-byte unit. -/
def unitBytes (u : U64) : List Byte := leBytes 8 u.toNat

/-- `n` bytes from byte `i` on, zeros past the end. -/
def slice (bs : List Byte) (i n : Nat) : List Byte :=
  let t := (bs.drop i).take n
  t ++ List.replicate (n - t.length) 0

/-- The units that bytes fill, zero-padded to a whole unit. -/
def toUnits (bs : List Byte) : List U64 :=
  (List.range ((bs.length + 7) / 8)).map (fun i => BitVec.ofNat 64 (leNat (slice bs (8 * i) 8)))

/-- The bytes of units. -/
def ofUnits (us : List U64) : List Byte := us.flatMap unitBytes

/-- Replace bytes from byte `i` on. -/
def patch (bs : List Byte) (i : Nat) (new : List Byte) : List Byte :=
  bs.take i ++ new ++ bs.drop (i + new.length)

/-- `n` zero bytes. -/
def zeros (n : Nat) : List Byte := List.replicate n 0

/-- A granule of zeros, and a poisoned granule. -/
def Gran.zero : Gran := ⟨zeros 64, false⟩
def Gran.bad : Gran := ⟨zeros 64, true⟩

/-- One bit of the CRC-32C (polynomial 0x1EDC6F41, bit-reversed 0x82F63B78) for a message taken byte by byte. -/
def crc32cStep (c : BitVec 32) (b : Byte) : BitVec 32 :=
  (List.range 8).foldl (fun c _ => if c.getLsbD 0 then (c >>> 1) ^^^ 0x82F63B78#32 else c >>> 1) (c ^^^ b.setWidth 32)

/-- CRC-32C of bytes (R51, R226, R489), in its published reflected form with initial and final complement (PRESUMED, log 7). -/
def crc32c (bs : List Byte) : BitVec 32 := ~~~ (bs.foldl crc32cStep 0xFFFFFFFF#32)

/-- CRC-8, polynomial 0x07, initial value 0 (Table 06-4), over the bits of a number, most significant bit first. -/
def crc8 (n : Nat) (v : Nat) : BitVec 8 :=
  (List.range n).foldl
    (fun c i => let b := bit v (n - 1 - i)
                let c' := c <<< 1
                if c.getLsbD 7 != b then c' ^^^ 0x07#8 else c') 0#8

/-- The first element of a list that a test accepts, changed. -/
def updFirst {α : Type} (p : α → Bool) (f : α → α) : List α → List α
  | [] => []
  | a :: as => if p a then f a :: as else a :: updFirst p f as

/-- The master's bit in a port mask: bits 0–15 the ports, bit 16 the endpoint. -/
def srcBit : Src → Nat
  | .port p => p.val
  | .ep => 16

/-! ## Time -/

/-- Cycles of 2 GHz in a µs, a ms and a s. -/
def cyclesUs : Nat := 2000
def cyclesMs : Nat := 2000000
def cyclesS  : Nat := 2000000000

namespace State

/-- Apply an effect for each element of a list, in order. -/
def each {α : Type} (s : State) (xs : List α) (f : State → α → State) : State := xs.foldl f s

/-- A value that the manual leaves open, and the counter moved on (log 3). -/
def drawFresh (s : State) : BitVec 64 × State :=
  (Config.fresh s.dev.fresh, { s with dev := { s.dev with fresh := s.dev.fresh + 1 } })

/-- A number for a new request, access or job. -/
def newId (s : State) : Nat × State :=
  (s.dev.serial, { s with dev := { s.dev with serial := s.dev.serial + 1 } })

/-! ## Dictionary objects -/

/-- The stored number of an object, or its default. -/
def num (s : State) (key : Nat) : Nat :=
  match s.objs.vals.find? (fun e => e.1 == key) with
  | some e => e.2
  | none   => objDflt key

/-- Store a number in an object. -/
def setNum (s : State) (key v : Nat) : State :=
  { s with objs := { s.objs with vals := FMap.put s.objs.vals key v } }

/-- Add to a counter. Counters wrap at their type's width where they are read (DESIGN CHOICE, log 8). -/
def bump (s : State) (key : Nat) (n : Nat := 1) : State := s.setNum key (s.num key + n)

/-- Keep the value of an object that changes in this cycle: it is in force until the next. -/
def keepNum (s : State) (key : Nat) : State :=
  let old := if s.dev.was.1 = s.dev.now + 1 then s.dev.was.2 else []
  if old.any (fun x => x.1 == key) then s else { s with dev := { s.dev with was := (s.dev.now + 1, old ++ [(key, s.num key)]) } }

/-- Write a setting that takes effect in the next cycle (R527, R770). -/
def setLater (s : State) (key v : Nat) : State := (s.keepNum key).setNum key v

/-- The value of a setting that is in force in this cycle. -/
def prevNum (s : State) (key : Nat) : Nat :=
  if s.dev.was.1 = s.dev.now + 1 then match s.dev.was.2.find? (fun x => x.1 == key) with
    | some x => x.2
    | none => s.num key
  else s.num key

/-- Record a greater value. -/
def atLeast (s : State) (key v : Nat) : State := if s.num key < v then s.setNum key v else s

/-- The value in force of a BOOT or COMMIT object (R648, R649). -/
def forced (s : State) (key : Nat) : Nat :=
  match s.objs.force.find? (fun e => e.1 == key) with
  | some e => e.2
  | none   => objDflt key

/-- Set the value in force. -/
def setForced (s : State) (key v : Nat) : State :=
  { s with objs := { s.objs with force := FMap.put s.objs.force key v } }

/-- The bytes of a STR or BLOB object. -/
def blob (s : State) (key : Nat) : List Byte := FMap.find [] s.objs.blobs key

/-- Store the bytes of a STR or BLOB object. -/
def setBlob (s : State) (key : Nat) (v : List Byte) : State :=
  { s with objs := { s.objs with blobs := FMap.set [] s.objs.blobs key v } }

/-! ## Parts of the state -/

/-- Change port p. -/
def updPort (s : State) (p : Fin 16) (f : Port → Port) : State := { s with ports := s.ports.set p (f s.ports[p]) }

/-- Record an output. -/
def emit (s : State) (o : Out) : State := { s with out := s.out ++ [o] }

/-- A region by its number. -/
def region (s : State) (k : Nat) : Region := FMap.find Region.free s.ctl.regions k

/-- Set a region. -/
def setRegion (s : State) (k : Nat) (r : Region) : State :=
  { s with ctl := { s.ctl with regions := FMap.set Region.free s.ctl.regions k r } }

/-- A session by its number. -/
def session (s : State) (n : Nat) : Session := FMap.find Session.closed s.ctl.sessions n

/-- Set a session. -/
def setSession (s : State) (n : Nat) (x : Session) : State :=
  { s with ctl := { s.ctl with sessions := FMap.set Session.closed s.ctl.sessions n x } }

/-- A tide map entry by its page. -/
def entry (s : State) (p : Nat) : TEntry := FMap.find TEntry.unwritten s.tide.map p

/-- Set a tide map entry. -/
def setEntry (s : State) (p : Nat) (e : TEntry) : State :=
  { s with tide := { s.tide with map := FMap.set TEntry.unwritten s.tide.map p e } }

/-- A DRAM channel by its number: 32 s + p for pseudo-channel p of stack s, 256 + m for far channel m (8003.01). -/
def chan (s : State) (c : Nat) : ChanSt := FMap.find ChanSt.idle s.dram.chans c

/-- Set a DRAM channel. -/
def setChan (s : State) (c : Nat) (x : ChanSt) : State :=
  { s with dram := { s.dram with chans := FMap.set ChanSt.idle s.dram.chans c x } }

/-- A stack (0–7) or far channel (8 + m) as a unit. -/
def unit (s : State) (u : Nat) : DUnitSt := FMap.find DUnitSt.untrained s.dram.units u

/-- Set a stack or far channel. -/
def setUnit (s : State) (u : Nat) (x : DUnitSt) : State :=
  { s with dram := { s.dram with units := FMap.set DUnitSt.untrained s.dram.units u x } }

/-- A far slot. -/
def slot (s : State) (n : Nat) : FarSlot := FMap.find FarSlot.empty s.tide.slots n

/-- Set a far slot. -/
def setSlot (s : State) (n : Nat) (x : FarSlot) : State :=
  { s with tide := { s.tide with slots := FMap.set FarSlot.empty s.tide.slots n x } }

/-- A lent range. -/
def lent (s : State) (r : Nat) : LentRange := FMap.find LentRange.free s.tide.lents r

/-- Set a lent range. -/
def setLent (s : State) (r : Nat) (x : LentRange) : State :=
  { s with tide := { s.tide with lents := FMap.set LentRange.free s.tide.lents r x } }

/-- A code table slot. -/
def tab (s : State) (n : Nat) : TabSlot :=
  match s.ctl.tabs.find? (fun e => e.1 == n) with
  | some e => e.2
  | none   => TabSlot.initial n

/-- Set a code table slot. -/
def setTab (s : State) (n : Nat) (x : TabSlot) : State :=
  { s with ctl := { s.ctl with tabs := FMap.put s.ctl.tabs n x } }

/-- A directory entry by its line. -/
def line (s : State) (l : Nat) : DEntry := FMap.find DEntry.none s.dir.ents l

/-- The transaction on a line, if it is BUSY. -/
def txn (s : State) (l : Nat) : Option Txn := (s.dir.txns.find? (fun e => e.1 == l)).map (·.2)

/-- Set or end the transaction on a line. -/
def setTxn (s : State) (l : Nat) (t : Option Txn) : State :=
  { s with dir := { s.dir with txns := match t with
      | some t => FMap.put s.dir.txns l t
      | none   => FMap.del s.dir.txns l } }

/-- The request with a number. -/
def req (s : State) (id : Nat) : Option Req := s.path.reqs.find? (fun r => r.id == id)

/-- Change a request. -/
def updReq (s : State) (id : Nat) (f : Req → Req) : State :=
  { s with path := { s.path with reqs := updFirst (fun r => r.id == id) f s.path.reqs } }

/-- Take a request out. -/
def dropReq (s : State) (id : Nat) : State :=
  { s with path := { s.path with reqs := s.path.reqs.filter (fun r => r.id != id) } }

/-! ## Stored granules -/

/-- What a granule of DRAM or lent memory holds besides its bytes. -/
def gmeta (s : State) (g : Nat) : GMeta := FMap.find GMeta.clean s.dram.gmeta g

/-- The byte at a stored address. -/
def memByte (s : State) (a : Nat) : Byte := FMap.find 0 s.dram.mem a

/-- The bytes of a stored granule. -/
def memGran (s : State) (g : Nat) : List Byte := (List.range 64).map (fun i => s.memByte (g * 64 + i))

/-- Store bytes from an address on. -/
def memWrite (m : FMap Byte) (a : Nat) : List Byte → FMap Byte
  | [] => m
  | b :: bs => memWrite (FMap.set 0 m a b) (a + 1) bs

/-- Store a granule with its V0 and tweak; a poisoned granule is stored as zeros with V0 = 0 (R491) and counted in 8000.06. -/
def putGran (s : State) (w : GW) : State :=
  let s : State := if w.gran.poison then s.bump Obj.poisonWritten else s
  { s with dram := { s.dram with
      mem := memWrite s.dram.mem (w.key * 64) (if w.gran.poison then zeros 64 else slice w.gran.bytes 0 64)
      gmeta := FMap.set GMeta.clean s.dram.gmeta w.key ⟨w.gran.poison, if w.gran.poison then 0 else w.v0, [], if w.gran.poison then 0 else w.tweak⟩ } }

end State

/-- An outcome that is a next state. -/
abbrev Res := Host.Outcome State Fault Refusal

end Machine

end Sys2Proof
end

