-- ==== Sys2Proof/Machine/Flags.lean ====
section
/-! DEFINITION. Status that follows from what happens: time stamps, events and their safety reports, notices, the device
state and the fence bits. -/

namespace Sys2Proof.Machine

namespace State

/-- What the real-time clock counts in the time that has passed, ns: one 2 GHz cycle is half a ns (log 2), and `RTC_TRIM` changes the
rate by parts per billion. -/
def rtcSpan (s : State) : Int :=
  let t := s.num Obj.rtcTrim
  let ns : Int := Int.ofNat (s.dev.now / 2)
  let trim : Int := if 2 ^ 31 ≤ t then Int.ofNat t - 2 ^ 32 else Int.ofNat t
  ns + ns * trim / 1000000000

/-- TIME64 now. -/
def time64 (s : State) : Nat := ((Int.ofNat s.dev.rtcBase + s.rtcSpan) % 2 ^ 64).toNat

/-- Set the real-time clock. -/
def rtcSet (s : State) (v : Nat) : State := { s with dev := { s.dev with rtcBase := ((Int.ofNat v - s.rtcSpan) % 2 ^ 64).toNat } }

/-- A change of the clock's rate leaves its time as it is. -/
def keepTime (s : State) (f : State → State) : State := (f s).rtcSet s.time64

/-- The time in 16 ns units as the deadline stamps count it (R423). -/
def now16 (s : State) : Nat := s.dev.now / 32

/-! ## Tidegauge (chapter 17) -/

/-- Whether a filter passes a source and a class (R763); no source passes any. -/
def filterOk (f : Nat) (src : Option Nat) (cls : Nat) : Bool :=
  match src with
  | some i => bit f i && (!bit f 24 || bits f 23 18 == cls)
  | none => true

/-- Change Tidegauge. -/
def updGauge (s : State) (f : Gauge → Gauge) : State := { s with mgmt := { s.mgmt with gauge := f s.mgmt.gauge } }

/-- A happening of a selector: every enabled counter of that selector whose filter passes adds n in the next cycle of H9 (R764). `src` is
none for a selector without filter; `useCls` is false where only the source counts. -/
def happen (s : State) (sel : Nat) (src : Option Nat) (cls : Nat) (useCls : Bool) (n : Nat) : State :=
  s.each s.mgmt.gauge.on (fun s j =>
    let f := s.num (Obj.cntFilter j)
    let ok := if useCls then filterOk f src cls else (match src with | some i => bit f i | none => true)
    if s.num (Obj.cntSelect j) = sel ∧ ok then s.updGauge (fun g => { g with adds := FMap.set 0 g.adds j (FMap.find 0 g.adds j + n) }) else s)

/-- One step of a trace point's generator, x^16 + x^14 + x^13 + x^11 + 1 (R768). -/
def tpStep (x : BitVec 16) : BitVec 16 :=
  (x <<< 1) ||| (if ((x.getLsbD 15 ^^ x.getLsbD 13) ^^ (x.getLsbD 12 ^^ x.getLsbD 10)) then 1#16 else 0#16)

/-- Write a record to the trace buffer (R772, R774): in WRAP a full buffer loses its oldest record; in STOP a full buffer takes
nothing more until it is read out or the mode is written. -/
def writeRec (s : State) (r : TRec) : State :=
  let g := s.mgmt.gauge
  let full := decide (262144 ≤ g.recs.length)
  if g.stopped || (full && s.num Obj.traceMode == 1) then
    (s.updGauge (fun g => { g with drop := true, stopped := true })).bump Obj.traceDrops
  else
    let recs := (if full then g.recs.drop 1 else g.recs) ++ [{ r with drop := g.drop }]
    let s : State := if full then s.bump Obj.traceDrops else s
    s.updGauge (fun g => { g with recs := recs, drop := false })

/-- Offer a record to the staging queue of 256: it takes the next SEQ; one that finds the queue full is dropped and counted (R772,
R773). -/
def stageRec (s : State) (r : TRec) : State :=
  let seq := s.num Obj.traceSeq
  let s : State := s.setNum Obj.traceSeq ((seq + 1) % 2 ^ 32)
  if 256 ≤ s.mgmt.gauge.staged.length then
    (s.updGauge (fun g => { g with drop := true, offered := g.offered + 1 })).bump Obj.traceDrops
  else s.updGauge (fun g => { g with staged := g.staged ++ [{ r with seq := seq }], offered := g.offered + 1 })

/-- Up to four records are offered per cycle (R773). A fifth waits for a later cycle (DESIGN CHOICE, log 72). -/
def offer (s : State) (r : TRec) : State :=
  if s.mgmt.gauge.offered < 4 then s.stageRec r else s.updGauge (fun g => { g with late := g.late ++ [r] })

/-- A counter adds the increments of one cycle, up to 8,191; those beyond are dropped and counted (R765). -/
def addCount (s : State) (e : Nat × Nat) : State :=
  let s : State := s.bump (Obj.cntValue e.1) (min e.2 8191)
  if 8191 < e.2 then s.bump Obj.cntDrops (e.2 - 8191) else s

/-- A new cycle of H9: the counters add what happened in the last (R764), the oldest staged record goes to the buffer, and up to four that
waited are offered (R773). -/
def gaugeCycle (s : State) : State :=
  let g := s.mgmt.gauge
  let s : State := s.updGauge (fun g => { g with staged := g.staged.drop 1, offered := 0, late := g.late.drop 4, adds := [] })
  let s : State := s.each g.adds addCount
  let s : State := s.each (g.staged.take 1) writeRec
  s.each (g.late.take 4) stageRec

/-- Cycles of H9 until no record is staged. -/
def gaugeCycles : Nat → State → State
  | 0, s => s
  | n + 1, s => gaugeCycles n s.gaugeCycle

/-- The staging queue runs empty before an access to the buffer from outside (DESIGN CHOICE, log 72: no path is as fast as H9). -/
def flushTrace (s : State) : State :=
  let n := s.mgmt.gauge.staged.length + s.mgmt.gauge.late.length
  if n = 0 then s else gaugeCycles (n + 1) s

/-- A happening of a trace point, with the source, class, address, tag, status and ARG of its record: an enabled point records one
in 2^SAMPLE of those that pass the trace filter (R768, R769). A draw whose low SAMPLE bits are zero records (DESIGN CHOICE, log 28). -/
def trace (s : State) (pt src cls : Nat) (addr : Option Nat) (stat tag full arg : Nat) : State :=
  let ctl := s.prevNum (Obj.tpControl (pt - 1))
  if !bit ctl 0 then s
  else
    let g := s.mgmt.gauge
    let x := tpStep (FMap.find 0 g.lfsr pt)
    let s : State := { s with mgmt := { s.mgmt with gauge := { g with lfsr := FMap.put g.lfsr pt x } } }
    let inAddr := match addr with
      | some a => decide (s.prevNum Obj.traceAddrLo ≤ a ∧ a < s.prevNum Obj.traceAddrHi)
      | none => true
    let pass := pt == 9 || (inAddr && (pt == 7 || pt == 8 || filterOk (s.prevNum Obj.traceFilter) (some src) cls))
    if pass && x.toNat % 2 ^ bits ctl 4 1 == 0 then
      s.offer ⟨s.time64, pt, src, cls, stat, false, tag, full, arg % 2 ^ 32, 0⟩
    else s

/-! ## Events (chapters 00, 11, 13) -/

/-- Put an event before the event ring. With 256 waiting, the oldest that is no safety event is dropped; if all are safety
events, a further safety event is counted by class and any other event is dropped (R627). -/
def pushEv (s : State) (e : Ev) : State :=
  let q := s.aon.evq
  if q.length < 256 then { s with aon := { s.aon with evq := q ++ [e] } }
  else match q.find? (fun x => x.cls == 0) with
    | some x =>
      ({ s with aon := { s.aon with evq := q.erase x ++ [e], dropped := s.aon.dropped + 1 } }).bump Obj.eventsDropped
    | none =>
      if e.cls = 0 then ({ s with aon := { s.aon with dropped := s.aon.dropped + 1 } }).bump Obj.eventsDropped
      else { s with aon := { s.aon with lostCls := FMap.set 0 s.aon.lostCls e.cls (FMap.find 0 s.aon.lostCls e.cls + 1) } }

/-- Add an entry to the battery-backed log; it keeps the last 128 (R637). -/
def logBackup (s : State) (code detail : Nat) (safety backup : Bool) : State :=
  let e : BLog := ⟨s.aon.blogSeq + 1, s.time64, code, s.dev.state.code, safety, backup, detail⟩
  { s with aon := { s.aon with blog := (s.aon.blog ++ [e]).drop (s.aon.blog.length + 1 - 128), blogSeq := s.aon.blogSeq + 1 } }

/-- An event's log entry waits for Core L; one that finds 1,024 waiting is dropped (R545, R627). CORE is 4, hardware. -/
def logEntry (s : State) (code core : Nat) : State :=
  if 1024 ≤ s.mgmt.logq.length then s.bump Obj.logDropped
  else { s with mgmt := { s.mgmt with logq := s.mgmt.logq ++ [⟨s.time64, code, core, s.mgmt.logSeq⟩], logSeq := s.mgmt.logSeq + 1 } }

/-- Trace point 0x09: any event raised (Table 17-2). -/
def traceEvent (s : State) (code detail : Nat) : State := s.trace 9 0 0 none 0 code 0 detail

/-- Raise an event that is no safety event (R545): it goes to the event ring. -/
def raise (s : State) (code : Nat) (detail : Nat := 0) : State :=
  (((s.pushEv ⟨code, detail, s.time64, 0⟩).logEntry code 4).traceEvent code detail).emit (.event code detail)

/-- Make an interrupt vector pending (R586). -/
def pendIrq (s : State) (v : Nat) : State :=
  if v ∈ s.aon.irqs then s else { s with aon := { s.aon with irqs := s.aon.irqs ++ [v] } }

/-- The message of R107 for an event. -/
def linkEvent (s : State) (code : Nat) : Msg where
  vc := .mgmt
  units := [BitVec.ofNat 64 (3 + 0x39 * 4 + 1 * 2 ^ 45), 0, BitVec.ofNat 64 (code + (s.time64 % 2 ^ 48) * 2 ^ 16)]
  tag := none
  line := none
  report := false
  slot := none

/-- Send LINK_EVENT on every port that is UP (R108). -/
def sendLinkEvent (s : State) (code : Nat) : State :=
  { s with ports := s.ports.map (fun p => if p.state = .up then { p with ready := p.ready ++ [s.linkEvent code] } else p) }

/-- The 250 MHz AON cycle. -/
def aonCycle (s : State) : Nat := s.dev.now / 8

/-- A safety event is latched: it counts in ALERT_PENDING, and in this AON cycle (R549). -/
def latchAlert (s : State) : State :=
  let l := s.aon.latched
  let n := if l.1 = s.aonCycle + 1 then l.2 + 1 else 1
  { s with aon := { s.aon with latched := (s.aonCycle + 1, n) } }.setNum Obj.alertPending (min (s.num Obj.alertPending + 1) 0xFFFF)

/-- The safety events latched in this AON cycle: an acknowledgement leaves them pending (R549). -/
def latchedNow (s : State) : Nat := if s.aon.latched.1 = s.aonCycle + 1 then min s.aon.latched.2 0xFFFF else 0

/-- Report a safety event of the given classes on the four paths (R545, R546, R550): the counts of 9001 and the class
events, which are no safety events themselves (Table 11-5), the last event's record, ALERT_PENDING, the interrupt, the event ring, the links and the battery-backed log. -/
def raiseSafety (s : State) (code detail : Nat) (classes : List Nat) : State :=
  let top := classes.foldl max 0
  let s := classes.foldl (fun s c => s.bump (Obj.classEvents (c - 1))) s
  let s := s.setNum Obj.lastSafetyEvent code
  let s := s.setNum Obj.lastSafetyClass top
  let s := s.setNum Obj.lastSafetyTime s.time64
  let s := s.latchAlert
  let s := (((s.pushEv ⟨code, detail, s.time64, top⟩).logEntry code 4).traceEvent code detail).emit (.event code detail)
  let s := classes.foldl (fun s c => s.raise (0x8010 + c) code) s
  ((s.pendIrq 0).sendLinkEvent code).logBackup code detail true false

/-- ALERT_N is asserted while ALERT_PENDING is not zero, in SAFE, and during the alert test (R548, 9004.01). -/
def alertN (s : State) : Bool := s.num Obj.alertPending != 0 || s.dev.state == .safe || s.dev.alertTest

/-! ## Device state (chapters 00, 16) -/

/-- Change the device state: its record in 1200, event 0xB001, and the battery-backed log (R637, R756). -/
def setDevState (s : State) (d : DevState) : State :=
  if s.dev.state = d then s else
  let old := s.dev.state
  let s := s.setNum Obj.previousState old.code
  let s := (s.setNum Obj.stateSince s.time64).bump Obj.stateChanges
  let s : State := { s with dev := { s.dev with state := d } }
  (s.raise 0xB001 (old.code + 256 * d.code)).logBackup 0xB001 (old.code + 256 * d.code) false false

/-- SERVICE becomes DEGRADED (R552); in every other state the fence is recorded and the state waits, and a HOLD that is decided comes before
it (R757). -/
def toDegraded (s : State) : State := if s.dev.state = .service ∧ s.mgmt.power.holdDue = 0 then s.setDevState .degraded else s

/-- Whether any scope of Table 11-6 is fenced: those of 9003, a line, a bucket, or a decoder. -/
def anyFence (s : State) : Bool :=
  s.num Obj.fencedPorts != 0 || s.num Obj.fencedStacks != 0 || s.num Obj.fencedChannels != 0 || s.num Obj.fencedSlots != 0
    || s.num Obj.fencedFunctions != 0 || !s.dir.fenced.isEmpty || !s.dir.buckets.isEmpty || !s.dram.decOut.isEmpty

/-- DEGRADED returns to SERVICE once no scope is fenced (R102, R756). -/
def toService (s : State) : State :=
  if s.dev.state = .degraded ∧ s.anyFence = false ∧ s.mgmt.power.holdDue = 0 then s.setDevState .service else s

/-- Set bit i of a bit-field object. -/
def setBit (s : State) (key i : Nat) : State := if bit (s.num key) i then s else s.setNum key (s.num key + 2 ^ i)

/-- Clear bit i of a bit-field object. -/
def clearBit (s : State) (key i : Nat) : State := if bit (s.num key) i then s.setNum key (s.num key - 2 ^ i) else s

/-- A fence is reported: event 0x8020 with the class of the event that decided it (7 if none, R804), and DEGRADED (R552). -/
def fenced (s : State) (detail cls : Nat) : State := (s.raiseSafety 0x8020 detail [cls]).toDegraded

/-- A fence of a scope that 9003 shows: its bit, and its report. -/
def fenceBit (s : State) (key i cls : Nat) : State := (s.setBit key i).fenced (key % 256 * 256 + i) cls

/-! ## Notices (R682–R687) -/

/-- A notice's number as its type reads it: the junction notice is signed, every other unsigned. -/
def noticeNum (s : State) (idx sub : Nat) : Int :=
  let v := s.num (okey idx sub)
  if idx = 0xA003 ∧ 2 ^ 31 ≤ v then (v : Int) - 2 ^ 32 else v

/-- A signed level as its object stores it. -/
def levelNat (v : Int) : Nat := if 0 ≤ v then v.toNat else (v + 2 ^ 32).toNat

/-- Evaluate notice `idx` at a level: PEAK, crossing with event `code`, re-arming. -/
def evalNotice (s : State) (idx : Nat) (level : Int) (falling : Bool) (code : Nat) : State :=
  let s := s.setNum (okey idx 1) (levelNat level)
  let pk := s.noticeNum idx 4
  let s := if (if falling then level < pk else pk < level) then s.setNum (okey idx 4) (levelNat level) else s
  let mark := s.noticeNum idx 5
  let hyst := s.noticeNum idx 6
  if idx ∈ s.aon.disarmed then
    let rearm : Bool := if falling then decide (mark + hyst < level) else decide (level < mark - hyst) || level == 0
    if rearm then { s with aon := { s.aon with disarmed := s.aon.disarmed.filter (· != idx) } } else s
  else
    let cross : Bool := if falling then decide (level < mark) else decide (mark ≤ level)
    if cross then
      let s := s.setNum (okey idx 2) 1
      let s := s.setNum (okey idx 3) (min (s.num (okey idx 3) + 1) 0xFFFFFFFF)
      ({ s with aon := { s.aon with
          disarmed := idx :: s.aon.disarmed, crossed := FMap.put s.aon.crossed idx (s.dev.now + 1) } }).raise code
    else s

/-- A notice is to be evaluated in the next cycle. -/
def evalNext (s : State) (idx : Nat) : State :=
  if s.aon.due.contains idx then s else { s with aon := { s.aon with due := s.aon.due ++ [idx] } }

/-- A notice is evaluated again at its LEVEL (R682). -/
def renotice (s : State) (idx : Nat) : State :=
  let code := if idx = 0x3004 then 0x2001 else if idx = 0x3005 then 0x2002 else if idx = 0x5003 then 0x3004 else if idx = 0x6005 then 0x400A
    else if idx = 0x6902 then 0xD001 else if idx = 0x7042 then 0x5001 else if idx = 0xA003 then 0xB040 else 0x1050
  s.evalNotice idx (s.noticeNum idx 1) (idx == 0x3005) code

/-- The notices whose mark or hysteresis was written in the cycle before. -/
def evalDue (s : State) : State := { s with aon := { s.aon with due := [] } }.each s.aon.due renotice

/-- Whether a notice has crossed in this cycle of its block: AON's for the junction notice, 2 GHz for every other. -/
def crossedNow (s : State) (idx : Nat) : Bool :=
  let t := FMap.find 0 s.aon.crossed idx
  let d := if idx = 0xA003 then 8 else 1
  t != 0 && (t - 1) / d == s.dev.now / d

/-- A write of any value to a notice's ACK: a crossing of the same cycle is counted after it (R686). -/
def ackNotice (s : State) (idx : Nat) : State :=
  let n := if s.crossedNow idx then 1 else 0
  let s := s.setNum (okey idx 2) n
  let s := s.setNum (okey idx 3) n
  s.setNum (okey idx 4) (s.num (okey idx 1))

end State

end Sys2Proof.Machine
end

