-- ==== Sys2Proof/Machine/Operands.lean ====
section
/-! DEFINITION. How messages spell requests and completions: opcodes, headers, payloads, completion units, and the units of
pool addresses (Tables 02-4 to 02-7, 06-1, R112). -/

namespace Sys2Proof.Machine

/-! ## Opcodes (Table 02-6) -/

/-- The Bollard operation's opcode (Table 07-5). -/
def BolOp.opc : BolOp → Nat
  | .add => 0x20 | .signal => 0x21 | .reset => 0x22 | .waitGe => 0x23 | .arrive => 0x24 | .cancel => 0x25

/-- OPC of a request (Table 02-6). -/
def ReqOp.opc : ReqOp → Nat
  | .read => 0x01 | .readExcl => 0x02 | .readOnce => 0x03 | .readHalf => 0x04
  | .write _ => 0x08 | .writeMasked _ _ => 0x09 | .writeback _ => 0x0A | .releaseClean => 0x0B | .fence => 0x10
  | .add _ => 0x18 | .cas _ _ => 0x19 | .fadd _ => 0x1A | .bfadd _ => 0x1B | .vec _ => 0x1C | .bol k _ => k.opc

/-- PAYLEN of an opcode (Table 02-6); none for a reserved opcode. -/
def payLen : Nat → Option Nat
  | 0x01 => some 0 | 0x02 => some 0 | 0x03 => some 0 | 0x04 => some 0 | 0x08 => some 16 | 0x09 => some 9 | 0x0A => some 16
  | 0x0B => some 0 | 0x10 => some 0 | 0x18 => some 1 | 0x19 => some 2 | 0x1A => some 1 | 0x1B => some 1 | 0x1C => some 16
  | 0x20 => some 1 | 0x21 => some 1 | 0x22 => some 1 | 0x23 => some 1 | 0x24 => some 1 | 0x25 => some 1 | _ => none

/-- Units of a request's message: two header units, the node unit of a relay port, the payload (R299). -/
def ReqOp.units (op : ReqOp) (h : Hdr) : Nat :=
  2 + (if h.node.isSome then 1 else 0) + (payLen op.opc).getD 0

/-- Whether an operation is an atomic or VEC_ACCUM. -/
def ReqOp.isAlu : ReqOp → Bool
  | .add _ => true | .cas _ _ => true | .fadd _ => true | .bfadd _ => true | .vec _ => true | _ => false

/-- Whether an operation is an ATOMIC_*. -/
def ReqOp.isAtomic : ReqOp → Bool
  | .add _ => true | .cas _ _ => true | .fadd _ => true | .bfadd _ => true | _ => false

/-- Whether an operation reads and returns line data. -/
def ReqOp.isRead : ReqOp → Bool
  | .read => true | .readExcl => true | .readOnce => true | .readHalf => true | _ => false

/-- Whether an operation is a requester's write. -/
def ReqOp.isWrite : ReqOp → Bool
  | .write _ => true | .writeMasked _ _ => true | .writeback _ => true | _ => false

/-- Whether an operation is a Bollard operation. -/
def ReqOp.isBol : ReqOp → Bool
  | .bol _ _ => true | _ => false

/-- Operand bytes of an atomic (Table 07-3, ATTR[1:0]). -/
def atomBytes (op : ReqOp) (attr : Nat) : Nat :=
  match op with
  | .fadd _ => 4
  | .bfadd _ => 2
  | _ => if attr % 4 = 3 then 8 else 4

/-- The alignment that an opcode requires of ADDR (Table 02-6). -/
def ReqOp.align (op : ReqOp) (attr : Nat) : Nat :=
  match op with
  | .read => 128 | .readExcl => 128 | .readOnce => 128 | .readHalf => 64 | .write _ => 128 | .writeMasked _ _ => 64
  | .writeback _ => 128 | .releaseClean => 128 | .fence => 1 | .vec _ => 128 | .bol _ _ => 1
  | op => atomBytes op attr

/-- Whether ORD makes this opcode an ordered request (R362). -/
def ReqOp.ordAllowed : ReqOp → Bool
  | .write _ => true | .writeMasked _ _ => true | .writeback _ => true | .vec _ => true
  | .add _ => true | .cas _ _ => true | .fadd _ => true | .bfadd _ => true
  | .bol .cancel _ => false | .bol _ _ => true
  | _ => false

/-- Whether a request is an ordered request (R362). -/
def Req.ordered (r : Req) : Bool :=
  match r.op with
  | .add _ => true | .cas _ _ => true | .fadd _ => true | .bfadd _ => true
  | .bol .cancel _ => false | .bol _ _ => true
  | .write _ => r.hdr.ord | .writeMasked _ _ => r.hdr.ord | .writeback _ => r.hdr.ord | .vec _ => r.hdr.ord
  | _ => false

/-- Cost charged at grant (Table 08-1). -/
def ReqOp.cost : ReqOp → Nat
  | .read => 128 | .readExcl => 128 | .readOnce => 128 | .write _ => 128 | .writeback _ => 128 | .vec _ => 128
  | .readHalf => 64 | .writeMasked _ _ => 64 | .add _ => 64 | .cas _ _ => 64 | .fadd _ => 64 | .bfadd _ => 64
  | .releaseClean => 0 | .fence => 0 | .bol _ _ => 0

/-- The checks of step 1 (Table 01-6): alignment, ORD, size, element, rounding, timeout code, N and the Bollard address
(R62, R362, R374, R384, R387, R390). -/
def step1Ok (op : ReqOp) (h : Hdr) : Bool :=
  let a := h.addr.toNat
  let attr := h.attr.toNat
  let aligned := a % op.align attr == 0
  let ordOk := !h.ord || op.ordAllowed
  let operands := match op with
    | .add _ => decide (2 ≤ attr % 4)
    | .cas _ _ => decide (2 ≤ attr % 4)
    | .vec _ => decide (bits attr 5 3 < 4) && (!bit attr 2 || bits attr 5 3 == 1)
    | .bol k v =>
      decide (a < 16384) && (match k with
        | .waitGe => decide (attr % 32 ≤ 25) || attr % 32 == 31
        | .arrive => (decide (attr % 32 ≤ 25) || attr % 32 == 31) && v.toNat % 2 ^ 32 != 0
        | _ => true)
    | _ => true
  aligned && ordOk && operands

/-! ## Pool addresses (R112) and lines -/

/-- NODE[63:46], VIEW[45:44] and OFFSET[43:0]. -/
def addrNode (a : BitVec 64) : Nat := a.toNat / 2 ^ 46
def addrView (a : BitVec 64) : Nat := a.toNat / 2 ^ 44 % 4
def addrOff (a : BitVec 64) : Nat := a.toNat % 2 ^ 44

/-- The line of an offset (R309), its page, its 4 KiB block in the page and its granule in the page. -/
def lineOf (off : Nat) : Nat := off / 128
def pageOf (off : Nat) : Nat := off / 65536

/-! ## Headers and completions as units -/

/-- Unit 0 of Table 02-4. -/
def hdrUnit0 (vc opc tag cls ddl : Nat) (ord : Bool) (attr paylen : Nat) : U64 :=
  BitVec.ofNat 64 (vc + opc * 2 ^ 2 + tag * 2 ^ 8 + cls * 2 ^ 20 + ddl * 2 ^ 26 + (if ord then 2 ^ 36 else 0)
    + attr * 2 ^ 37 + paylen * 2 ^ 45)

/-- The node unit of Table 06-1. -/
def nodeUnit (n : NodeUnit) : U64 := BitVec.ofNat 64 (n.node.toNat + n.scope.toNat * 2 ^ 18)

/-- The CKIND code. -/
def CKind.code : CKind → Nat
  | .done => 1 | .dataLine => 2 | .dataHalf => 3 | .dataWord => 4 | .dictReply => 8

/-- The completion unit of Table 02-5. -/
def cplUnit (vc : VC) (k : CKind) (tag : BitVec 12) (st : Status) (grant half arg : Nat) : U64 :=
  BitVec.ofNat 64 (vc.code + k.code * 2 ^ 2 + tag.toNat * 2 ^ 6 + st.code * 2 ^ 18 + grant * 2 ^ 22 + half * 2 ^ 24
    + arg * 2 ^ 32)

/-- A completion with a status that carries no data (R13, R63). -/
def Cpl.plain (st : Status) (arg : Nat := 0) : Cpl := ⟨st, .done, 0, 0, arg, []⟩

/-- The message of a completion. -/
def Cpl.msg (c : Cpl) (vc : VC) (tag : BitVec 12) (line : Option Nat) (slot : Option (Nat × Bool)) : Msg where
  vc := vc
  units := cplUnit vc c.kind tag c.status c.grant c.half c.arg :: toUnits c.data
  tag := some tag
  line := line
  report := false
  slot := slot

/-! ## Reading a message from units (R58–R63, R299, R301) -/

/-- What the units of one whole message from a partner say. -/
inductive InMsg where
  | request (h : Hdr) (op : ReqOp)
  | reserved (h : Hdr) (opc : Nat)
  | mgmt (h : Hdr) (opc : Nat) (body : List Byte)
  | snpAck (tag : BitVec 12) (wb : Bool)
  | snpData (tag : BitVec 12) (data : List Byte)
  deriving DecidableEq, Repr

/-- What comes first in a list of received units: nothing yet, a pad unit, a message with the units after it, or a protocol
error (a malformed unit, R60, R61, R301). -/
inductive Parse where
  | more
  | pad (rest : List U64)
  | msg (m : InMsg) (units : Nat) (vc : VC) (rest : List U64)
  | error
  deriving DecidableEq, Repr

/-- The operation that an opcode and its payload units name. -/
def opOf (opc : Nat) (pl : List U64) : Option ReqOp :=
  let u (i : Nat) : U64 := pl.getD i 0
  let d : List Byte := ofUnits pl
  match opc with
  | 0x01 => some .read
  | 0x02 => some .readExcl
  | 0x03 => some .readOnce
  | 0x04 => some .readHalf
  | 0x08 => some (.write d)
  | 0x09 => some (.writeMasked (u 0) (d.drop 8))
  | 0x0A => some (.writeback d)
  | 0x0B => some .releaseClean
  | 0x10 => some .fence
  | 0x18 => some (.add (u 0))
  | 0x19 => some (.cas (u 0) (u 1))
  | 0x1A => some (.fadd (u 0))
  | 0x1B => some (.bfadd (u 0))
  | 0x1C => some (.vec d)
  | 0x20 => some (.bol .add (u 0))
  | 0x21 => some (.bol .signal (u 0))
  | 0x22 => some (.bol .reset (u 0))
  | 0x23 => some (.bol .waitGe (u 0))
  | 0x24 => some (.bol .arrive (u 0))
  | 0x25 => some (.bol .cancel (u 0))
  | _ => none

/-- Whether PAYLEN fits an opcode of REQ or MGMT (R61). DICT_READ and DICT_WRITE have no fixed length but a range, 1–512: outside it
the message is taken as a protocol error like one of another fixed length (DESIGN CHOICE, log 58). A reserved opcode has no length
of its own (R8). -/
def payFits (isReq : Bool) (opc n : Nat) : Bool :=
  if isReq then (payLen opc).isNone || payLen opc == some n
  else (opc != 0x30 && opc != 0x31) || (decide (0 < n) && decide (n ≤ 512))

/-- Read a REQ or MGMT message whose first unit is `u`. -/
def parseReq (p : Fin 16) (relay : Bool) (u : Nat) (us : List U64) : Parse :=
  let isReq := u % 4 == 0
  let opc := bits u 7 2
  let paylen := bits u 57 45
  let nodeN := if relay && isReq then 1 else 0
  let n := 2 + nodeN + paylen
  if !payFits isReq opc paylen then .error
  else if us.length < n then .more
  else
    let nu := (us.getD 2 0).toNat
    if nodeN = 1 && bits nu 19 18 ≠ 0 then .error
    else
      let h : Hdr :=
        { src := .port p, tag := BitVec.ofNat 12 (bits u 19 8), cls := BitVec.ofNat 6 (bits u 25 20)
          ddl := BitVec.ofNat 10 (bits u 35 26), ord := bit u 36, attr := BitVec.ofNat 8 (bits u 44 37)
          addr := us.getD 1 0
          node := if nodeN = 1 then some ⟨BitVec.ofNat 18 (bits nu 17 0), 0⟩ else none }
      let pl := (us.take n).drop (2 + nodeN)
      let rest := us.drop n
      if isReq then
        match opOf opc pl with
        | some op => .msg (.request h op) n .req rest
        | none => .msg (.reserved h opc) n .req rest
      else .msg (.mgmt h opc (ofUnits pl)) n .mgmt rest

/-- Read the message at the front of the received units of port p. -/
def parseMsg (p : Fin 16) (relay : Bool) : List U64 → Parse
  | [] => .more
  | u0 :: us =>
    let u := u0.toNat
    if u = 0 then .pad us
    else match u % 4 with
      | 2 => .error
      | 1 =>
        let tag := BitVec.ofNat 12 (bits u 17 6)
        match bits u 5 2 with
        | 5 => .msg (.snpAck tag (bit u 32)) 1 .rsp us
        | 6 => if us.length < 16 then .more else .msg (.snpData tag (ofUnits (us.take 16))) 17 .rsp (us.drop 16)
        | _ => .error
      | _ => parseReq p relay u (u0 :: us)

/-- The requester tag that a message's header names (R65). -/
def InMsg.tag : InMsg → Option (BitVec 12)
  | .request h _ => some h.tag
  | .reserved h _ => some h.tag
  | .mgmt h _ _ => some h.tag
  | .snpAck _ _ => none
  | .snpData _ _ => none

/-- What lies in a list of received units: the channel, the requester tag and the units of each message, the last of which may be
incomplete; and whether a malformed unit follows. -/
def rxScan (p : Fin 16) (relay : Bool) : Nat → List U64 → List (VC × Option (BitVec 12) × Nat) × Bool
  | 0, _ => ([], false)
  | n + 1, us => match parseMsg p relay us with
    | .pad rest => rxScan p relay n rest
    | .error => ([], true)
    | .msg m k vc rest =>
      let y := rxScan p relay n rest
      ((vc, m.tag, k) :: y.1, y.2)
    | .more => match us with
      | [] => ([], false)
      | u :: _ =>
        let vc : VC := match u.toNat % 4 with | 0 => .req | 1 => .rsp | 2 => .snp | _ => .mgmt
        ([(vc, if vc == .rsp then none else some (BitVec.ofNat 12 (bits u.toNat 19 8)), us.length)], false)

/-- The messages in a port's receive buffer whose units are not all there, or not processed yet. -/
def Port.rx (x : Port) (p : Fin 16) : List (VC × Option (BitVec 12) × Nat) := (rxScan p x.relay x.rxPart.length x.rxPart).1

/-- The requester tags of those messages: their headers are accepted (R66). -/
def Port.rxTags (x : Port) (p : Fin 16) : List (BitVec 12) := (x.rx p).filterMap (·.2.1)

/-- The units of those messages in a channel. -/
def Port.rxUnits (x : Port) (p : Fin 16) (vc : VC) : Nat := (((x.rx p).filter (fun e => e.1 == vc)).map (·.2.2)).sum

/-! ## Credits of the receive buffers (R76, R103) -/

/-- The credits of a virtual channel. -/
def Credits.get (c : Credits) : VC → Nat
  | .req => c.req | .rsp => c.rsp | .snp => c.snp | .mgmt => c.mgmt

/-- Credits with one channel's set. -/
def Credits.put (c : Credits) (v : VC) (n : Nat) : Credits :=
  match v with
  | .req => { c with req := n } | .rsp => { c with rsp := n } | .snp => { c with snp := n } | .mgmt => { c with mgmt := n }

/-- Units of a channel that the partner has sent and whose credits it has not got back (R76, R103). -/
def unitsOut (x : Port) (vc : VC) : Nat := x.rxHeld.get vc + x.pendRet.get vc + (if vc = .req then x.owedRet else 0)

/-- The credits that the device advertises (Table 02-8). -/
def advertised : VC → Nat
  | .req => 32768 | .rsp => 8192 | .snp => 0 | .mgmt => 1024

/-- The units of a port that are received and not returned, with those of messages that are not processed yet (R103). -/
def unitsHeld (x : Port) (p : Fin 16) (vc : VC) : Nat := unitsOut x vc + x.rxUnits p vc

/-- Whether units that are not processed yet go beyond the partner's credits (R76). -/
def overrun (x : Port) (p : Fin 16) : Bool := (x.rx p).any (fun e => decide (advertised e.1 < unitsHeld x p e.1))

end Sys2Proof.Machine
end

