-- ==== Sys2Proof/Machine/Ecc.lean ====
section
/-! DEFINITION. The check code of stored granules (R486–R491): GF(2^16), the syndromes of an error pattern, and the outcome of
a decode (Table 10-2). The code is linear, so a decode is described by its error pattern: the symbols that differ from the
code word that was stored, the virtual symbols among them. -/

namespace Sys2Proof.Machine

/-- Multiply by α in GF(2^16) with x^16 + x^12 + x^3 + x + 1 (R486). -/
def gfDouble (a : BitVec 16) : BitVec 16 :=
  if a.getLsbD 15 then (a <<< 1) ^^^ 0x100B#16 else a <<< 1

/-- Product in GF(2^16). -/
def gfMul (a b : BitVec 16) : BitVec 16 :=
  ((List.range 16).foldl
    (fun (acc : BitVec 16 × BitVec 16) i => (if b.getLsbD i then acc.1 ^^^ acc.2 else acc.1, gfDouble acc.2)) (0#16, a)).1

/-- α^n. -/
def gfPow (n : Nat) : BitVec 16 := (List.range n).foldl (fun a _ => gfDouble a) 1#16

/-- a^(2^16 − 2), the inverse of a non-zero element. -/
def gfInv (a : BitVec 16) : BitVec 16 :=
  ((List.range 15).foldl (fun (acc : BitVec 16 × BitVec 16) _ => let sq := gfMul acc.2 acc.2; (gfMul acc.1 sq, sq)) (1#16, a)).1

/-- Check symbols of a tier: 4 near, 8 far (Table 10-1). -/
def checkSyms (far : Bool) : Nat := if far then 8 else 4

/-- The coefficient of stored symbol j (R487): data symbol j is coefficient r + j, check symbol 32 + i is coefficient i. The
virtual symbols V0 and V1 are taken as symbols 40 and 41 here. -/
def coefOf (far : Bool) (j : Nat) : Nat :=
  let r := checkSyms far
  if j < 32 then r + j else if j < 40 then j - 32 else r + 32 + (j - 40)

/-- An error pattern: symbols and what is XORed onto them. -/
abbrev ErrPat := List (Nat × BitVec 16)

/-- Syndromes S_0 to S_(r−1) of an error pattern. -/
def syndromes (far : Bool) (e : ErrPat) : List (BitVec 16) :=
  let roots := e.map (fun x => (gfPow (coefOf far x.1), x.2))
  ((List.range (checkSyms far)).foldl
    (fun (acc : List (BitVec 16) × List (BitVec 16 × BitVec 16)) _ =>
      (acc.1 ++ [acc.2.foldl (fun t x => t ^^^ x.2) 0#16], acc.2.map (fun x => (x.1, gfMul x.1 x.2))))
    ([], roots)).1

/-- The poison pattern of R491. -/
def poisonPat (far : Bool) : ErrPat := if far then [(32, 0x5A5A#16), (36, 0xA5A5#16)] else [(32, 0x5A5A#16), (33, 0xA5A5#16)]

/-- The polynomial with the given roots, lowest coefficient first. -/
def locator (roots : List (BitVec 16)) : List (BitVec 16) :=
  roots.foldl (fun p x => List.zipWith (· ^^^ ·) (p.map (gfMul x) ++ [0#16]) (0#16 :: p)) [1#16]

/-- Whether syndromes are those of some error within the given symbols: each window of them satisfies the recurrence of the
symbols' locator. -/
def confined (far : Bool) (syms : List Nat) (syn : List (BitVec 16)) : Bool :=
  let loc := locator (syms.map (fun j => gfPow (coefOf far j)))
  (List.range (syn.length - syms.length)).all
    (fun j => (List.zipWith gfMul loc (syn.drop j)).foldl (· ^^^ ·) 0#16 == 0#16)

/-- Outcomes of a decode (Table 10-2). `exact` is false for a pattern that decodes to another code word than the one stored;
V0 and V1 say which virtual symbol a tag mismatch lies in. -/
inductive DecOut where
  | poisoned
  | clean
  | corrected (exact : Bool)
  | tagMismatch (v0 v1 : Bool)
  | uncorrectable
  deriving DecidableEq, Repr

/-- Symbols that one correction may span: one symbol near, the four symbols of one device far (Table 10-1, R488). -/
def corrSets (far : Bool) : List (List Nat) :=
  if far then (List.range 10).map (fun k => [4 * k, 4 * k + 1, 4 * k + 2, 4 * k + 3])
  else (List.range 36).map (fun j => [j])

/-- The outcome of decoding a word with this error pattern; the checks run in the order of Table 10-2. -/
def decodeErr (far : Bool) (e : ErrPat) : DecOut :=
  let syn := syndromes far e
  if syn == syndromes far (poisonPat far) then .poisoned
  else if syn.all (· == 0#16) then .clean
  else match (corrSets far).find? (fun set => confined far set syn) with
    | some set => .corrected (e.all (fun x => x.2 == 0#16 || set.contains x.1))
    | none =>
      if confined far [40] syn then .tagMismatch true false
      else if confined far [41] syn then .tagMismatch false true
      else if confined far [40, 41] syn then .tagMismatch true true
      else .uncorrectable

/-- V1 of a granule (R489): bits [15:0] of the CRC-32C over LOC, five bytes, and the tier. -/
def v1Of (tier loc : Nat) : BitVec 16 := (crc32c (leBytes 5 loc ++ [BitVec.ofNat 8 tier])).setWidth 16

end Sys2Proof.Machine
end

