-- ==== Sys2Proof/Machine/Codec.lean ====
section
/-! DEFINITION. The Shingle codec (chapter 04): element split, code tables, canonical codewords, encoding and decoding of
sub-streams with the damage checks, index entries, table building, and the ingest image's checks. -/

namespace Sys2Proof.Machine

/-- Element bytes n, coded field [hi:lo], raw field width w and raw plane bytes M of a format (Table 04-1). -/
structure Fmt where
  n  : Nat
  hi : Nat
  lo : Nat
  w  : Nat
  m  : Nat
  deriving DecidableEq, Repr

/-- The split of a format by its Table 03-1 code. -/
def fmtOf : Nat → Fmt
  | 1 => ⟨2, 14, 7, 8, 128⟩
  | 2 => ⟨2, 14, 10, 11, 176⟩
  | 3 => ⟨4, 30, 23, 24, 192⟩
  | 4 => ⟨1, 6, 3, 4, 128⟩
  | 5 => ⟨1, 6, 2, 3, 96⟩
  | 6 => ⟨1, 7, 4, 4, 128⟩
  | _ => ⟨1, 7, 0, 0, 0⟩

/-- Width W of the coded field, the alphabet size and the elements of a sub-stream. -/
def Fmt.bitsC (f : Fmt) : Nat := f.hi + 1 - f.lo
def Fmt.alpha (f : Fmt) : Nat := 2 ^ f.bitsC
def Fmt.count (f : Fmt) : Nat := 256 / f.n

/-- The coded field of an element, and its raw field: sign above mantissa, or the low nibble for INT8 (R159). -/
def codedField (fmt : Nat) (x : Nat) : Nat := bits x (fmtOf fmt).hi (fmtOf fmt).lo
def rawField (fmt : Nat) (x : Nat) : Nat :=
  let f := fmtOf fmt
  if fmt = 6 then x % 16 else (x / 2 ^ (8 * f.n - 1)) * 2 ^ (f.w - 1) + x % 2 ^ f.lo

/-- The element that a coded field and a raw field make. -/
def joinField (fmt : Nat) (c r : Nat) : Nat :=
  let f := fmtOf fmt
  if fmt = 6 then c * 16 + r else (r / 2 ^ (f.w - 1)) * 2 ^ (8 * f.n - 1) + c * 2 ^ f.lo + r % 2 ^ f.lo

/-- Bytes as a bit sequence, bit b being bit (b mod 8) of byte (b div 8) (R170), and back. -/
def bitsOf (bs : List Byte) : List Bool := bs.flatMap (fun b => (List.range 8).map b.getLsbD)
def bytesOf : Nat → List Bool → List Byte
  | 0, _ => []
  | n + 1, bs => BitVec.ofNat 8 ((List.range 8).foldl (fun a i => a + if bs.getD i false then 2 ^ i else 0) 0) :: bytesOf n (bs.drop 8)

/-- The low `n` bits of a number, least significant first, and most significant first. -/
def lsbBits (n v : Nat) : List Bool := (List.range n).map (bit v)
def msbBits (n v : Nat) : List Bool := (lsbBits n v).reverse

/-- The number that bits name, first bit most significant. -/
def msbNat (bs : List Bool) : Nat := bs.foldl (fun a b => 2 * a + if b then 1 else 0) 0

/-- Canonical codewords (R175): for each symbol in `lens` (the escape last) its codeword; symbols without a code are left
out. -/
def assignCodes (lens : List Nat) : List (Nat × Nat × Nat) :=
  ((List.range 12).foldl (fun (acc : Nat × List (Nat × Nat × Nat)) i =>
    let l := i + 1
    let r := (List.range lens.length).foldl (fun (a : Nat × List (Nat × Nat × Nat)) s =>
      if lens.getD s 0 = l then (a.1 + 1, a.2 ++ [(s, l, a.1)]) else a) acc
    (r.1 * 2, r.2)) (0, [])).2

/-- The codeword at the front of a stream: its symbol and length (R186: at most 12 bits are read). -/
def matchCode (codes : List (Nat × Nat × Nat)) (st : List Bool) : Option (Nat × Nat) :=
  (codes.find? (fun c => msbNat ((List.range c.2.1).map (fun i => st.getD i false)) == c.2.2)).map (fun c => (c.1, c.2.1))

/-- A damage check that failed (Table 04-7), or what was decoded. -/
abbrev Dec (α : Type) := Except Nat α

/-- Decode `k` more elements (R186, checks 8 to 10): position, plane bits and the elements so far. -/
def decodeElems (fmt : Nat) (lens : List Nat) (codes : List (Nat × Nat × Nat)) (eBits : Nat) :
    Nat → List Bool → List Bool → Nat → List Nat → Dec (Nat × List Nat)
  | 0, _, _, pos, out => .ok (pos, out)
  | k + 1, st, pl, pos, out =>
    let f := fmtOf fmt
    match matchCode codes st with
    | none => .error 8
    | some (sym, l) =>
      let st1 := st.drop l
      let esc := sym = f.alpha
      let sym1 := if esc then msbNat ((List.range f.bitsC).map (fun i => st1.getD i false)) else sym
      let pos1 := pos + l + if esc then f.bitsC else 0
      if esc ∧ lens.getD sym1 0 ≠ 0 then .error 9
      else if eBits < pos1 then .error 10
      else
        let raw := (msbNat (pl.take f.w).reverse)
        decodeElems fmt lens codes eBits k (if esc then st1.drop f.bitsC else st1) (pl.drop f.w) pos1
          (out ++ [joinField fmt sym1 raw])

/-- Decode one sub-stream of `stride` bytes (R186): its 256 raw bytes or the number of the check that fails. -/
def decodeSub (fmt : Nat) (lens : List Nat) (ss : List Byte) (stride : Nat) : Dec (List Byte) :=
  let f := fmtOf fmt
  let hdr := leNat (ss.take 2)
  let eBits := hdr % 2 ^ 13
  if hdr / 2 ^ 13 ≠ 0 then .error 6
  else if stride < 2 + f.m + (eBits + 7) / 8 then .error 7
  else
    let stream := bitsOf (slice ss (2 + f.m) (stride - 2 - f.m))
    match decodeElems fmt lens (assignCodes lens) eBits f.count stream (bitsOf (slice ss 2 f.m)) 0 [] with
    | .error c => .error c
    | .ok (pos, out) =>
      if pos < eBits then .error 11
      else if (stream.drop eBits).any (·) then .error 12
      else .ok (out.flatMap (leBytes f.n))

/-- The elements of 256 raw bytes (R166). -/
def elemsOf (fmt : Nat) (raw : List Byte) : List Nat :=
  (List.range (fmtOf fmt).count).map (fun i => leNat (slice raw (i * (fmtOf fmt).n) (fmtOf fmt).n))

/-- The exponent stream of a sub-stream's elements (R171, R172). -/
def expBits (fmt : Nat) (lens : List Nat) (es : List Nat) : List Bool :=
  let f := fmtOf fmt
  let codes := assignCodes lens
  let word (s : Nat) : List Bool := match codes.find? (fun c => c.1 == s) with
    | some c => msbBits c.2.1 c.2.2
    | none => []
  es.flatMap (fun x =>
    let c := codedField fmt x
    if lens.getD c 0 = 0 then word f.alpha ++ msbBits f.bitsC c else word c)

/-- A block's stored form: KIND (0 CODED, 1 RAW, 2 ZERO), its length in granules and its bytes. -/
structure Coded where
  kind  : Nat
  len   : Nat
  bytes : List Byte
  deriving DecidableEq, Repr

/-- Encode a 4 KiB block (R164 to R172): ZERO if all bytes are zero, RAW if it would take 64 granules or more. -/
def encodeBlock (fmt : Nat) (lens : List Nat) (raw : List Byte) : Coded :=
  let f := fmtOf fmt
  if raw.all (· == 0) then ⟨2, 0, []⟩
  else
    let subs := (List.range 16).map (fun j => elemsOf fmt (slice raw (256 * j) 256))
    let exps := subs.map (expBits fmt lens)
    let need := exps.map (fun e => 2 + f.m + (e.length + 7) / 8)
    let l := (need.foldl max 0 + 3) / 4
    if 64 ≤ l then ⟨1, 64, raw⟩
    else ⟨0, l, (List.zip subs exps).flatMap (fun x =>
      leBytes 2 x.2.length ++ bytesOf f.m (x.1.flatMap (fun e => lsbBits f.w (rawField fmt e)))
        ++ bytesOf (4 * l - 2 - f.m) x.2)⟩

/-! ## The index granule (Table 04-3) -/

/-- The entries of an index granule, and the granule of entries. -/
def idxOf (g : List Byte) : List IdxEnt :=
  (List.range 16).map (fun k => let v := leNat (slice g (4 * k) 4)
    ⟨bits v 9 0, bits v 16 10, bits v 18 17, bits v 31 19⟩)
def idxBytes (es : List IdxEnt) : List Byte :=
  es.flatMap (fun e => leBytes 4 (e.off + e.len * 2 ^ 10 + e.kind * 2 ^ 17 + e.slot * 2 ^ 19))

/-- The first of checks 1 to 5 of Table 04-7 that block k of a page fails. `extent` is the extent's length; `slotOk` says of a
slot number whether it is in use with the region's format. (SLOT is kept with the entry's three reserved bits above it.) A block at
granule 0 overlaps the index granule, which R161 forbids: check 3. -/
def idxCheck (es : List IdxEnt) (extent : Nat) (slotOk : Nat → Bool) (k : Nat) : Option Nat :=
  let e := es.getD k ⟨0, 0, 3, 0⟩
  let overlap := (List.range 16).any (fun j => let o := es.getD j ⟨0, 0, 2, 0⟩
    j ≠ k && o.kind ≠ 2 && e.kind ≠ 2 && decide (o.off < e.off + e.len ∧ e.off < o.off + o.len))
  if e.kind = 3 ∨ 1024 ≤ e.slot then some 1
  else if (e.kind = 2 ∧ (e.len ≠ 0 ∨ e.off ≠ 0)) ∨ (e.kind = 1 ∧ e.len ≠ 64) ∨ (e.kind = 0 ∧ (e.len = 0 ∨ 63 < e.len)) then some 2
  else if (e.kind ≠ 2 ∧ (e.off = 0 ∨ extent < e.off + e.len)) ∨ overlap then some 3
  else if e.kind = 0 ∧ slotOk e.slot = false then some 4
  else if 1008 < 1 + (es.map (·.len)).sum then some 5
  else none

/-! ## Table records and building a table -/

/-- A slot's table record (Table 04-5). -/
def tableRecord (fmt : Nat) (lens : List Nat) : List Byte :=
  let f := fmtOf fmt
  let body := (List.range (f.alpha / 2)).map (fun i =>
    BitVec.ofNat 8 (lens.getD (2 * i) 0 + 16 * lens.getD (2 * i + 1) 0))
  slice ([BitVec.ofNat 8 fmt, BitVec.ofNat 8 f.bitsC, BitVec.ofNat 8 (lens.getD f.alpha 0), 0] ++ body) 0 192

/-- The lengths of a record if it is valid by R174. -/
def recordLens (r : List Byte) : Option (Nat × List Nat) :=
  let b (i : Nat) : Nat := (r.getD i 0).toNat
  let fmt := b 0
  let f := fmtOf fmt
  let lens := (List.range f.alpha).map (fun s => b (4 + s / 2) / 16 ^ (s % 2) % 16) ++ [b 2]
  let kraft := (lens.map (fun l => if l = 0 then 0 else 2 ^ (12 - l))).sum
  if 1 ≤ fmt ∧ fmt ≤ 6 ∧ b 1 = f.bitsC ∧ lens.all (· ≤ 12) ∧ 1 ≤ b 2 ∧ kraft ≤ 2 ^ 12 ∧ b 3 = 0
      ∧ (r.drop (4 + f.alpha / 2)).all (· == 0) then some (fmt, lens) else none

/-- A Huffman node: its weight, key and the symbols below it. -/
abbrev HNode := Nat × Nat × List Nat

/-- The node of least weight, lower key on a tie. -/
def leastNode : List HNode → Option HNode
  | [] => none
  | n :: ns => match leastNode ns with
    | none => some n
    | some m => if n.1 < m.1 ∨ (n.1 = m.1 ∧ n.2.1 < m.2.1) then some n else some m

/-- Join the two least nodes until one is left (R181), counting each symbol's depth. -/
def huffJoin (a : Nat) : Nat → Nat → List HNode → List Nat → List Nat
  | 0, _, _, ls => ls
  | k + 1, c, ns, ls =>
    match leastNode ns with
    | none => ls
    | some x =>
      let ns1 := ns.erase x
      match leastNode ns1 with
      | none => ls
      | some y =>
        let below := x.2.2 ++ y.2.2
        huffJoin a k (c + 1) ((x.1 + y.1, a + 1 + c, below) :: ns1.erase y)
          ((List.range ls.length).map (fun s => ls.getD s 0 + if below.contains s then 1 else 0))

/-- Huffman lengths of a histogram (R181). -/
def huffLens (hist : List Nat) : List Nat :=
  let a := hist.length - 1
  let leaves : List HNode := ((List.range hist.length).filter (fun s => hist.getD s 0 != 0)).map (fun s => (hist.getD s 0, s, [s]))
  if leaves.length = 1 then hist.map (fun h => if h = 0 then 0 else 1)
  else huffJoin a hist.length 0 leaves (List.replicate hist.length 0)

/-- The Kraft sum in units of 2^−12. -/
def kraft12 (ls : List Nat) : Nat := (ls.map (fun l => if l = 0 then 0 else 2 ^ (12 - l))).sum

/-- Lengthen codes until the Kraft sum fits (R181): the longest code below 12; ties the least weight, then the highest
symbol. -/
def lengthen (hist : List Nat) : Nat → List Nat → List Nat
  | 0, ls => ls
  | k + 1, ls =>
    if kraft12 ls ≤ 2 ^ 12 then ls
    else
      let best := (List.range ls.length).foldl (fun (b : Option Nat) s =>
        let l := ls.getD s 0
        if l = 0 ∨ 12 ≤ l then b else match b with
          | none => some s
          | some t =>
            let lt := ls.getD t 0
            if lt < l ∨ (lt = l ∧ hist.getD s 0 ≤ hist.getD t 0) then some s else b) none
      match best with
      | none => ls
      | some s => lengthen hist k (ls.set s (ls.getD s 0 + 1))

/-- Shorten one symbol's code while the Kraft sum allows it. -/
def shorten1 : Nat → Nat → List Nat → List Nat
  | 0, _, ls => ls
  | k + 1, s, ls =>
    let l := ls.getD s 0
    if 1 < l ∧ kraft12 ls + 2 ^ (12 - l) ≤ 2 ^ 12 then shorten1 k s (ls.set s (l - 1)) else ls

/-- `limit_lengths` with a limit of 12 (R181). -/
def limitLens (hist ls : List Nat) : List Nat :=
  let ls1 := lengthen hist (12 * ls.length) (ls.map (min 12))
  let order := ((List.range ls.length).filter (fun s => ls.getD s 0 != 0)).mergeSort
    (fun s t => hist.getD t 0 < hist.getD s 0 || (hist.getD s 0 == hist.getD t 0 && s ≤ t))
  order.foldl (fun l s => shorten1 12 s l) ls1

/-- `build_table` over raw blocks of a region (R181): the lengths, the escape last. -/
def buildTable (fmt escLog2 : Nat) (blocks : List (List Byte)) : List Nat :=
  let f := fmtOf fmt
  let coded := (blocks.filter (fun b => b.any (· != 0))).flatMap (fun b =>
    (List.range (b.length / f.n)).map (fun i => codedField fmt (leNat (slice b (i * f.n) f.n))))
  let h0 := (List.range f.alpha).map (fun s => coded.count s)
  let total := h0.sum
  let rare (h : Nat) : Bool := h != 0 && decide (h * 2 ^ escLog2 < total)
  let hist := h0.map (fun h => if rare h then 0 else h) ++ [((h0.filter rare).sum + 1)]
  limitLens hist (huffLens hist)

end Sys2Proof.Machine
end

