-- ==== Sys2Proof/Machine/Places.lean ====
section
/-! DEFINITION. Where a page's granules lie: locations and bays, the DRAM coordinates of a granule, free bays, fenced places,
and the granules of a stored copy (chapters 05, 09, 11). A granule's key is tier × 2^38 + LOC. -/

namespace Sys2Proof

/-- Whether the far tier accepts a DIMM (R439, Table 09-2). -/
def Spd.accepted (d : Spd) : Bool :=
  d.supported && (d.ranks == 1 || d.ranks == 2 || d.ranks == 4)
    && (if d.dens32 then d.gib == 64 || d.gib == 128 || d.gib == 256 else d.gib == 32 || d.gib == 64 || d.gib == 128)

end Sys2Proof

namespace Sys2Proof.Machine

/-- V0 of a mode set's data (R489). -/
def State.v0Of (m : Mode) : Nat := 0x100 + m.realm

/-! ## Locations (Table 05-3) and DRAM coordinates (R440, R441) -/

/-- A granule's key, and its tier and LOC. -/
def gkey (tier loc : Nat) : Nat := tier * 2 ^ 38 + loc
def keyTier (k : Nat) : Nat := k / 2 ^ 38
def keyLoc (k : Nat) : Nat := k % 2 ^ 38

/-- The unit of bays a location lies in: a stack (0–7), a far slot (8 + slot number) or a lent range (56 + r). -/
def unitOf (tier loc : Nat) : Nat :=
  if tier = 1 then loc / 2 ^ 35
  else if tier = 2 then 8 + 6 * (loc / 2 ^ 35) + loc / 2 ^ 32 % 8
  else 56 + loc / 2 ^ 32

/-- The memory die of a location. -/
def dieOf (_tier loc : Nat) : Nat := loc / 2 ^ 35

/-- The location of granule 0 of a bay of a unit. -/
def bayLoc (unit bay : Nat) : Nat :=
  if unit < 8 then unit * 2 ^ 35 + bay * 1024
  else if unit < 56 then ((unit - 8) / 6) * 2 ^ 35 + ((unit - 8) % 6) * 2 ^ 32 + bay * 1024
  else (unit - 56) * 2 ^ 32 + bay * 1024

/-- The tier of a unit. -/
def unitTier (unit : Nat) : Nat := if unit < 8 then 1 else if unit < 56 then 2 else 3

/-- The bay number of a location within its unit. -/
def bayOf (loc : Nat) : Nat := loc % 2 ^ 32 / 1024

/-- The channel of a granule: pseudo-channel 32 s + PC, or 256 + m (Table 09-3, Table 09-4). -/
def chanOf (k : Nat) : Nat :=
  let loc := keyLoc k
  let g := loc % 2 ^ 30
  if keyTier k = 1 then 32 * (loc / 2 ^ 35) + (bits g 5 1 ^^^ bits g 17 13)
  else 256 + 3 * (loc / 2 ^ 35) + (loc / 2 ^ 32 % 8) / 2

/-- Whether a channel number names a far channel. -/
def isFar (c : Nat) : Bool := decide (256 ≤ c)

/-- The stack or far channel of a channel number, as `State.unit` numbers them. -/
def dunitOf (c : Nat) : Nat := if c < 256 then c / 32 else 8 + (c - 256)

/-- Rank and row bits of a DIMM (Table 09-2, Table 09-4). -/
def rankBits (x : Spd) : Nat := if x.ranks.toNat = 4 then 2 else if x.ranks.toNat = 2 then 1 else 0
def rowBits (x : Spd) : Nat := if x.dens32 then 17 else 16

/-- Bank (with bank group, rank, subchannel and DIMM position) and row of a granule in its channel: two numbers. -/
def State.bankRow (s : State) (k : Nat) : Nat × Nat :=
  let loc := keyLoc k
  if keyTier k = 1 then
    let g := loc % 2 ^ 30
    ((bits g 7 6 ^^^ bits g 19 18) * 4 + (bits g 9 8 ^^^ bits g 21 20), bits g 29 13)
  else
    let g := loc % 2 ^ 32
    let spd := (s.slot (unitOf 2 loc - 8)).spd.getD ⟨0, false, 1, true, false, 0, []⟩
    let rb := rankBits spd
    let row := bits g (12 + rb + rowBits spd) (13 + rb)
    let rank := if rb = 0 then 0 else bits g (12 + rb) 13
    let bg := bits g 3 1 ^^^ row % 8
    let bank := bits g 5 4 ^^^ row / 8 % 4
    ((((loc / 2 ^ 32 % 2) * 2 + g % 2) * 4 + rank) * 32 + bg * 4 + bank, row)

/-- A row as one number: bank and row of its channel (R512). -/
def State.rowOf (s : State) (k : Nat) : Nat := let b := s.bankRow k; b.1 * 2 ^ 17 + b.2

/-! ## Copies of a page -/

/-- The key of granule g of a copy's extent; an extent that reaches the end of its bay continues in its continuation bay
(R216). -/
def Copy.key (c : Copy) (g : Nat) : Nat :=
  if c.loc % 1024 + g < 1024 then gkey c.tier (c.loc + g) else gkey c.tier (c.cont * 1024 + (c.loc % 1024 + g - 1024))

/-- The keys of a whole copy. -/
def Copy.keys (c : Copy) : List Nat := (List.range c.len).map c.key

namespace State

/-- The near bays of a stack that metadata takes: one eighth of Table 05-1's areas, the directory's 278,528 bays and 14 spare
bays; the model puts them at the lowest bay numbers (DESIGN CHOICE, log 10). -/
def metaBays : Nat := 83990

/-- Bays of a unit: 1,048,576 of a stack, those of a slot's DIMM (R293), ⌊L / 69,632⌋ of a lent range (R522). -/
def bayCount (s : State) (unit : Nat) : Nat :=
  if unit < 8 then 2 ^ 20
  else if unit < 56 then match (s.slot (unit - 8)).spd with
    | some x => x.gib * 2 ^ 14
    | none => 0
  else (s.lent (unit - 56)).len / 69632

/-- Bays of a unit in use. -/
def usedBays (s : State) (unit : Nat) : Nat :=
  (s.tide.bays.filter (fun e => e.1 / 2 ^ 24 == unit)).length

/-- Whether a unit's resource is fenced (R520). -/
def unitFenced (s : State) (unit : Nat) : Bool :=
  if unit < 8 then bit (s.num Obj.fencedStacks) unit
  else if unit < 56 then bit (s.num Obj.fencedSlots) (unit - 8) || bit (s.num Obj.fencedChannels) ((unit - 8) / 2)
  else false

/-- Whether a granule lies in a fenced resource. -/
def keyFenced (s : State) (k : Nat) : Bool := s.unitFenced (unitOf (keyTier k) (keyLoc k))

/-- Whether a unit takes new bays: an unfenced stack, a slot IN_SERVICE, an ACTIVE lent range. -/
def unitOpen (s : State) (unit : Nat) : Bool :=
  if s.unitFenced unit then false
  else if unit < 8 then true
  else if unit < 56 then (s.slot (unit - 8)).st == .inService
  else (s.lent (unit - 56)).active

/-- Bays that may be handed out: of a far slot only those that the background fill has written (R503). -/
def bayLimit (s : State) (unit : Nat) : Nat :=
  if unit < 8 then 2 ^ 20
  else if unit < 56 then min (s.slot (unit - 8)).filled (s.bayCount unit)
  else s.bayCount unit

/-- Free bays of a unit. -/
def freeBays (s : State) (unit : Nat) : Nat :=
  if s.unitOpen unit then s.bayLimit unit - (if unit < 8 then metaBays else 0) - s.usedBays unit else 0

/-- Near bays that hold neither metadata nor a page. -/
def nearBays (s : State) : Nat := ((List.range 8).map s.freeBays).sum

/-- Near bays in use by pages of PIN_NEAR regions. -/
def pinnedUsed (s : State) : Nat :=
  (s.tide.bays.filter (fun e => decide (e.1 / 2 ^ 24 < 8) && s.ctl.regions.any (fun r =>
    r.2.st != .free && r.2.mode.tier == 1 && decide (r.2.mode.base ≤ (e.2 - 1) * 65536 ∧ (e.2 - 1) * 65536 < r.2.mode.base + r.2.mode.len)))).length

/-- Near pages reserved by regions (3000.04). -/
def nearReserved (s : State) : Nat := ((s.ctl.regions.filter (fun r => r.2.near)).map (fun r => r.2.pages)).sum

/-- 3000.06 `NEAR_FREE`: flood-pool bays free, less the pinned reservation not yet used (R224). -/
def nearFree (s : State) : Nat := s.nearBays - (s.nearReserved - s.pinnedUsed)

/-- 3000.0A `FAR_FREE`. -/
def farFree (s : State) : Nat := ((List.range 48).map (fun n => s.freeBays (8 + n))).sum

/-- The lowest free bay of a unit, from `i` on, by its list of used bays in rising order (DESIGN CHOICE of the bay, log 10). -/
def firstGap : Nat → List Nat → Nat
  | i, [] => i
  | i, b :: bs => if b < i then firstGap i bs else if b = i then firstGap (i + 1) bs else i

/-- A free bay of a unit. -/
def freeBay (s : State) (unit : Nat) : Option Nat :=
  if s.freeBays unit = 0 then none
  else some (firstGap (if unit < 8 then metaBays else 0)
    ((s.tide.bays.filter (fun e => e.1 / 2 ^ 24 == unit)).map (fun e => e.1 % 2 ^ 24)))

/-- Take a bay for a page. -/
def takeBay (s : State) (unit bay page : Nat) : State :=
  { s with tide := { s.tide with bays := FMap.set 0 s.tide.bays (unit * 2 ^ 24 + bay) (page + 1) } }

/-- Free bays of a memory die in a tier. -/
def dieFree (s : State) (tier die : Nat) : Nat :=
  if tier = 1 then s.freeBays die else ((List.range 6).map (fun i => s.freeBays (8 + 6 * die + i))).sum

/-- The number with the greatest value of `f`, the lowest on a tie; none if every value is 0. -/
def argMax (f : Nat → Nat) (xs : List Nat) : Option Nat :=
  xs.foldl (fun b x => if f x = 0 then b else match b with
    | none => some x
    | some y => if f y < f x then some x else b) none

/-- The unit that the allocator takes a bay from in a tier, off the dies `not`: the die with the most free bays, and in the
far tier its slot with the most (R254); ties go to the lower number. -/
def pickUnit (s : State) (tier : Nat) (not : List Nat) : Option Nat :=
  match argMax (s.dieFree tier) ((List.range 8).filter (fun d => !not.contains d)) with
  | none => none
  | some d => if tier = 1 then some d else argMax s.freeBays ((List.range 6).map (fun i => 8 + 6 * d + i))

/-- Allocate one whole bay for a page in a tier: its raw copy. -/
def allocBay (s : State) (tier page : Nat) (not : List Nat) : Option (Copy × State) :=
  match s.pickUnit tier not with
  | none => none
  | some u => match s.freeBay u with
    | none => none
    | some b => some (⟨tier, bayLoc u b, 0, 1024, false, 0⟩, s.takeBay u b page)

/-- The bays that a copy lies in. -/
def copyBays (c : Copy) : List Nat :=
  if c.tier = 0 then []
  else
    let k0 := unitOf c.tier c.loc * 2 ^ 24 + bayOf c.loc
    if 1024 < c.loc % 1024 + c.len then [k0, unitOf c.tier (c.cont * 1024) * 2 ^ 24 + bayOf (c.cont * 1024)] else [k0]

/-- Every copy that holds granules: of pages, of share records, those that a switch left behind, and the destinations of jobs. -/
def allCopies (s : State) : List Copy :=
  s.tide.map.flatMap (fun e => [e.2.a, e.2.b]) ++ s.tide.shares.flatMap (fun e => [e.2.a, e.2.b]) ++ s.tide.leaving.map (·.copy)
    ++ s.tide.jobs.flatMap (fun j => [j.dstA, j.dstB])

/-- Whether another extent than the copy's own still lies in a bay (sealed pages share bays, R216). -/
def bayShared (s : State) (c : Copy) (bay : Nat) : Bool := s.allCopies.any (fun d => d != c && (copyBays d).contains bay)

/-- Release the bays of a copy that no other extent uses, zeroed by R218; writes that still wait for them are dropped with them, and no
region goes on packing into them. -/
def freeCopy (s : State) (c : Copy) : State :=
  let gone := (copyBays c).filter (fun b => !s.bayShared c b)
  let keys := if c.tier = 0 then [] else c.keys
  let cut (a : Acc) : Acc := { a with wr := a.wr.filter (fun w => !keys.contains w.key) }
  let keep (a : Acc) : Bool := !a.write || !a.wr.isEmpty || a.owner.isSome
  { s with
    tide := { s.tide with
      bays := s.tide.bays.filter (fun e => !gone.contains e.1), idxStore := s.tide.idxStore.filter (fun e => !keys.contains e.1)
      idxCache := s.tide.idxCache.filter (fun k => !keys.contains k) }
    ctl := { s.ctl with regions := s.ctl.regions.map (fun e =>
      (e.1, { e.2 with tails := e.2.tails.filter (fun t => !gone.contains (t.1 * 2 ^ 24 + bayOf t.2)) })) }
    dram := { s.dram with
      chans := s.dram.chans.map (fun e => (e.1, { e.2 with
        wait := (e.2.wait.map cut).filter keep, wq := (e.2.wq.map cut).filter keep }))
      mem := s.dram.mem.filter (fun e => !keys.contains (e.1 / 64))
      gmeta := s.dram.gmeta.filter (fun e => !keys.contains e.1) } }

/-- Whether any bay of a copy lies in a fenced resource. -/
def copyFenced (s : State) (c : Copy) : Bool := (copyBays c).any (fun b => s.unitFenced (b / 2 ^ 24))

/-- The copy that step 6 resolves, and copy B: in state SHARED they are the share record's (R272). -/
def copyA (s : State) (p : Nat) : Copy :=
  let e := s.entry p
  if e.pstate = .shared then (FMap.find Share.free s.tide.shares e.share).a else e.a
def copyB (s : State) (p : Nat) : Copy :=
  let e := s.entry p
  if e.pstate = .shared then (FMap.find Share.free s.tide.shares e.share).b else e.b
def roleB (s : State) (p : Nat) : RoleB :=
  let e := s.entry p
  if e.pstate = .shared then (FMap.find Share.free s.tide.shares e.share).role else e.role

/-! ## VERSION and the tweak (R204, R229, R272) -/

/-- The VERSION that governs a page's copies. -/
def versionOf (s : State) (p : Nat) : BitVec 32 :=
  let e := s.entry p
  if e.pstate = .shared then (FMap.find Share.free s.tide.shares e.share).version else e.version

/-- The page number that a page's extents are encrypted under. -/
def tweakPage (s : State) (p : Nat) : Nat :=
  let e := s.entry p
  if e.pstate = .shared then (FMap.find Share.free s.tide.shares e.share).page else if e.under = 0 then p else e.under - 1

/-- The tweak of an AES-256-XTS data unit: page number, granule index and tweak version, with all other bits zero (R204). -/
def tweakOf (page idx ver : Nat) : Nat := page % 2 ^ 28 + idx % 2 ^ 10 * 2 ^ 28 + ver % 2 ^ 32 * 2 ^ 38

/-- The tweak of granule i of a copy of a page: its tweak version is VERSION − VDELTA. -/
def tweak (s : State) (p : Nat) (c : Copy) (i : Nat) : Nat :=
  tweakOf (s.tweakPage p) i ((s.versionOf p).toNat + 2 ^ 32 - c.vdelta)

/-- Granule i of a copy of a page with its place and its tweak, as a write of it. -/
def granAt (s : State) (p : Nat) (c : Copy) (v0 i : Nat) (x : Gran) : GW :=
  ⟨c.key i, x, if x.poison then 0 else v0, if x.poison then 0 else s.tweak p c i⟩

/-- The tweaks of a copy's granules, by their places. -/
def keyTweaks (s : State) (p : Nat) (c : Copy) : List (Nat × Nat) :=
  if c.tier = 0 then [] else (List.range c.len).map (fun i => (c.key i, s.tweak p c i))

/-! ## Metadata in the near tier (R219, R553; the places within a stack are DESIGN CHOICE, log 10) -/

/-- The near granule that holds entry p of the tide map, two to a granule, and slot p of the index store. -/
def mapKey (p : Nat) : Nat := gkey 1 (p % 8 * 2 ^ 35 + p / 16)
def idxSlotKey (p : Nat) : Nat := gkey 1 (p % 8 * 2 ^ 35 + 2 ^ 24 + p / 8)

/-! ## Decode (R486–R491) -/

/-- Whether a key lies in the far tier. -/
def farKey (k : Nat) : Bool := keyTier k == 2

/-- The outcome of decoding a stored granule under the V0 that the access expects; `extra` are symbol errors that this read
alone meets. -/
def decodeAt (s : State) (k : Nat) (extra : List SymErr) (v0 : Nat) : DecOut :=
  let g := s.gmeta k
  let errs : ErrPat := (g.errs ++ extra).map (fun e => (e.sym.val, e.val))
  if g.poison then
    if errs.isEmpty then .poisoned else decodeErr (farKey k) (poisonPat (farKey k) ++ errs)
  else
    let tag : ErrPat := if g.v0 = v0 then [] else [(40, BitVec.ofNat 16 (g.v0 ^^^ v0))]
    if errs.isEmpty && tag.isEmpty then .clean else decodeErr (farKey k) (errs ++ tag)

/-- Whether an outcome passes data on. -/
def outGood : DecOut → Bool
  | .clean => true
  | .corrected _ => true
  | _ => false

/-- Whether a metadata granule, which is written under V0 = 0, gives its record as good (R500, Table 10-3). -/
def metaGood (s : State) (k : Nat) : Bool := outGood (s.decodeAt k [] 0)

/-! ## What a copy stores -/

/-- The newest write of a granule in its channel's write queue (R448). -/
def queued (s : State) (k : Nat) : Option GW :=
  ((s.chan (chanOf k)).wq.flatMap (fun a => a.wr)).reverse.find? (fun w => w.key == k)

/-- The tweak that a granule as a read finds it is encrypted under. -/
def seenTweak (s : State) (k : Nat) : Nat :=
  match (if keyTier k = 3 then none else s.queued k) with
  | some w => w.tweak
  | none => (s.gmeta k).tweak

/-- The tweak of the granule of a page's copies at a place; elsewhere the one it carries. -/
def tweakFor (s : State) (p k : Nat) : Nat :=
  match (s.keyTweaks p (s.copyA p) ++ s.keyTweaks p (s.copyB p)).find? (fun e => e.1 == k) with
  | some e => e.2
  | none => s.seenTweak k

/-- A granule as a read finds it now: the write queue's data, or what DRAM or lent memory stores. -/
def seenGran (s : State) (k : Nat) : Gran :=
  match (if keyTier k = 3 then none else s.queued k) with
  | some w => w.gran
  | none => ⟨s.memGran k, (s.gmeta k).poison⟩

/-- The index granule of a compressed copy: a near copy's own granule 0, else the index store's copy (R220). -/
def indexGran (s : State) (c : Copy) : Gran :=
  if c.tier = 1 then s.seenGran (c.key 0)
  else match s.tide.idxStore.find? (fun e => e.1 == c.key 0) with
    | some e => e.2
    | none => s.seenGran (c.key 0)

/-- Whether the index granule of a compressed copy cannot be read: it is poisoned, or it is fetched into the index cache and a near
copy's own granule does not decode (R188). -/
def indexBad (s : State) (m : Mode) (c : Copy) : Bool :=
  !s.tide.idxCache.contains (c.key 0)
    && ((s.indexGran c).poison || (c.tier == 1 && (s.queued (c.key 0)).isNone && !outGood (s.decodeAt (c.key 0) [] (v0Of m))))

/-- The index entries of a compressed copy. -/
def indexOf (s : State) (c : Copy) : List IdxEnt := idxOf (s.indexGran c).bytes

/-- The index granule of an extent outside the near tier is written: so is its copy in the index store (R220). -/
def storeIndex (s : State) (c : Copy) (x : Gran) : State :=
  if c.tier ≤ 1 ∨ !c.comp then s else { s with tide := { s.tide with idxStore := FMap.put s.tide.idxStore (c.key 0) x } }

/-- Use an entry of a cache of n entries: it becomes the most recently used, and the least recently used gives way (Table 01-4). -/
def cacheUse (n : Nat) (xs : List Nat) (k : Nat) : List Nat :=
  let ys := xs.filter (· != k) ++ [k]
  ys.drop (ys.length - n)

/-- A lookup of a page's entry in the tide map cache, and of a compressed copy's index granule in the index cache (step 6). -/
def cachePage (s : State) (p : Nat) : State := { s with tide := { s.tide with mapCache := cacheUse 393216 s.tide.mapCache p } }
def cacheIndex (s : State) (m : Mode) (c : Copy) : State :=
  if c.comp && !s.indexBad m c then { s with tide := { s.tide with idxCache := cacheUse 65536 s.tide.idxCache (c.key 0) } } else s

/-- A clean entry of the tide map cache or of the index cache is discarded (R498). -/
def uncachePage (s : State) (p : Nat) : State := { s with tide := { s.tide with mapCache := s.tide.mapCache.erase p } }
def uncacheIndex (s : State) (c : Copy) : State := { s with tide := { s.tide with idxCache := s.tide.idxCache.erase (c.key 0) } }

/-- Whether a slot is in use with a format (check 4 of Table 04-7). -/
def slotOk (s : State) (fmt n : Nat) : Bool :=
  let t := s.tab n
  (t.st == .dflt || t.st == .inUse || t.st == .reserved) && t.format == fmt

/-- The extent granules, by their index, that hold native granule g (0–1,023) of a page: its own in a raw copy; those that overlap its
sub-stream in a CODED block (R167); none for a ZERO block or one that fails a check. -/
def granIdxs (s : State) (m : Mode) (c : Copy) (g : Nat) : List Nat :=
  if c.tier = 0 then []
  else if !c.comp then [g]
  else
    let es := s.indexOf c
    let blk := g / 64
    let e := es.getD blk ⟨0, 0, 2, 0⟩
    if (idxCheck es c.len (s.slotOk m.format) blk).isSome || e.kind = 2 then []
    else if e.kind = 1 then [e.off + g % 64]
    else
      let j := g % 64 / 4
      let lo := 4 * e.len * j
      let hi := 4 * e.len * (j + 1) - 1
      (List.range (hi / 64 + 1 - lo / 64)).map (fun i => e.off + lo / 64 + i)

/-- The same granules by their places. -/
def granKeys (s : State) (m : Mode) (c : Copy) (g : Nat) : List Nat := (s.granIdxs m c g).map c.key

/-- What native granule g of a page holds, given the stored granules `got`, and the damage check that failed, if any. -/
def nativeGran (s : State) (m : Mode) (c : Copy) (got : List (Nat × Gran)) (g : Nat) : Gran × Option Nat :=
  let stored (k : Nat) : Gran := ((got.find? (fun x => x.1 == k)).map (·.2)).getD Gran.zero
  if c.tier = 0 then (Gran.zero, none)
  else if !c.comp then (stored (c.key g), none)
  else if s.indexBad m c then (Gran.bad, none)
  else
    let es := s.indexOf c
    let blk := g / 64
    let e := es.getD blk ⟨0, 0, 2, 0⟩
    match idxCheck es c.len (s.slotOk m.format) blk with
    | some k => (Gran.bad, some k)
    | none =>
      if e.kind = 2 then (Gran.zero, none)
      else if e.kind = 1 then (stored (c.key (e.off + g % 64)), none)
      else
        let ks := s.granKeys m c g
        let gs := ks.map stored
        if gs.any (·.poison) then (Gran.bad, none)
        else
          let j := g % 64 / 4
          let lo := 4 * e.len * j
          match decodeSub m.format (s.tab e.slot).lens (slice (gs.flatMap (·.bytes)) (lo % 64) (4 * e.len)) (4 * e.len) with
          | .error k => (Gran.bad, some k)
          | .ok raw => (⟨slice raw (64 * (g % 4)) 64, false⟩, none)

end State

end Sys2Proof.Machine
end

