-- ==== Sys2Proof/Machine/Records.lean ====
section
/-! DEFINITION. The records of the near tier's metadata areas as bytes, with their check words, and what a read of one finds (R226, R227,
R345, R351, Table 10-3). The model keeps the records as data; these are the bytes that they stand for (log 10). -/

namespace Sys2Proof.Machine

/-- The code of a page state (Table 05-4), and of ROLE_B (Table 05-2). -/
def PState.code : PState → Nat
  | .unwritten => 0 | .resident => 1 | .copying => 2 | .draining => 3 | .shared => 4 | .faulted => 5
def RoleB.code : RoleB → Nat
  | .none => 0 | .mirror => 1 | .lower => 2

/-- Fields of a record, each at its bit and of its width. -/
def packBits (fs : List (Nat × Nat × Nat)) : Nat := (fs.map (fun f => f.2.2 % 2 ^ f.2.1 * 2 ^ f.1)).sum

/-- A tide map entry's bytes 0–27 (Table 05-2). -/
def TEntry.fields (e : TEntry) : List Byte :=
  let flag (b : Bool) : Nat := if b then 1 else 0
  leBytes 28 (packBits [(0, 38, if e.pstate = .shared then e.share else e.a.loc), (38, 38, e.b.loc), (76, 28, e.a.cont), (104, 28, e.b.cont),
    (132, 11, e.a.len), (143, 11, e.b.len), (154, 2, e.a.tier), (156, 2, e.b.tier), (158, 1, flag e.a.comp), (159, 1, flag e.b.comp),
    (160, 2, e.role.code), (162, 3, e.pstate.code), (168, 32, e.version.toNat), (200, 8, e.acc), (208, 8, e.epoch),
    (216, 4, e.a.vdelta), (220, 4, e.b.vdelta)])

/-- The entry's 32 bytes with CHECK (R226). -/
def TEntry.bytes (e : TEntry) : List Byte := e.fields ++ leBytes 4 (crc32c e.fields).toNat

/-- A backing record's bytes 0–27: its line, and the entry's bits from STATE to CLASS (R345, Table 06-4); it is neither BUSY nor waiting. -/
def DEntry.fields (l : Nat) (e : DEntry) : List Byte :=
  let st := match e.st with | .uncached => 0 | .shared => 1 | .exclusive => 2 | .home => 3
  let ptrs := (e.l2.zipIdx.map (fun x => (124 + 6 * x.2, 6, x.1.toNat)))
  leBytes 28 (packBits ([(21, 2, st), (24, 18, e.owner.toNat), (42, 1, if e.ownLocal then 1 else 0), (43, 17, e.l0.toNat),
    (60, 64, e.l1.toNat)] ++ ptrs.take 4 ++ [(148, 3, e.l2.length), (151, 1, if e.bcast then 1 else 0), (161, 6, e.cls), (184, 37, l)]))

/-- The record's 32 bytes with its CRC. -/
def DEntry.record (l : Nat) (e : DEntry) : List Byte := e.fields l ++ leBytes 4 (crc32c (e.fields l)).toNat

/-- Whether 32 bytes pass their check: an all-zero record is exempt (R227, R345). -/
def recordOk (bs : List Byte) : Bool := bs.all (· == 0) || leNat (slice bs 28 4) == (crc32c (bs.take 28)).toNat

namespace State

/-- The near granules of share record i, and of granule g (0–3) of copy A or B of a backing bucket, in the order of Table 05-1 behind the
index store (R345, R553; DESIGN CHOICE of the places, log 10). -/
def shareKey (i : Nat) : Nat := gkey 1 (i % 8 * 2 ^ 35 + 3 * 2 ^ 24 + i / 8)
def bucketKey (b : Nat) (second : Bool) (g : Nat) : Nat :=
  let stack := if second then (b + 4) % 8 else b % 8
  gkey 1 (stack * 2 ^ 35 + 3 * 2 ^ 24 + 8192 + (if second then 2 ^ 24 else 0) + b / 8 * 4 + g)

/-- Records read from a metadata granule, which is written under V0 = 0: whether each passes its check, and whether symbols were corrected. A
granule that decodes to another code word gives open bytes, and one that does not decode fails (Table 10-3). -/
def readRecords (s : State) (k : Nat) (recs : List (List Byte)) : Bool × Bool × State :=
  match s.decodeAt k [] 0 with
  | .clean => (recs.all recordOk, false, s)
  | .corrected true => (recs.all recordOk, true, s)
  | .corrected false =>
    let open_ (i : Nat) : List Byte := (List.range 32).map (fun j => Config.garbledByte (64 * s.dev.fresh + 32 * i + j))
    (recordOk (open_ 0) && recordOk (open_ 1), true, { s with dev := { s.dev with fresh := s.dev.fresh + 1 } })
  | _ => (false, false, s)

end State

end Sys2Proof.Machine
end

