-- ==== Sys2Proof/Machine/Resolve.lean ====
section
/-! DEFINITION. Step 4 of the request path: the region of an address, masks, realms, views and opcode legality (R113–R117,
R142, R143, R304, R385), and the granules that a request touches (R206). -/

namespace Sys2Proof.Machine

/-- Bytes of a plain view's element (Table 03-1 view codes); MXFP8 views store one byte an element. -/
def viewBytes (v : Nat) : Nat := if v = 1 ∨ v = 2 then 2 else 1

/-- Whether a view code is an MXFP8 view. -/
def isMx (v : Nat) : Bool := v == 5 || v == 6

/-- Element bytes of a native format; OPAQUE has no elements and no views. -/
def elemBytes (fmt : Nat) : Nat := if fmt = 0 then 1 else (fmtOf fmt).n

/-- The view length (R205). -/
def viewLen (m : Mode) (v : Nat) : Nat :=
  let e := m.len / elemBytes m.format
  if isMx v then e + e / 32 else e * viewBytes v

/-- The view that a selector names. -/
def Mode.view (m : Mode) (sel : Nat) : Nat := if sel = 1 then m.viewA else m.viewB

/-- Native bytes behind a view offset (R206): whether it is a scale line, the native start and the length, for a read of
`width` view bytes. -/
def viewSource (m : Mode) (v off width : Nat) : Bool × Nat × Nat :=
  let d := off - m.base
  let n := elemBytes m.format
  let e := m.len / n
  if isMx v ∧ e ≤ d then
    let first := (d - e) - (d - e) % 128
    (true, m.base + first * 32 * n, 4096 * n)
  else
    let b := viewBytes v
    (false, m.base + (d / b) * n, (width / b) * n)

/-- The effective coherence: SEALED_SHARED in SEALING and SEALED (Table 03-7, rank 1). -/
def Region.coh (r : Region) : Nat := if r.st = .sealing ∨ r.st = .sealed then 2 else r.mode.coh

/-- REGION_MODE_LIVE (Table 03-2); 0 for a FREE region (R120). -/
def Region.live (r : Region) : Nat :=
  let m := r.mode
  if r.st = .free then 0
  else r.st.code + m.format * 2 ^ 3 + m.tier * 2 ^ 6 + (if m.lent then 2 ^ 9 else 0) + m.comp * 2 ^ 10 + r.coh * 2 ^ 12
    + (if m.mirror then 2 ^ 14 else 0) + m.viewA * 2 ^ 15 + m.viewB * 2 ^ 18 + (if m.atom then 2 ^ 21 else 0) + m.cls * 2 ^ 22
    + m.realm * 2 ^ 28 + m.session * 2 ^ 36 + m.mask.toNat * 2 ^ 46

/-- A region as step 4 meets it: in the cycle of an installation, with what was in force before it (R125). -/
def Region.inForce (g : Region) (now : Nat) : Region := if g.was.1 = now + 1 then { g with st := g.was.2.1, mode := g.was.2.2 } else g

namespace State

/-- The device's own node ID in force (1101.01, a BOOT object). -/
def ownNode (s : State) : Nat := s.forced Obj.nodeId % 2 ^ 18

/-- The region whose native range holds an offset (R115), FREE regions apart. -/
def regionAt (s : State) (off : Nat) : Option (Nat × Region) :=
  s.ctl.regions.find? (fun e => e.2.st != .free && decide (e.2.mode.base ≤ off ∧ off < e.2.mode.base + e.2.mode.len))

/-- Whether a realm is ENABLED. -/
def realmOn (s : State) (r : Nat) : Bool := FMap.find 0 s.ctl.realms r == 1

/-- Whether a realm lies in a master's realm set (R527). -/
def inRealm (s : State) (r : Nat) (m : Src) : Bool :=
  s.realmOn r && bit (s.num (Obj.realmMask r)) (srcBit m) && bit (s.prevNum (Obj.realmMask r)) (srcBit m)

/-- Whether a write's addressed bytes lie below the declared ingest image (Table 03-8). -/
def belowIngest (m : Mode) (off n : Nat) : Bool := decide (off + n ≤ m.base + m.ingest)

/-- Table 03-8. `excl` says that the directory records the requester as exclusive holder of the line (R130). -/
def opLegal (r : Region) (op : ReqOp) (view off : Nat) (excl : Bool) : Bool :=
  let shut := r.st == .sealing || r.st == .sealed
  if view ≠ 0 then match op with
    | .read => true | .readOnce => true | .readHalf => true | .releaseClean => true | _ => false
  else if shut then match op with
    | .read => true | .readOnce => true | .readHalf => true | .releaseClean => true
    | .writeback _ => r.st == .sealing && excl
    | _ => false
  else if r.mode.comp = 3 then match op with
    | .write _ => belowIngest r.mode off 128
    | .writeMasked _ _ => belowIngest r.mode off 64
    | .releaseClean => true
    | _ => false
  else match op with
    | .writeback _ => r.mode.coh != 3
    | op => !op.isAlu || r.mode.atom

/-- The routes of a node: the object that names the port its snoops leave by (R305). -/
def routeKey (s : State) (node : Nat) : Nat :=
  if node / 4096 = s.ownNode / 4096 then Obj.groupRoute (node / 64 % 64) else Obj.podRoute (node / 4096)

/-- The three cases in which a relay's request is DENIED (R304). -/
def relayDenied (s : State) (p : Fin 16) (node : Nat) : Bool :=
  node == s.ownNode
  || (List.finRange 16).any (fun q => s.ports[q].state == .up && !bit s.ports[q].features.toNat 0 && s.ports[q].node.toNat == node)
  || s.num (s.routeKey node) != p.val

/-- Whether the directory records a request's origin as the line's exclusive owner. -/
def ownsLine (s : State) (r : Req) (l : Nat) : Bool :=
  let e := s.line l
  e.st == .exclusive && (match r.hdr.node with
    | some n => !e.ownLocal && e.owner == n.node
    | none => e.ownLocal && e.owner.toNat == (srcBit r.hdr.src))

/-- Step 4 (R142): the status that ends the request, or the region's number and mode set in force. -/
def resolve (s : State) (r : Req) : Status ⊕ Mode :=
  let a := r.hdr.addr
  let v := addrView a
  let off := addrOff a
  if addrNode a ≠ s.ownNode then .inl .unmapped
  else if v = 3 then .inl .unsupported
  else match s.regionAt off with
    | none => .inl .unmapped
    | some (_, g0) =>
      let g := g0.inForce s.dev.now
      if g.st = .free ∨ g.st = .retiring then .inl .unmapped
      else if (match r.hdr.src, r.hdr.node with | .port p, some n => s.relayDenied p n.node.toNat | _, _ => false) then .inl .denied
      else if !g.mode.mask.getLsbD (srcBit r.hdr.src) then .inl .denied
      else if !s.inRealm g.mode.realm r.hdr.src then .inl .denied
      else if v ≠ 0 ∧ g.mode.view v = 0 then .inl .unsupported
      else if v ≠ 0 ∧ g.mode.base + viewLen g.mode (g.mode.view v) ≤ off then .inl .unmapped
      else if !opLegal g r.op v off (s.ownsLine r (lineOf off)) then .inl .modeConflict
      else .inr { g.mode with coh := g.coh, ro := g.st != .open }

end State

/-- Native granule numbers (offset / 64) that a request touches: its line, its half-line or granule, or the native bytes
behind a view (R206, R208). -/
def Req.grans (r : Req) (m : Mode) : List Nat :=
  let off := addrOff r.hdr.addr
  let v := addrView r.hdr.addr
  if v ≠ 0 then
    let width := match r.op with | .readHalf => 64 | _ => 128
    let src := viewSource m (m.view v) off width
    let lo := src.2.1 / 64
    (List.range ((src.2.1 + src.2.2 + 63) / 64 - lo)).map (lo + ·)
  else match r.op with
    | .readHalf => [off / 64]
    | .writeMasked _ _ => [off / 64]
    | _ => [off / 128 * 2, off / 128 * 2 + 1]

/-- Native lines that a request touches (R801). -/
def Req.lines (r : Req) (m : Mode) : List Nat := ((r.grans m).map (· / 2)).eraseDups

/-- The lines of a request that step 4 has let through: its line, or the native lines behind its view (R801). -/
def Req.ownLines (r : Req) : List Nat :=
  match r.mode with
  | some m => if addrView r.hdr.addr = 0 then [r.line] else r.lines m
  | none => [r.line]

end Sys2Proof.Machine
end

