-- ==== Sys2Proof/Machine/Formats.lean ====
section
/-! DEFINITION. Number formats: what a bit pattern means, rounding to a format, floating-point addition (R377–R380), the
stochastic generator (R379), and the view conversions (R210, R211). -/

namespace Sys2Proof.Machine

/-- What a floating-point bit pattern means: a NaN with its mantissa, an infinity, or m × 2^e. -/
inductive Fl where
  | nan (neg : Bool) (mant : Nat)
  | inf (neg : Bool)
  | fin (neg : Bool) (m : Nat) (e : Int)
  deriving DecidableEq, Repr

/-- A binary format: exponent bits, mantissa bits, and whether it follows E4M3's rules (no infinity, one NaN). -/
structure FFmt where
  eb   : Nat
  mb   : Nat
  e4m3 : Bool
  deriving DecidableEq, Repr

def ffBf16 : FFmt := ⟨8, 7, false⟩
def ffFp16 : FFmt := ⟨5, 10, false⟩
def ffFp32 : FFmt := ⟨8, 23, false⟩
def ffE4m3 : FFmt := ⟨4, 3, true⟩
def ffE5m2 : FFmt := ⟨5, 2, false⟩

/-- The exponent bias and the exponent of the least normal number. -/
def FFmt.bias (f : FFmt) : Int := 2 ^ (f.eb - 1) - 1
def FFmt.emin (f : FFmt) : Int := 1 - f.bias

/-- The bits of the greatest finite magnitude. -/
def FFmt.maxBits (f : FFmt) : Nat := if f.e4m3 then 0x7E else (2 ^ f.eb - 1) * 2 ^ f.mb - 1

/-- The sign bit's place. -/
def FFmt.signBit (f : FFmt) : Nat := f.eb + f.mb

/-- What a pattern means. -/
def FFmt.unpack (f : FFmt) (x : Nat) : Fl :=
  let neg := bit x f.signBit
  let ex := bits x (f.signBit - 1) f.mb
  let man := x % 2 ^ f.mb
  if f.e4m3 then
    if ex = 15 ∧ man = 7 then .nan neg man
    else if ex = 0 then .fin neg man (f.emin - f.mb)
    else .fin neg (2 ^ f.mb + man) (f.emin - f.mb + (ex - 1 : Nat))
  else if ex = 2 ^ f.eb - 1 then if man = 0 then .inf neg else .nan neg man
  else if ex = 0 then .fin neg man (f.emin - f.mb)
  else .fin neg (2 ^ f.mb + man) (f.emin - f.mb + (ex - 1 : Nat))

/-- floor(log2 of m × 2^e) for m > 0. -/
def flLog (m : Nat) (e : Int) : Int := (Nat.log2 m : Int) + e

/-- m × 2^e divided by 2^q: the quotient and whether the remainder is zero, below, at or above the half (0, 1, 2, 3). -/
def quantum (m : Nat) (e q : Int) : Nat × Nat :=
  if q ≤ e then (m * 2 ^ (e - q).toNat, 0)
  else
    let d := 2 ^ (q - e).toNat
    (m / d, if m % d = 0 then 0 else if 2 * (m % d) < d then 1 else if 2 * (m % d) = d then 2 else 3)

/-- Magnitude bits of m × 2^e, m > 0, rounded to nearest even; a value past the greatest finite gives more than `maxBits`. -/
def FFmt.roundMag (f : FFmt) (m : Nat) (e : Int) : Nat :=
  let ex := max (flLog m e) f.emin
  let r := quantum m e (ex - f.mb)
  let q := r.1 + if r.2 = 3 ∨ (r.2 = 2 ∧ r.1 % 2 = 1) then 1 else 0
  (ex - f.emin).toNat * 2 ^ f.mb + q

/-- A sign and a magnitude as a pattern. -/
def FFmt.pack (f : FFmt) (neg : Bool) (mag : Nat) : Nat := (if neg then 2 ^ f.signBit else 0) + mag

/-- The pattern of infinity (not for E4M3). -/
def FFmt.infMag (f : FFmt) : Nat := (2 ^ f.eb - 1) * 2 ^ f.mb

/-- Round to nearest even, overflow to infinity (IEEE 754). -/
def FFmt.roundInf (f : FFmt) (neg : Bool) (m : Nat) (e : Int) : Nat :=
  if m = 0 then f.pack neg 0 else
  let g := f.roundMag m e
  f.pack neg (if f.maxBits < g then f.infMag else g)

/-- Round to nearest even, overflow to the greatest finite value. -/
def FFmt.roundSat (f : FFmt) (neg : Bool) (m : Nat) (e : Int) : Nat :=
  if m = 0 then f.pack neg 0 else f.pack neg (min (f.roundMag m e) f.maxBits)

/-- The exact sum of two finite values: sign, magnitude and exponent. -/
def exactSum (n1 : Bool) (m1 : Nat) (e1 : Int) (n2 : Bool) (m2 : Nat) (e2 : Int) : Bool × Nat × Int :=
  let e := min e1 e2
  let a : Int := (m1 * 2 ^ (e1 - e).toNat : Nat)
  let b : Int := (m2 * 2 ^ (e2 - e).toNat : Nat)
  let s := (if n1 then -a else a) + (if n2 then -b else b)
  (decide (s < 0), s.natAbs, e)

/-- Addition by Table 07-4, rounding a non-zero exact sum by `rnd`; `a` is the line's value. -/
def FFmt.addWith (f : FFmt) (rnd : Bool → Nat → Int → Nat) (a b : Nat) : Nat :=
  let quiet (x : Nat) : Nat := if bit x (f.mb - 1) then x else x + 2 ^ (f.mb - 1)
  match f.unpack a, f.unpack b with
  | .nan _ _, _ => quiet a
  | _, .nan _ _ => quiet b
  | .inf n1, .inf n2 => if n1 = n2 then a else f.infMag + 2 ^ (f.mb - 1)
  | .inf _, .fin _ _ _ => a
  | .fin _ _ _, .inf _ => b
  | .fin n1 m1 e1, .fin n2 m2 e2 =>
    let s := exactSum n1 m1 e1 n2 m2 e2
    if s.2.1 = 0 then f.pack (n1 && n2 && m1 == 0 && m2 == 0) 0
    else rnd s.1 s.2.1 s.2.2

/-- FP32 addition (R377). -/
def fp32Add (a b : Nat) : Nat := ffFp32.addWith ffFp32.roundInf a b

/-- One step of the stochastic generator (R379). -/
def srStep (s : BitVec 64) : BitVec 64 :=
  let b := (s.getLsbD 63) ^^ (s.getLsbD 62) ^^ (s.getLsbD 60) ^^ (s.getLsbD 59)
  (s <<< 1) ||| (if b then 1#64 else 0#64)

/-- draw16: the generator after 16 steps; the draw is its low 16 bits. -/
def srDraw (s : BitVec 64) : BitVec 64 := (List.range 16).foldl (fun s _ => srStep s) s

/-- Stochastic rounding of a non-zero exact sum to BF16 with the draw u (R378). -/
def bf16Stoch (u : Nat) (neg : Bool) (m : Nat) (e : Int) : Nat :=
  let f := ffBf16
  if 128 ≤ flLog m e then f.pack neg f.infMag
  else
    let ex := max (flLog m e) f.emin
    let t0 := (ex - f.emin).toNat * 2 ^ f.mb + (quantum m e (ex - f.mb)).1
    let t := min t0 f.maxBits
    let tm : Nat := (quantum m e (ex - f.mb)).1
    -- (|s| − |t|) × 65536 / ulp, with ulp = 2^(ex − 7) and |t| = tm × ulp
    let r16 := (quantum m e (ex - f.mb - 16)).1 - tm * 65536
    f.pack neg (if u < r16 then t + 1 else t)

/-- BF16 addition: nearest even, or stochastic with a draw. -/
def bf16Add (a b : Nat) (draw : Option Nat) : Nat :=
  match draw with
  | none => ffBf16.addWith ffBf16.roundInf a b
  | some u => ffBf16.addWith (bf16Stoch u) a b

/-! ## Views (R210, R211) -/

/-- The floating-point format of a native format code; INT8 and OPAQUE have no views. -/
def nativeFF (fmt : Nat) : FFmt :=
  match fmt with
  | 1 => ffBf16 | 2 => ffFp16 | 3 => ffFp32 | 4 => ffE4m3 | _ => ffE5m2

/-- The element format of a view code. -/
def viewFF (v : Nat) : FFmt :=
  match v with
  | 1 => ffBf16 | 2 => ffFp16 | 3 => ffE4m3 | 5 => ffE4m3 | _ => ffE5m2

/-- Convert one element to a plain view (Table 04-9). `sat` is 5001.04 `VIEW_OVERFLOW`. -/
def viewElem (src : FFmt) (v : Nat) (sat : Bool) (x : Nat) : Nat :=
  let t := viewFF v
  if v = 1 ∨ v = 2 then
    match src.unpack x with
    | .nan n man =>
      let top := if src.mb ≤ t.mb then man * 2 ^ (t.mb - src.mb) else man / 2 ^ (src.mb - t.mb)
      t.pack n (t.infMag + (top ||| 2 ^ (t.mb - 1)))
    | .inf n => t.pack n t.infMag
    | .fin n m e => if sat then t.roundSat n m e else t.roundInf n m e
  else
    match src.unpack x with
    | .nan n _ => if n then 0xFF else 0x7F
    | .inf n => if v = 3 then t.pack n t.maxBits else t.pack n t.infMag
    | .fin n m e => t.roundSat n m e

/-- Elements of native bytes. -/
def nativeElems (fmt : Nat) (bs : List Byte) : List Nat :=
  (List.range (bs.length / elemBytes fmt)).map (fun i => leNat (slice bs (i * elemBytes fmt) (elemBytes fmt)))

/-- A magnitude comparison key of finite elements: a ≥ b. -/
def flGe (a b : Nat × Int) : Bool :=
  let e := min a.2 b.2
  decide (b.1 * 2 ^ (b.2 - e).toNat ≤ a.1 * 2 ^ (a.2 - e).toNat)

/-- One MX block of 32 elements (R211): the scale byte and the elements. -/
def mxBlock (src : FFmt) (v : Nat) (xs : List Nat) : Nat × List Nat :=
  let t := viewFF v
  let emax : Int := if v = 5 then 8 else 15
  let us := xs.map src.unpack
  if us.any (fun u => match u with | .fin _ _ _ => false | _ => true) then (0xFF, xs.map (fun _ => 0x7F))
  else
    let a := us.foldl (fun (b : Nat × Int) u => match u with | .fin _ m e => if flGe (m, e) b then (m, e) else b | _ => b) (0, 0)
    if a.1 = 0 then (0, us.map (fun u => match u with | .fin n _ _ => t.pack n 0 | _ => 0))
    else
      let k := max (flLog a.1 a.2 - emax) (-127)
      ((k + 127).toNat, us.map (fun u => match u with | .fin n m e => t.roundSat n m (e - k) | _ => 0))

/-- Split a list in runs of n. -/
def chunks (n : Nat) : Nat → List Nat → List (List Nat)
  | 0, _ => []
  | k + 1, xs => xs.take n :: chunks n k (xs.drop n)

/-- An element line of a view from its native bytes (R207, R210), and a scale line. -/
def viewLine (fmt v : Nat) (sat : Bool) (native : List Byte) : List Byte :=
  let xs := nativeElems fmt native
  if isMx v then (chunks 32 (xs.length / 32) xs).flatMap (fun b => (mxBlock (nativeFF fmt) v b).2.flatMap (leBytes 1))
  else xs.flatMap (fun x => leBytes (viewBytes v) (viewElem (nativeFF fmt) v sat x))
def scaleLine (fmt v : Nat) (native : List Byte) : List Byte :=
  let xs := nativeElems fmt native
  (chunks 32 (xs.length / 32) xs).flatMap (fun b => leBytes 1 (mxBlock (nativeFF fmt) v b).1)

end Sys2Proof.Machine
end

