-- ==== Sys2Proof/Machine/Access.lean ====
section
/-! DEFINITION. Shared operations of the request path: delivering a completion, the requests at DRAM queues, holders of a
line, snoops and transactions. -/

namespace Sys2Proof.Machine

namespace State

/-! ## Credits that return (R70, R82) -/

/-- Message units leave the receive buffer of a port: their credits return, REQ credits at R82's rate in INIT and HOLD. -/
def returnUnits (s : State) (p : Fin 16) (vc : VC) (n : Nat) : State :=
  let slow := s.dev.state = .init ∨ s.dev.state = .hold
  s.updPort p (fun x => match vc with
    | .req =>
      let x := { x with rxHeld := { x.rxHeld with req := x.rxHeld.req - n } }
      if slow then { x with owedRet := x.owedRet + n } else { x with pendRet := { x.pendRet with req := x.pendRet.req + n } }
    | .rsp => { x with rxHeld := { x.rxHeld with rsp := x.rxHeld.rsp - n }, pendRet := { x.pendRet with rsp := x.pendRet.rsp + n } }
    | .snp => { x with rxHeld := { x.rxHeld with snp := x.rxHeld.snp - n }, pendRet := { x.pendRet with snp := x.pendRet.snp + n } }
    | .mgmt =>
      { x with rxHeld := { x.rxHeld with mgmt := x.rxHeld.mgmt - n }, pendRet := { x.pendRet with mgmt := x.pendRet.mgmt + n } })

/-- Message units enter the receive buffer of a port. -/
def holdUnits (s : State) (p : Fin 16) (vc : VC) (n : Nat) : State :=
  s.updPort p (fun x => match vc with
    | .req => { x with rxHeld := { x.rxHeld with req := x.rxHeld.req + n } }
    | .rsp => { x with rxHeld := { x.rxHeld with rsp := x.rxHeld.rsp + n } }
    | .snp => { x with rxHeld := { x.rxHeld with snp := x.rxHeld.snp + n } }
    | .mgmt => { x with rxHeld := { x.rxHeld with mgmt := x.rxHeld.mgmt + n } })

/-- A link request leaves the receive buffer. -/
def leaveRx (s : State) (r : Req) : State :=
  match r.via, r.hdr.src with
  | .link, .port p => s.returnUnits p .req (r.op.units r.hdr)
  | _, _ => s

/-! ## Completions (R29, R101, R415) -/

/-- The waiting order of a line's or a page's requests. -/
def byGrant (rs : List Req) : List Req := rs.mergeSort (fun a b => a.gseq ≤ b.gseq)

/-- Put a request on the work list, to continue from a step (5, 6 or 7). -/
def wake (s : State) (id step : Nat) : State := { s with path := { s.path with work := s.path.work ++ [(id, step)] } }

/-- Wake every request in a stage that a test accepts, in grant order. -/
def wakeAll (s : State) (step : Nat) (p : Req → Bool) : State :=
  (byGrant (s.path.reqs.filter p)).foldl (fun s r => s.wake r.id step) s

/-- Stage a link completion at its port. A port fenced after failed training discards it, and its tag moves from the PENDING
bitmap to the LOST bitmap (R101). -/
def stageLink (s : State) (p : Fin 16) (tag : BitVec 12) (c : Cpl) (line : Option Nat) (slot : Option (Nat × Bool)) : State :=
  s.updPort p (fun x =>
    if x.state = .fenced ∧ x.fence = .training then
      { x with discarded := x.discarded + 1, lost := if x.pending.contains tag then x.lost ++ [tag] else x.lost
               pending := x.pending.filter (· != tag) }
    else { x with ready := x.ready ++ [c.msg .rsp tag line slot] })

/-- The WRITEBACK that a transaction waited for is written home, or its data is lost: WB_WAIT ends (R323). -/
def wbDone (s : State) (l : Nat) : State :=
  match s.txn l with
  | some t =>
    ({ s with dir := { s.dir with snoops := s.dir.snoops.filter (fun x => !(x.line == l && x.waitWb)) } }).setTxn l
      (some { t with wbWait := false })
  | none => s

/-- Complete a request: its completion goes where the request came from, and its slot is freed. -/
def finish (s : State) (r : Req) (c : Cpl) : State :=
  let s : State := if r.via = .internal then s
    else s.trace 6 (srcBit r.hdr.src) r.cls (some (r.hdr.addr.toNat % 2 ^ 44)) c.status.code r.hdr.tag.toNat r.hdr.addr.toNat
      ((s.dev.now - r.arrived) / 2)
  let s : State := s.dropReq r.id
  let s := if r.wbFor then s.wbDone r.line else s
  let line := if c.grant = 0 then none else some r.line
  match r.via, r.hdr.src with
  | .link, .port p => s.stageLink p r.hdr.tag c line (if r.stage = .waiting then none else some (r.cls, r.pool))
  | .internal, _ => s
  | v, _ => { s with path := { s.path with epDone := s.path.epDone ++ [(v, c)] } }

/-- Complete a request with a status that carries no data (R13). -/
def finishPlain (s : State) (r : Req) (st : Status) (arg : Nat := 0) : State := s.finish r (Cpl.plain st arg)

/-! ## Directory entries (chapter 06) -/

/-- Bits [183:21] of an entry at their places (Table 06-4). -/
def entryBits (e : DEntry) (t : Option Txn) (line : Nat) : Nat :=
  let st := match e.st with | .uncached => 0 | .shared => 1 | .exclusive => 2 | .home => 3
  let ptr := ((List.range 4).map (fun i => ((e.l2.getD i 0).toNat) * 2 ^ (6 * i))).sum
  line / 2 ^ 16 + st * 2 ^ 21 + (if t.isSome then 2 ^ 23 else 0) + e.owner.toNat * 2 ^ 24
    + (if e.ownLocal then 2 ^ 42 else 0) + e.l0.toNat * 2 ^ 43 + e.l1.toNat * 2 ^ 60 + ptr * 2 ^ 124
    + e.l2.length * 2 ^ 148 + (if e.bcast then 2 ^ 151 else 0)
    + (match t with | some x => x.pend * 2 ^ 152 + (if x.wbWait then 2 ^ 160 else 0) | none => 0)
    + e.cls * 2 ^ 161

/-- The 192 bits of a line's entry with CHK in [191:184] (R309). -/
def entryWord (e : DEntry) (t : Option Txn) (line : Nat) : BitVec 192 :=
  BitVec.ofNat 192 (entryBits e t line) ||| (BitVec.ofNat 192 (crc8 184 (entryBits e t line)).toNat <<< 184)

/-- Copy A or copy B of a line's entry: its bits with what a test has altered in that copy (R347, R352). -/
def entryCopy (s : State) (second : Bool) (l : Nat) : BitVec 192 :=
  entryWord (s.line l) (s.txn l) l ^^^ FMap.find 0 (if second then s.dir.badB else s.dir.badA) l

/-- Whether a mask XORed onto an entry leaves its CHK valid: the code is linear, so the mask's own CHK must be 0. -/
def maskValid (m : BitVec 192) : Bool := crc8 192 m.toNat == 0#8

/-- HELD of the page census follows the entries (R334). -/
def censusHeld (s : State) (page : Nat) : Nat := (s.dir.ents.filter (fun e => e.1 / 512 == page)).length

/-- Write an entry to both copies (R347). An armed flip mask or split write alters this write, if it leaves the entry
allocated (R352); otherwise the copies are equal again. -/
def writeEntry (s : State) (l : Nat) (e : DEntry) : State :=
  let e := { e with cached := (s.line l).cached, used := s.path.useClock }
  let gone := e.st = .uncached ∧ (s.txn l).isNone
  let kept := if gone then DEntry.none else e
  let s := { s with
    path := { s.path with useClock := s.path.useClock + 1 }
    dir := { s.dir with
      ents := if gone then FMap.del s.dir.ents l else FMap.put s.dir.ents l kept
      badA := FMap.set 0 s.dir.badA l 0, badB := FMap.set 0 s.dir.badB l 0, swept := s.dir.swept.filter (· != l) } }
  if gone then s
  else
    let flip := s.num Obj.dirFlipMask
    let s := if flip = 0 then s else
      ({ s with dir := { s.dir with badA := FMap.set 0 s.dir.badA l (BitVec.ofNat 192 flip) } }).setNum Obj.dirFlipMask 0
    if s.num Obj.dirSplitWrite = 1 then
      ({ s with dir := { s.dir with badB := FMap.set 0 s.dir.badB l (BitVec.ofNat 192 (crc8 184 (entryBits e (s.txn l) l)).toNat <<< 184) } }).setNum
        Obj.dirSplitWrite 0
    else s

/-- A holder's record: level 0 by its bit, level 1 by its group, level 2 by its pod (Table 06-2). -/
inductive Rec where
  | l0 (i : Nat)
  | l1 (g : Nat)
  | l2 (p : Nat)
  deriving DecidableEq, Repr

/-- The record of a request's origin. -/
def recOf (s : State) (r : Req) : Rec :=
  match r.hdr.node with
  | some n => if n.node.toNat / 4096 = s.ownNode / 4096 then .l1 (n.node.toNat / 64 % 64) else .l2 (n.node.toNat / 4096)
  | none => .l0 (srcBit r.hdr.src)

/-- Add a holder (R310). -/
def addHolder (e : DEntry) : Rec → DEntry
  | .l0 i => { e with st := .shared, l0 := e.l0 ||| (1#17 <<< i) }
  | .l1 g => { e with st := .shared, l1 := e.l1 ||| (1#64 <<< g) }
  | .l2 p =>
    let q := BitVec.ofNat 6 p
    if e.l2.contains q then { e with st := .shared }
    else if e.l2.length < 4 then { e with st := .shared, l2 := e.l2 ++ [q] }
    else { e with st := .shared, bcast := true }

/-- An EXCLUSIVE entry of a request's origin. -/
def ownedBy (r : Req) (e : DEntry) : DEntry :=
  { e with st := .exclusive, l0 := 0, l1 := 0, l2 := [], bcast := false
           owner := match r.hdr.node with | some n => n.node | none => BitVec.ofNat 18 (srcBit r.hdr.src)
           ownLocal := r.hdr.node.isNone }

/-- An entry that records nothing. -/
def emptied (e : DEntry) : DEntry :=
  { e with st := .uncached, owner := 0, ownLocal := false, l0 := 0, l1 := 0, l2 := [], bcast := false }

/-- Whether a SHARED entry records anybody. -/
def anyHolder (e : DEntry) : Bool := e.l0 != 0 || e.l1 != 0 || !e.l2.isEmpty || e.bcast

/-- Remove a requester's record as its RELEASE_CLEAN would: an L0 bit, or an owner; levels 1 and 2 stay (R321, R803).
A running transaction that would leave the line with that owner leaves it with none. -/
def releaseRec (s : State) (r : Req) (l : Nat) : State :=
  let e := s.line l
  if e.st = .exclusive ∧ s.ownsLine r l then
    let s : State := match s.txn l with
      | some t =>
        if t.next.st == .exclusive && t.next.owner == e.owner && t.next.ownLocal == e.ownLocal then
          s.setTxn l (some { t with next := emptied t.next })
        else s
      | none => s
    s.writeEntry l (emptied e)
  else if e.st = .shared then match s.recOf r with
    | .l0 i =>
      let e1 := { e with l0 := e.l0 &&& ~~~(1#17 <<< i) }
      if e1 = e then s else s.writeEntry l (if anyHolder e1 then e1 else emptied e1)
    | _ => s
  else s

/-! ## Accesses at DRAM queues (R425, R443, R467) -/

/-- A request arrives at a channel: an idle self-refresh ends for it (R469, R470). -/
def arriveChan (s : State) (c : Nat) (a : Acc) : State :=
  let x := s.chan c
  let s := if x.sr = .idle ∨ x.sr = .exiting then
      if isFar c then s.bump (Obj.chSrWaits (c - 256)) else s
    else s
  s.setChan c { x with wait := x.wait ++ [{ a with since := s.dev.now }], sr := if x.sr = .idle then .exiting else x.sr }

/-- Put accesses for granules at their channels, one for each line that they lie in (R443). -/
def spread (s : State) (mk : List Nat → Acc) (keys : List Nat) : State :=
  (keys.map (· / 2)).eraseDups.foldl (fun s l =>
    let (i, s) := s.newId
    s.arriveChan (chanOf (2 * l)) { mk (keys.filter (fun k => k / 2 == l)) with id := i }) s

/-- Read granules for a request: DRAM granules at their channels, lent granules at the lender (R281). -/
def readGrans (s : State) (r : Req) (keys : List Nat) (purpose : Purpose) : State :=
  let dram := keys.filter (fun k => keyTier k != 3)
  let lent := keys.filter (fun k => keyTier k == 3)
  let s := s.spread (fun ks => ⟨0, false, some r.id, purpose, r.line, r.gseq, r.stamp, r.overdue, r.cls, ks, [], [], 0, 0⟩) dram
  (lent.map (fun k => keyLoc k / 2 ^ 32)).eraseDups.foldl (fun s g =>
    let (i, s) := s.newId
    { s with tide := { s.tide with lentRds := s.tide.lentRds ++ [⟨i, g, r.id, lent.filter (fun k => keyLoc k / 2 ^ 32 == g), .formed⟩] } }) s

/-- The lines that granule writes lie in. -/
def gwLines (ws : List GW) : List Nat := (ws.map (·.key / 2)).eraseDups

/-- Write granules at their channels on behalf of a request, one access for each line that they lie in (R443). -/
def writeGrans (s : State) (r : Req) (ws : List GW) : State :=
  (gwLines ws).foldl (fun s l =>
    let (i, s) := s.newId
    s.arriveChan (chanOf (2 * l))
      ⟨i, true, some r.id, .write, r.line, r.gseq, r.stamp, r.overdue, r.cls, [], [], ws.filter (fun w => w.key / 2 == l), 0, 0⟩) s

/-! ## The device's own requests (R404) -/

/-- The class values in force. -/
def classOf (s : State) (c : Nat) : ClassVals := FMap.find ClassVals.dflt s.ctl.water.cls c

/-- The stamp that a request of the device itself takes: its class's default deadline from now (R404, R423). -/
def ownStamp (s : State) (c : Nat) : Nat := (s.now16 + (s.classOf c).ddl) % 2 ^ 24

/-- Native granule g of a page as granule writes: to copy A, and to copy B of a mirrored page (R230). The copy is raw. -/
def granWrites (s : State) (m : Mode) (page g : Nat) (x : Gran) : List GW :=
  let a := s.copyA page
  let b := s.copyB page
  let wa : List GW := if a.tier = 0 ∨ s.keyFenced (a.key g) then [] else [s.granAt page a (v0Of m) g x]
  let wb : List GW := if s.roleB page = .mirror ∧ b.tier ≠ 0 ∧ !s.keyFenced (b.key g) then [s.granAt page b (v0Of m) g x] else []
  wa ++ wb

/-- Bytes under a byte mask, merged over a granule. -/
def mergeBytes (old new : List Byte) (mask : BitVec 64) : List Byte :=
  (List.range 64).map (fun i => if mask.getLsbD i then new.getD i 0 else old.getD i 0)

/-! ## Snoops and transactions (R311, R315) -/

/-- A snoop opcode's SOPC. -/
def sopc : SnpOp → Nat
  | .inv => 1 | .read => 2 | .recall => 3

/-- A fresh snoop tag of a master: the next in turn that is not outstanding (DESIGN CHOICE, log 11). -/
def snoopTag (s : State) (m : Src) : BitVec 12 × State :=
  let i := srcBit m
  let t0 := (((s.dir.nextTag.find? (fun e => e.1 == i)).map (·.2)).getD 0)
  let used := (s.dir.snoops.filter (fun x => x.master == m)).map (·.tag.toNat)
  let t := ((List.range 4096).find? (fun k => !used.contains ((t0 + k) % 4096))).getD 0
  let tag := (t0 + t) % 4096
  (BitVec.ofNat 12 tag, { s with dir := { s.dir with nextTag := FMap.put s.dir.nextTag i (tag + 1) } })

/-- Send one snoop of a line to a master; to a port it is a message in SNP (with a node unit on a relay port, R299), to the
endpoint an entry for the host snoop queue (R307, R582). -/
def sendSnoop (s : State) (m : Src) (line : Nat) (op : SnpOp) (level : Nat) (dest : BitVec 18) (scope : BitVec 2) : State :=
  let tag := (s.snoopTag m).1
  let s := (s.snoopTag m).2
  let s : State := { s with dir := { s.dir with snoops := s.dir.snoops ++ [⟨m, tag, line, op, level, dest, scope, false⟩] } }
  let s := if level = 0 then s.bump Obj.snoopsNode else if scope = 0 then s.bump Obj.snoopsNode
    else if level = 1 then s.bump Obj.snoopsGroup else s.bump Obj.snoopsPod
  match m with
  | .ep => s
  | .port p =>
    let hdr := [hdrUnit0 2 (sopc op) tag.toNat 0 0 false 0 0,
      BitVec.ofNat 64 (s.ownNode * 2 ^ 46 + line * 128)]
    let nu := if s.ports[p].relay then [nodeUnit ⟨dest, scope⟩] else []
    s.updPort p (fun x => { x with ready := x.ready ++ [⟨.snp, hdr ++ nu, none, some line, false, none⟩] })

/-- The port that a route object names. -/
def routePort (s : State) (key : Nat) : Option (Fin 16) :=
  let v := s.num key
  if h : v < 16 then some ⟨v, h⟩ else none

/-- A local master by its L0 bit. -/
def localMaster (i : Nat) : Src := if h : i < 16 then .port ⟨i, h⟩ else .ep

/-- Invalidate or recall an entry's holders: one snoop per L0 bit, per L1 bit and per pod, or one to the owner (R311, Table
06-6). Answers the number sent. -/
def snoopAll (s : State) (l : Nat) (e : DEntry) (op : SnpOp) : Nat × State :=
  if e.st = .exclusive then
    if e.ownLocal then (1, s.sendSnoop (localMaster e.owner.toNat) l op 0 e.owner 0)
    else match s.routePort (s.routeKey e.owner.toNat) with
      | some p => (1, s.sendSnoop (.port p) l op (if e.owner.toNat / 4096 = s.ownNode / 4096 then 1 else 2) e.owner 0)
      | none => (0, s)
  else
    let s0 := (List.range 17).foldl (fun (a : Nat × State) i =>
      if e.l0.getLsbD i then (a.1 + 1, a.2.sendSnoop (localMaster i) l .inv 0 0 0) else a) (0, s)
    let own := s.ownNode / 4096
    let s1 := (List.range 64).foldl (fun (a : Nat × State) g =>
      if e.l1.getLsbD g then match a.2.routePort (Obj.groupRoute g) with
        | some p => (a.1 + 1, a.2.sendSnoop (.port p) l .inv 1 (BitVec.ofNat 18 (own * 4096 + g * 64)) 1)
        | none => a
      else a) s0
    let pods := if e.bcast then (List.range 64).filter (· != own) else e.l2.map (·.toNat)
    let s2 := if e.bcast then (s1.1, s1.2.bump Obj.broadcasts) else s1
    pods.foldl (fun (a : Nat × State) q =>
      match a.2.routePort (Obj.podRoute q) with
      | some p => (a.1 + 1, a.2.sendSnoop (.port p) l .inv 2 (BitVec.ofNat 18 (q * 4096)) 2)
      | none => a) s2

/-- The source and class for which a transaction runs: its request's, or the internal source, with the region's class for sealing and
retirement (R144) and `MIGRATION_CLASS` for a job (R247). -/
def txnSource (s : State) (who : TxnFor) : Nat × Nat :=
  match who with
  | .req id => match s.req id with
    | some r => (srcBit r.hdr.src, r.cls)
    | none => (17, 0)
  | .seal k => (17, (s.region k).mode.cls)
  | .retire k => (17, (s.region k).mode.cls)
  | .job _ => (17, s.num Obj.migrationClass)
  | _ => (17, 0)

/-- Open a transaction on a line: the snoops, PEND, and what it installs. -/
def openTxn (s : State) (l : Nat) (who : TxnFor) (op : SnpOp) (next : DEntry) : State :=
  let e := s.line l
  let (n, s) := s.snoopAll l e op
  let by_ := s.txnSource who
  let s : State := s.happen 0x4001 (some by_.1) by_.2 true n
  (s.setTxn l (some ⟨who, n, false, false, next, [], n⟩)).writeEntry l e

end State

end Sys2Proof.Machine
end

