-- ==== Sys2Proof/Machine/Safe.lean ====
section
/-! DEFINITION. The end of Bollard waiters, and the reactions of the largest scopes: entry to SAFE, and the fences of stacks, channels, slots and memory dies
(R519–R521, R552–R555, Table 11-6). -/

namespace Sys2Proof.Machine

namespace State

/-- Whether a request has been granted and its completion is not yet staged. -/
def isGranted (r : Req) : Bool := r.stage != .waiting

/-! ## The end of Bollard waiters -/

/-- The wait-list notice: its LEVEL is the wait entries in use (6902). -/
def waitLevel (s : State) : State :=
  (s.setNum Obj.waitEntriesUsed s.path.waiters.length).evalNotice 0x6902 s.path.waiters.length false 0xD001

/-- End waiters with a status, without dispatching them. -/
def endWaiters (s : State) (p : Waiter → Bool) (st : Waiter → Cpl) : State :=
  let gone := s.path.waiters.filter p
  let s : State := s.each gone (fun s w =>
    let cls := match s.req w.req with | some r => r.cls | none => 0
    s.trace 8 (srcBit w.src) cls none (st w).status.code w.bol 0 ((s.dev.now - w.queued) / cyclesUs))
  let s : State := { s with path := { s.path with waiters := s.path.waiters.filter (fun w => !p w) } }
  (gone.foldl (fun s w => match s.req w.req with | some r => s.finish r (st w) | none => s) s).waitLevel

/-! ## SAFE and fences -/

/-- Entry to SAFE with a cause of Table 11-7 and the class of its event 0x8030 (R554, R804): H2 stops granting, and every
request that waits or has been granted completes with DAMAGED, Bollard waiters among them (R555). -/
def enterSafe (s : State) (cause cls : Nat) : State :=
  if s.dev.state = .safe then s
  else
    let s := (s.setNum Obj.safeCause cause).setDevState .safe
    let s := s.raiseSafety 0x8030 cause [cls]
    let s : State := s.endWaiters (fun _ => true) (fun _ => Cpl.plain .damaged)
    let s : State := s.each s.path.reqs (fun s r => (if r.stage = .waiting then s.leaveRx r else s).finishPlain r .damaged)
    { s with path := { s.path with work := [] } }

/-- Requests with accesses to granules that a test accepts return to step 6, their accesses are dropped, and so are queued writes
of such granules: a fenced resource receives no command (R520). -/
def dropAccesses (s : State) (p : Nat → Bool) : State :=
  let gone (a : Acc) : Bool := a.keys.any p || a.wr.any (fun w => p w.key)
  let accs := s.dram.chans.flatMap (fun e => (e.2.wait ++ e.2.rq ++ e.2.flight).filter gone)
  let owners := (accs.filterMap (·.owner)).eraseDups
  let s := { s with dram := { s.dram with chans := s.dram.chans.map (fun e =>
    let keep (a : Acc) : Bool := !gone a && (match a.owner with | some o => !owners.contains o | none => true)
    (e.1, { e.2 with
      wait := e.2.wait.filter keep, rq := e.2.rq.filter keep, flight := e.2.flight.filter keep
      wq := (e.2.wq.map (fun a => { a with wr := a.wr.filter (fun w => !p w.key) })).filter (fun a => !a.wr.isEmpty) })) } }
  owners.foldl (fun s o => (s.updReq o (fun r => { r with need := [], got := [], writes := 0, stage := .tide })).wake o 6) s

/-- Fence a stack (R519–R521, R553): its bit, its stripe with event 0x8021, and SAFE if the stack that holds the other copies
of the same metadata is fenced too (cause 3). -/
def fenceStack (s : State) (k : Nat) (cls : Nat) : State :=
  if bit (s.num Obj.fencedStacks) k then s
  else
    let s := (s.raise 0x7010 k).fenceBit Obj.fencedStacks k cls
    let s := ((s.keepNum Obj.faultedStripes).setBit Obj.faultedStripes k).raiseSafety 0x8021 k [cls]
    let s := s.setUnit k { s.unit k with st := .fenced }
    let s := s.dropAccesses (fun g => keyTier g == 1 && unitOf 1 (keyLoc g) == k)
    if bit (s.num Obj.fencedStacks) ((k + 4) % 8) then s.enterSafe 3 cls else s

/-- Fence a far slot on its own (R439, R519). -/
def fenceSlot (s : State) (n : Nat) (cls : Nat) : State :=
  if bit (s.num Obj.fencedSlots) n then s
  else
    let s := (s.raise 0x7010 (0x200 + n)).fenceBit Obj.fencedSlots n cls
    let s := s.setSlot n { s.slot n with st := .fenced, own := true }
    s.dropAccesses (fun g => keyTier g == 2 && unitOf 2 (keyLoc g) == 8 + n)

/-- Fence a far channel: both of its slots read FENCED (R520). -/
def fenceChan (s : State) (m : Nat) (cls : Nat) : State :=
  if bit (s.num Obj.fencedChannels) m then s
  else
    let s := (s.raise 0x7010 (0x100 + m)).fenceBit Obj.fencedChannels m cls
    let s := s.setUnit (8 + m) { s.unit (8 + m) with st := .fenced }
    let s := [2 * m, 2 * m + 1].foldl (fun s n =>
      (s.setBit Obj.fencedSlots n).setSlot n { s.slot n with st := .fenced, own := false }) s
    s.dropAccesses (fun g => keyTier g == 2 && chanOf g == 256 + m)

/-- Take decoders and encoders out of use: they leave 5000.01 and 5000.02. -/
def codecsOut (s : State) (dec enc : List Nat) : State :=
  let d := (s.dram.decOut ++ dec).eraseDups
  let e := (s.dram.encOut ++ enc).eraseDups
  (({ s with dram := { s.dram with decOut := d, encOut := e } }).setNum Obj.decodersAvailable (512 - d.length)).setNum
    Obj.encodersAvailable (128 - e.length)

/-- Fence a memory die path: its stack and its channels, and its codecs leave 5000.01 and 5000.02 (Table 11-6). -/
def fenceDie (s : State) (k : Nat) (cls : Nat) : State :=
  let s := s.fenceStack k cls
  let s := [3 * k, 3 * k + 1, 3 * k + 2].foldl (fun s m => s.fenceChan m cls) s
  s.codecsOut ((List.range 64).map (64 * k + ·)) ((List.range 16).map (16 * k + ·))

/-- Fence a stack (0–7) or far channel (8 + m). -/
def fenceUnit (s : State) (u : Nat) (cls : Nat) : State := if u < 8 then s.fenceStack u cls else s.fenceChan (u - 8) cls

end State

end Sys2Proof.Machine
end

