-- ==== Sys2Proof/Machine/Alu.lean ====
section
/-! DEFINITION. The near-memory ALU and the Bollards of H7 (chapter 07): the arithmetic on a stored line, the requests that the
line store serves, and the Bollard operations with their waiters. -/

namespace Sys2Proof.Machine

/-! ## Completions that carry poison (R799) -/

/-- The half of a line that an address names: bit 24 (1) or bit 25 (2) of the completion. -/
def halfBit (a : Nat) : Nat := if a / 64 % 2 = 0 then 1 else 2

/-- The POISON completion of a request that gets no data from its line (R799, R228, R233). -/
def poisonCpl (r : Req) : Cpl :=
  let h := halfBit r.hdr.addr.toNat
  match r.op with
  | .read => ⟨.poison, .dataLine, 0, 3, 0, zeros 128⟩
  | .readExcl => ⟨.poison, .dataLine, 0, 3, 0, zeros 128⟩
  | .readOnce => ⟨.poison, .dataLine, 0, 3, 0, zeros 128⟩
  | .readHalf => ⟨.poison, .dataHalf, 0, h, 0, zeros 64⟩
  | .add _ => ⟨.poison, .dataWord, 0, h, 0, zeros 8⟩
  | .cas _ _ => ⟨.poison, .dataWord, 0, h, 0, zeros 8⟩
  | .fadd _ => ⟨.poison, .dataWord, 0, h, 0, zeros 8⟩
  | .bfadd _ => ⟨.poison, .dataWord, 0, h, 0, zeros 8⟩
  | .bol _ _ => ⟨.poison, .dataWord, 0, 1, 0, zeros 8⟩
  | .writeMasked _ _ => ⟨.poison, .done, 0, h, 0, []⟩
  | _ => ⟨.poison, .done, 0, 3, 0, []⟩

/-- The completion of a read from its two granules (R799, R803). -/
def readCpl (r : Req) (lo hi : Gran) (grant : Nat) : Cpl :=
  let gb (g : Gran) : List Byte := if g.poison then zeros 64 else g.bytes
  match r.op with
  | .readHalf =>
    let second := r.hdr.addr.toNat / 64 % 2 = 1
    let g := if second then hi else lo
    if g.poison then ⟨.poison, .dataHalf, 0, halfBit r.hdr.addr.toNat, 0, zeros 64⟩ else ⟨.ok, .dataHalf, 0, 0, 0, gb g⟩
  | _ =>
    let half := (if lo.poison then 1 else 0) + (if hi.poison then 2 else 0)
    if half = 0 then ⟨.ok, .dataLine, grant, 0, 0, gb lo ++ gb hi⟩ else ⟨.poison, .dataLine, 0, half, 0, gb lo ++ gb hi⟩

/-! ## Arithmetic (R373–R382) -/

/-- The new value of an atomic's target of n bytes, from its old value; none if nothing is written (R375–R378). -/
def atomicNew (op : ReqOp) (n old : Nat) (draw : Option Nat) : Option Nat :=
  match op with
  | .add a => some ((old + a.toNat % 2 ^ (8 * n)) % 2 ^ (8 * n))
  | .cas c v => if old = c.toNat % 2 ^ (8 * n) then some (v.toNat % 2 ^ (8 * n)) else none
  | .fadd a => some (fp32Add old (a.toNat % 2 ^ 32))
  | .bfadd a => some (bf16Add old (a.toNat % 2 ^ 16) draw)
  | _ => none

/-- Bytes of an element of VEC_ACCUM (ATTR[5:3]). -/
def vecBytes (e : Nat) : Nat := if e = 1 then 2 else if e = 3 then 8 else 4

/-- One element of a VEC_ACCUM. -/
def vecElem (e a b : Nat) (draw : Option Nat) : Nat :=
  match e with
  | 0 => fp32Add a b
  | 1 => bf16Add a b draw
  | 2 => (a + b) % 2 ^ 32
  | _ => (a + b) % 2 ^ 64

/-- VEC_ACCUM over the elements in order: the new bytes and the generator (R380, R382). -/
def vecSum (e : Nat) (stoch : Bool) : Nat → BitVec 64 → List Byte → List Byte → List Byte × BitVec 64
  | 0, sr, _, _ => ([], sr)
  | k + 1, sr, line, op =>
    let n := vecBytes e
    let sr1 := if stoch then srDraw sr else sr
    let x := vecElem e (leNat (slice line 0 n)) (leNat (slice op 0 n)) (if stoch then some (sr1.toNat % 2 ^ 16) else none)
    let rest := vecSum e stoch k sr1 (line.drop n) (op.drop n)
    (leBytes n x ++ rest.1, rest.2)

namespace State

/-! ## The line store (R38–R42, R399) -/

/-- A line of the store, if it holds it. -/
def storeLine (s : State) (l : Nat) : Option StoreLine := (s.path.store.find? (fun e => e.1 == l)).map (·.2)

/-- Set a line of the store. -/
def setStore (s : State) (l : Nat) (x : StoreLine) : State :=
  { s with path := { s.path with store := FMap.put s.path.store l x } }

/-- Take a line out of the store. -/
def dropStore (s : State) (l : Nat) : State := { s with path := { s.path with store := FMap.del s.path.store l } }

/-- Read a line from the store: a planted parity fault poisons both granules, with event 0xD010 (R399). -/
def storeRead (s : State) (l : Nat) (x : StoreLine) : StoreLine × State :=
  if x.badPar then
    let y := { x with lo := Gran.bad, hi := Gran.bad, badPar := false }
    (y, (s.setStore l y).raiseSafety 0xD010 l [1])
  else (x, s)

/-- Write a line into the store, with its use; an armed flip mask alters bits [31:0] after the parity is computed (R399). -/
def storeWrite (s : State) (l : Nat) (x : StoreLine) : State :=
  let x := { x with used := s.path.useClock }
  let s := { s with path := { s.path with useClock := s.path.useClock + 1 } }
  let flip := s.num Obj.aluFlipMask
  if flip = 0 then s.setStore l x
  else
    let lo := leBytes 4 (leNat (slice x.lo.bytes 0 4) ^^^ flip) ++ x.lo.bytes.drop 4
    ((s.setStore l { x with lo := { x.lo with bytes := lo }, badPar := true }).setNum Obj.aluFlipMask 0).raise 0xD012

/-- Use a line of the store without writing it (R42). -/
def storeTouch (s : State) (l : Nat) (x : StoreLine) : State :=
  let s : State := s.setStore l { x with used := s.path.useClock }
  { s with path := { s.path with useClock := s.path.useClock + 1 } }

/-- Draws counted in 6800.07 (R380). -/
def setSr (s : State) (sr : BitVec 64) (draws : Nat) : State :=
  ({ s with path := { s.path with sr := sr } }).bump Obj.srDraws draws

/-- An atomic or VEC_ACCUM on its line in the store (R373–R383): it completes in this cycle. -/
def aluExec (s : State) (r : Req) (l : Nat) (x0 : StoreLine) : State :=
  let (x, s) := s.storeRead l x0
  let half := (if x.lo.poison then 1 else 0) + (if x.hi.poison then 2 else 0)
  let bytes := x.lo.bytes ++ x.hi.bytes
  let put (bs : List Byte) : StoreLine :=
    { x with lo := { x.lo with bytes := slice bs 0 64 }, hi := { x.hi with bytes := slice bs 64 64 } }
  match r.op with
  | .vec d =>
    if half ≠ 0 then ((s.storeTouch l x).bump Obj.aluPoisonRefusals).finish r ⟨.poison, .done, 0, half, 0, []⟩
    else
      let e := bits r.hdr.attr.toNat 5 3
      let stoch := bit r.hdr.attr.toNat 2
      let n := 128 / vecBytes e
      let (bs, sr) := vecSum e stoch n s.path.sr bytes d
      let s := if stoch then s.setSr sr n else s
      ((s.storeWrite l (put bs)).bump Obj.vecAccums).finishPlain r .ok
  | op =>
    let n := atomBytes op r.hdr.attr.toNat
    let o := r.hdr.addr.toNat % 128
    let h := halfBit o
    if (if h = 1 then x.lo.poison else x.hi.poison) then
      ((s.storeTouch l x).bump Obj.aluPoisonRefusals).finish r ⟨.poison, .dataWord, 0, h, 0, zeros 8⟩
    else
      let old := leNat (slice bytes o n)
      let stoch := match op with | .bfadd _ => bit r.hdr.attr.toNat 2 | _ => false
      let sr := if stoch then srDraw s.path.sr else s.path.sr
      let s := if stoch then s.setSr sr 1 else s
      let s := match atomicNew op n old (if stoch then some (sr.toNat % 2 ^ 16) else none) with
        | some v => s.storeWrite l (put (patch bytes o (leBytes n v)))
        | none => s.storeTouch l x
      (s.bump Obj.atomics).finish r ⟨.ok, .dataWord, 0, 0, 0, leBytes 8 old⟩

/-- A write meets a poisoned granule or carries poison itself (R493, R577, R497). -/
def maskedPoison (s : State) : State := (s.bump Obj.maskedPoisonWrites).raise 0x7007

/-- A granule after a write of some of its bytes (R35, R492, R493, R577): what it then holds, and whether R493 applies. -/
def mergeGran (old : Gran) (new : List Byte) (mask : BitVec 64) (bad : Bool) : Gran × Bool :=
  let full := mask == BitVec.allOnes 64
  if full then (if bad then Gran.bad else ⟨new, false⟩, false)
  else if bad || old.poison then (Gran.bad, true)
  else (⟨mergeBytes old.bytes new mask, false⟩, false)

/-- A read, a write or a release served from the line store (R39, Table 06-5, HOME). -/
def storeServe (s : State) (r : Req) (l : Nat) (x0 : StoreLine) : State :=
  match r.op with
  | .write d =>
    let x := { x0 with
      lo := (mergeGran x0.lo (slice d 0 64) (BitVec.allOnes 64) (bit r.bad 0)).1
      hi := (mergeGran x0.hi (slice d 64 64) (BitVec.allOnes 64) (bit r.bad 1)).1, badPar := false }
    (s.storeWrite l x).finishPlain r .ok
  | .writeMasked m d =>
    let (x, s) := s.storeRead l x0
    let second := r.hdr.addr.toNat / 64 % 2 = 1
    let (g, hit) := mergeGran (if second then x.hi else x.lo) d m (r.bad != 0)
    let s := if hit then s.maskedPoison else s
    (s.storeWrite l (if second then { x with hi := g } else { x with lo := g })).finishPlain r .ok
  | op =>
    if op.isRead then
      let (x, s) := s.storeRead l x0
      let g := match r.mode, op with | some m, .read => if m.ro then 1 else 0 | _, _ => 0
      let c := readCpl r x.lo x.hi g
      (s.storeTouch l x).finish r c
    else s.aluExec r l x0

/-! ## Bollards (R384–R400) -/

/-- Whether the ALU and Bollards are fenced (Table 11-6). -/
def aluFenced (s : State) : Bool := bit (s.num Obj.fencedFunctions) 0

/-- x is at or after y (R386). -/
def atOrAfter (x y : U64) : Bool := decide ((x - y).toNat < 2 ^ 63)

/-- A Bollard's counter. -/
def bollard (s : State) (b : Nat) : U64 := FMap.find 0 s.path.bols b

/-- Write a Bollard's counter; an armed flip mask alters bits [31:0] after parity (R400). -/
def setBollard (s : State) (b : Nat) (v : U64) : State :=
  let flip := s.num Obj.bollardFlipMask
  let par := s.path.bolPar.filter (· != b)
  if flip = 0 then { s with path := { s.path with bols := FMap.set 0 s.path.bols b v, bolPar := par } }
  else (({ s with path := { s.path with bols := FMap.set 0 s.path.bols b (v ^^^ BitVec.ofNat 64 flip), bolPar := b :: par } }).setNum
    Obj.bollardFlipMask 0).raise 0xD012

/-- Waiters whose condition holds with the counter v become ready (R393). -/
def wakeWaiters (s : State) (b : Nat) (v : U64) : State :=
  let (k, s) := s.newId
  { s with path := { s.path with waiters := s.path.waiters.map (fun w =>
      if w.bol = b ∧ w.ready = none ∧ atOrAfter v w.target then { w with ready := some k, readyAt := s.dev.now, val := v } else w) } }

/-- Cancel waiters; one that is ready and not dispatched counts as a race (R396). -/
def cancelWaiters (s : State) (p : Waiter → Bool) : State :=
  let gone := s.path.waiters.filter p
  let s := s.bump Obj.bollardCancels gone.length
  let s := s.bump Obj.bollardRaceCancels (gone.filter (fun w => w.ready.isSome)).length
  s.endWaiters p (fun _ => Cpl.plain .cancelled)

/-- The old counter in DATA_WORD. -/
def wordCpl (v : U64) : Cpl := ⟨.ok, .dataWord, 0, 0, 0, unitBytes v⟩

/-- A Bollard's poison completes an operation and every waiter with POISON (R400). -/
def bolPoison : Cpl := ⟨.poison, .dataWord, 0, 1, 0, zeros 8⟩

/-- A wait whose condition does not hold: none (T = 0) completes TIMEOUT; otherwise it takes a wait entry, if one is free
(R390–R392). `n` is the participant count of an arrival. -/
def bolQueue (s : State) (r : Req) (b : Nat) (target : U64) (n : Option Nat) : State :=
  let t := r.hdr.attr.toNat % 32
  let limit := if t = 31 then none else some (2 ^ (t - 1) * cyclesUs)
  let w : Waiter := ⟨r.id, b, target, n, r.hdr.src, r.origin, r.hdr.tag, s.dev.now, limit, none, 0, 0⟩
  let s := s.updReq r.id (fun q => { q with stage := .bollard })
  ({ s with path := { s.path with waiters := s.path.waiters ++ [w] } }).waitLevel

/-- Whether a wait entry is free (6900.02). -/
def waitFree (s : State) : Bool := decide (s.path.waiters.length < 16384)

/-- The operations of Table 07-5 on a Bollard without a poison mark. -/
def bolRun (s : State) (r : Req) (k : BolOp) (b : Nat) (a : U64) : State :=
  let v := s.bollard b
  let t := r.hdr.attr.toNat % 32
  match k with
  | .add => ((s.setBollard b (v + a)).wakeWaiters b (v + a)).finish r (wordCpl v)
  | .signal =>
    if atOrAfter a v && a != v then ((s.setBollard b a).wakeWaiters b a).finish r (wordCpl v) else s.finish r (wordCpl v)
  | .reset =>
    let had := s.path.waiters.any (fun w => w.bol == b)
    let s := ((s.setBollard b a).wakeWaiters b a).cancelWaiters (fun w => w.bol == b)
    (if had then s.raise 0xD002 b else s).finish r (wordCpl v)
  | .waitGe =>
    if atOrAfter v a then s.finish r (wordCpl v)
    else if t = 0 then s.finishPlain r .timeout
    else if s.waitFree then s.bolQueue r b a none
    else (s.raise 0xD004 b).finishPlain r .capacity
  | .arrive =>
    let n := a.toNat % 2 ^ 32
    if s.path.waiters.any (fun w => w.bol == b && w.n.isSome && w.n != some n) then
      ((s.bump Obj.barrierMismatches).raise 0xD003 b).finishPlain r .modeConflict
    else
      let target := BitVec.ofNat 64 ((v.toNat / n + 1) * n)
      let v1 := v + 1
      if atOrAfter v1 target then ((s.setBollard b v1).wakeWaiters b v1).finish r (wordCpl v1)
      else if t = 0 then
        ((s.setBollard b v1).wakeWaiters b v1).finishPlain r .timeout
      else if s.waitFree then ((s.setBollard b v1).wakeWaiters b v1).bolQueue r b target (some n)
      else (s.raise 0xD004 b).finishPlain r .capacity
  | .cancel =>
    let p (w : Waiter) : Bool := w.bol == b && w.origin == r.origin && (bit a.toNat 63 || w.tag == a.setWidth 12)
    let n := (s.path.waiters.filter p).length
    (s.cancelWaiters p).finish r (wordCpl (BitVec.ofNat 64 n))

/-- A Bollard operation at H7, after step 4's group mask (R385): a fenced H7 answers DAMAGED, a planted parity fault is
detected and poisons the Bollard, and a poisoned Bollard answers POISON to all but BOLLARD_RESET (R400). -/
def bolPerform (s : State) (r : Req) (k : BolOp) (a : U64) : State :=
  let b := r.hdr.addr.toNat
  if !bit (s.num (Obj.bollardGroupMask (b / 256))) (srcBit r.hdr.src) then s.finishPlain r .denied
  else if s.aluFenced then s.finishPlain r .damaged
  else
    let s : State := (s.bump (Obj.bollardGroupOps (b / 256))).happen 0xD001 (some (srcBit r.hdr.src)) r.cls true 1
    let s := if s.path.bolPar.contains b then
        let s := { s with path := { s.path with bolPar := s.path.bolPar.filter (· != b), bolBad := b :: s.path.bolBad } }
        (s.raiseSafety 0xD011 b [1]).endWaiters (fun w => w.bol == b) (fun _ => bolPoison)
      else s
    if s.path.bolBad.contains b then
      if k = .reset then
        let v := s.bollard b
        (({ s with path := { s.path with bolBad := s.path.bolBad.filter (· != b) } }).setBollard b a).finish r (wordCpl v)
      else s.finish r bolPoison
    else s.bolRun r k b a

/-- Dispatch ready waiters, at most 4, in the order in which they became ready and then were queued (R394). -/
def dispatchWaiters (s : State) : State :=
  let ready := (s.path.waiters.filter (fun w => w.ready.isSome)).mergeSort (fun a b => (a.ready.getD 0) ≤ (b.ready.getD 0))
  let go := ready.take 4
  let s : State := { s with path := { s.path with disp := s.dev.now + 1 } }
  let s : State := s.each go (fun s w => match s.req w.req with
    | some r => s.happen 0xD002 (some (srcBit w.src)) r.cls true 1
    | none => s)
  s.endWaiters (fun w => go.contains w) (fun w => wordCpl w.val)

/-- The ALU and Bollards are fenced by a mismatch in H7: every waiter completes DAMAGED (Table 11-6). The line store is
written back by the caller. -/
def fenceAlu (s : State) (cls : Nat) : State :=
  (s.fenceBit Obj.fencedFunctions 0 cls).endWaiters (fun _ => true) (fun _ => Cpl.plain .damaged)

end State

end Sys2Proof.Machine
end

