-- ==== Sys2Proof/Machine/Directory.lean ====
section
/-! DEFINITION. Step 5 of the request path: lookups with their copy comparison, the directory cache and its backing store, lost
holders, and the transitions of Table 06-5 (chapter 06). -/

namespace Sys2Proof.Machine

namespace State

/-! ## Data written home (R312, R331, R337, R802) -/

/-- The mode set that governs a line: its region's, or none. -/
def lineMode (s : State) (l : Nat) : Mode :=
  match s.regionAt (l * 128) with
  | some (_, g) => { g.mode with coh := g.coh, ro := g.st != .open }
  | none => Mode.none

/-- A request of the device itself that writes a line's data home from step 6 on, in the class of the line's region (R144; DESIGN CHOICE
outside sealing and retirement, log 136); `bad` marks poisoned halves. -/
def homeWrite (s : State) (l : Nat) (d : List Byte) (bad gseq : Nat) : State :=
  let i := s.newId.1
  let s : State := s.newId.2
  let r : Req :=
    { id := i, via := .internal
      hdr := ⟨.ep, 0, 0, 0, false, 0, BitVec.ofNat 64 (s.ownNode * 2 ^ 46 + l * 128), none⟩
      op := .write d, bad := bad, origin := .ep, arrived := s.dev.now, held := false, stage := .tide, cls := (s.lineMode l).cls
      ddl := (s.classOf (s.lineMode l).cls).ddl, stamp := s.ownStamp (s.lineMode l).cls, overdue := false, pool := false, gseq := gseq, mode := some (s.lineMode l), line := l
      page := l / 512, need := [], got := [], writes := 0, grant := 0, accepted := false, inv := false, wbFor := false
      snap := [], asked := [], tweaks := [] }
  ({ s with path := { s.path with reqs := s.path.reqs ++ [r] } }).wake i 6

/-- The order number of what a holder or the device itself writes home for a line: before every request that has yet to act on
it, among them the one whose lookup runs (`cur`) (R34, R332). -/
def homeSeq (s : State) (l : Nat) (cur : Option Nat) : Nat :=
  let owns (r : Req) : Bool := match s.txn l with | some t => t.who == .req r.id | none => false
  let waits := (s.path.reqs.filter (fun r => owns r || r.line == l && (r.stage == .line || r.stage == .snoop))).map (·.gseq)
  match cur.toList ++ waits with
  | [] => s.path.gseq + 1
  | g :: gs => gs.foldl min g - 1

/-! ## Duplicated state (R347–R349, R351) -/

/-- The backing bucket of a line (R345). -/
def bucketOf (l : Nat) : Nat := (l % 2 ^ 25) ^^^ (l / 2 ^ 25 * 2 ^ 13)

/-- Whether a line, or its bucket, is fenced. -/
def lineFenced (s : State) (l : Nat) : Bool := s.dir.fenced.contains l || s.dir.buckets.contains (bucketOf l)

/-- An entry as copy A's altered bits [31:0] show it: STATE and OWNER[7:0] (R352). -/
def flippedEntry (e : DEntry) (m : BitVec 192) : DEntry :=
  let st := (match e.st with | .uncached => 0 | .shared => 1 | .exclusive => 2 | .home => 3) ^^^ bits m.toNat 22 21
  { e with st := match st with | 0 => .uncached | 1 => .shared | 2 => .exclusive | _ => .home
           owner := e.owner ^^^ BitVec.ofNat 18 (bits m.toNat 31 24) }

/-- Compare the two copies of a line's entry (R348, R349): one valid copy corrects the other; otherwise the line is fenced,
by R552 as any scope of Table 11-6 (log 128). -/
def compareLine (s : State) (l : Nat) : State :=
  let a := FMap.find 0 s.dir.badA l
  let b := FMap.find 0 s.dir.badB l
  if a = b then s
  else
    let s : State := { s with dir := { s.dir with badA := FMap.set 0 s.dir.badA l 0, badB := FMap.set 0 s.dir.badB l 0 } }
    if maskValid a != maskValid b then
      let s : State := (s.bump Obj.copyMismatchesCorrected).raise 0x4001 l
      if maskValid a ∧ a ≠ 0 then
        { s with dir := { s.dir with ents := FMap.put s.dir.ents l (flippedEntry (s.line l) a) } }
      else s
    else
      let s : State := { s with dir := { s.dir with fenced := l :: s.dir.fenced } }
      ((s.setNum Obj.dirLinesFenced s.dir.fenced.length).raiseSafety 0x4002 l [4]).fenced 0x700 4

/-! ## Lost holders (R329–R333) -/

/-- Whether a master's port or route is the lost holder of a record. -/
def lostLocal (h : Holder) (i : Nat) : Bool :=
  match h with
  | .port p => p.val == i
  | .ep => i == 16
  | .route _ _ => false

/-- Whether a lost holder stands for a group (pod: false) or a pod (pod: true). -/
def lostRoute (s : State) (h : Holder) (pod : Bool) (i : Nat) : Bool :=
  match h with
  | .port p => s.num (if pod then Obj.podRoute i else Obj.groupRoute i) == p.val
  | .ep => false
  | .route q j => q == pod && j.toNat == i

/-- Whether a lost holder is the owner of an EXCLUSIVE entry. -/
def lostOwner (s : State) (h : Holder) (e : DEntry) : Bool :=
  e.st == .exclusive && (
    if e.ownLocal then lostLocal h e.owner.toNat
    else if e.owner.toNat / 4096 = s.ownNode / 4096 then s.lostRoute h false (e.owner.toNat / 64 % 64)
    else s.lostRoute h true (e.owner.toNat / 4096))

/-- An entry without a lost holder's records; L2_BCAST stays (R330). -/
def clearHolder (s : State) (h : Holder) (e : DEntry) : DEntry :=
  let l0 := (List.range 17).foldl (fun (b : BitVec 17) i => if lostLocal h i then b &&& ~~~(1#17 <<< i) else b) e.l0
  let l1 := (List.range 64).foldl (fun (b : BitVec 64) g => if s.lostRoute h false g then b &&& ~~~(1#64 <<< g) else b) e.l1
  { e with l0 := l0, l1 := l1, l2 := e.l2.filter (fun q => !s.lostRoute h true q.toNat) }

/-- Whether a full-line WRITE, or an action that discards the line, runs on it: then what a lost or recalled owner held is
superseded (DEDUCED from R34 and R341, log 12). -/
def supersedes (s : State) (t : Txn) : Bool :=
  match t.who with
  | .req id => match s.req id with
    | some r => (match r.op with | .write _ => true | _ => false)
    | none => false
  | .retire _ => true
  | .clone => true
  | _ => false

/-- Apply R330 and R331 to one line for one lost holder; answers whether the line changed. -/
def purgeOne (s : State) (h : Holder) (l : Nat) (cur : Option Nat) : Bool × State :=
  let e := s.line l
  let t := s.txn l
  if s.lostOwner h e then
    let gone := match t with | some t => s.supersedes t | none => false
    let s : State := match t with
      | some t => s.setTxn l (some { t with wbWait := false })
      | none => s
    let s : State := { s with dir := { s.dir with snoops := s.dir.snoops.filter (fun x => !(x.line == l && x.waitWb)) } }
    let s : State := s.writeEntry l (emptied e)
    let s : State := (s.bump Obj.lostOwnerLines).raiseSafety 0x4006 l [2]
    (true, if gone then s else s.homeWrite l (zeros 128) 3 (s.homeSeq l cur))
  else if e.st = .shared then
    let e1 := s.clearHolder h e
    if e1 = e then (false, s) else (true, s.writeEntry l (if anyHolder e1 then e1 else emptied e1))
  else (false, s)

/-- Every purge that runs is applied to a line that a lookup finds (R332). -/
def purgeLine (s : State) (l : Nat) (cur : Option Nat) : State :=
  s.each s.dir.purges (fun s p =>
    let x := s.purgeOne p.who l cur
    let s : State := x.2
    if x.1 then { s with dir := { s.dir with
      purges := updFirst (fun (q : Purge) => q.who == p.who) (fun q => { q with lines := q.lines + 1 }) s.dir.purges } }
    else s)

/-- The bit of 6000.07 that stands for a holder. -/
def purgeBit : Holder → Nat
  | .port p => p.val
  | .ep => 16
  | .route _ _ => 17

/-- Count a snoop as answered: PEND falls, and the holder's L0 bit is cleared (R322, R330). -/
def snoopDone (s : State) (x : Snoop) : State :=
  let s : State := { s with dir := { s.dir with snoops := s.dir.snoops.filter (fun y => !(y.master == x.master && y.tag == x.tag)) } }
  let s : State := if x.master = .ep then { s with ep := { s.ep with sqIn := s.ep.sqIn.filter (· != x.tag) } } else s
  match s.txn x.line with
  | none => s
  | some t =>
    let s : State := if x.waitWb then s.setTxn x.line (some { t with wbWait := false })
      else s.setTxn x.line (some { t with pend := t.pend - 1 })
    let e := s.line x.line
    if x.level = 0 ∧ e.st = .shared then s.writeEntry x.line { e with l0 := e.l0 &&& ~~~(1#17 <<< srcBit x.master) } else s

/-- Whether a snoop is owed by a lost holder. -/
def owes (s : State) (h : Holder) (x : Snoop) : Bool :=
  match h with
  | .port p => x.master == .port p
  | .ep => x.master == .ep
  | .route pod i =>
    (pod == false && x.level == 1 && x.dest.toNat / 64 % 64 == i.toNat && x.dest.toNat / 4096 == s.ownNode / 4096)
      || (pod == true && x.level == 2 && x.dest.toNat / 4096 == i.toNat)

/-- A holder is lost: a purge starts with event 0x4004, and its snoops count as answered (R329, R330, R332). A holder lost
again while its purge runs starts it anew. -/
def holderLost (s : State) (h : Holder) (reply : Option (Who × BitVec 8)) : State :=
  let s : State := (s.setBit Obj.dirPurgeActive (purgeBit h)).raise 0x4004 (purgeBit h)
  let s : State := { s with dir := { s.dir with purges := (s.dir.purges.filter (fun p => p.who != h)) ++ [⟨h, 0, reply⟩] } }
  let owed := s.dir.snoops.filter (s.owes h)
  let owned := (owed.map (·.line)).eraseDups
  let s : State := s.each owned (fun s l => s.purgeLine l none)
  s.each (owed.filter (fun x => s.dir.snoops.contains x)) snoopDone

/-- The endpoint is lost as a holder: `EP_GRANTS` is 0 and its copies are purged (R328, R329). -/
def grantsEnd (s : State) : State :=
  let s : State := { s with dir := { s.dir with epLost := s.dev.now + 1 } }
  (s.setNum Obj.epGrants 0).holderLost .ep none

/-- Requests of a holder whose purge runs, and of the endpoint without `EP_GRANTS`, are served but never recorded (R307, R333). -/
def unrecorded (s : State) (r : Req) : Bool :=
  (r.hdr.src == .ep && s.num Obj.epGrants != 1) ||
  s.dir.purges.any (fun p => match p.who, r.hdr.node with
    | .port q, _ => r.hdr.src == .port q
    | .ep, _ => r.hdr.src == .ep
    | .route pod i, some n =>
      if pod then n.node.toNat / 4096 == i.toNat && n.node.toNat / 4096 != s.ownNode / 4096
      else n.node.toNat / 64 % 64 == i.toNat && n.node.toNat / 4096 == s.ownNode / 4096
    | .route _ _, none => false)

/-! ## Cache and backing store (R342–R346) -/

/-- The cache set of a line (R309). -/
def setOf (l : Nat) : Nat := (l % 65536) ^^^ (l / 65536 % 65536)

/-- Records in use of a bucket. -/
def bucketRecs (s : State) (b : Nat) : List (Nat × DEntry) := s.dir.ents.filter (fun e => !e.2.cached && bucketOf e.1 == b)

/-- One granule of a backing bucket is read in both copies (R351): a copy whose records fail is rewritten from the other; if both fail, the
bucket is fenced, by R552 as any scope of Table 11-6 (log 128). A copy on a fenced stack is not read. -/
def readBacking (s : State) (b g : Nat) : State :=
  let recs := (((s.bucketRecs b).drop (2 * g)).take 2).map (fun e => e.2.record e.1)
  let out (second : Bool) : Bool := s.unitFenced (if second then (b + 4) % 8 else b % 8)
  let ka := bucketKey b false g
  let kb := bucketKey b true g
  let x := if out false then (false, false, s) else s.readRecords ka recs
  let y := if out true then (false, false, x.2.2) else x.2.2.readRecords kb recs
  let s : State := y.2.2
  if !x.1 && !y.1 then
    let s : State := { s with dir := { s.dir with buckets := b :: s.dir.buckets } }
    ((s.setNum Obj.dirBucketsFenced s.dir.buckets.length).raiseSafety 0x4009 b [4]).fenced 0x700 4
  else
    let fix (s : State) (bad : Bool) (k : Nat) : State :=
      if bad then ((s.putGran ⟨k, Gran.zero, 0, 0⟩).bump Obj.backingRecoveries).raise 0x4008 b else s
    fix (fix s (!x.1 && !out false) ka) (!y.1 && !out true) kb

/-- A lookup that misses reads the bucket of its line (R344). -/
def readBucket (s : State) (l : Nat) : State :=
  s.each (List.range 4) (fun s g => if s.dir.buckets.contains (bucketOf l) then s else s.readBacking (bucketOf l) g)

/-- A lookup: purges and the comparison of the copies come first. A cached entry is used; a line without one is a miss, which reads the
backing store (R332, R343, R344, R347). -/
def lookup (s : State) (l : Nat) (cur : Option Nat) : State :=
  let s : State := (s.purgeLine l cur).compareLine l
  match s.dir.ents.find? (fun e => e.1 == l) with
  | some e =>
    if e.2.cached then
      { s with path := { s.path with useClock := s.path.useClock + 1 }
               dir := { s.dir with ents := FMap.put s.dir.ents l { e.2 with used := s.path.useClock } } }
    else (s.readBucket l).bump Obj.cacheMisses
  | none => (s.readBucket l).bump Obj.cacheMisses

/-- Pods that an invalidation in broadcast form is sent to: those routed, but the device's own (R311). -/
def bcastPods (s : State) : List Nat :=
  (List.range 64).filter (fun q => q != s.ownNode / 4096 && (s.routePort (Obj.podRoute q)).isSome)

/-- Snoops that invalidating an entry needs (R311, R346). -/
def snoopCount (s : State) (e : DEntry) : Nat :=
  ((List.range 17).filter e.l0.getLsbD).length + ((List.range 64).filter e.l1.getLsbD).length
    + (if e.bcast then s.bcastPods.length else e.l2.length)

/-- The count of records in use and the occupancy notice follow the backing store (6000.02, 6005). -/
def noteBacking (s : State) : State :=
  let used := (s.dir.ents.filter (fun e => !e.2.cached)).length
  if s.num Obj.dirRecordsUsed = used then s
  else (s.setNum Obj.dirRecordsUsed used).evalNotice 0x6005 (used * 1000 / 268435456 : Nat) false 0x400A

/-- The entry with the least value of `f`, the first on a tie. -/
def leastBy (f : Nat × DEntry → Nat) : List (Nat × DEntry) → Option (Nat × DEntry)
  | [] => none
  | e :: es => match leastBy f es with
    | none => some e
    | some b => if f e ≤ f b then some e else some b

/-- Make room for a new entry of a class in its set; false while the request waits for the set or for a back-invalidation
(R343, R346). -/
def makeWay (s : State) (l cls : Nat) : Bool × State :=
  let set := s.dir.ents.filter (fun e => e.2.cached && setOf e.1 == setOf l)
  if s.dir.ents.any (fun e => e.1 == l && e.2.cached) || decide (set.length < 16) then (true, s)
  else
    let idle := set.filter (fun e => (s.txn e.1).isNone && e.2.st != .home)
    let share (c : Nat) : Nat := (FMap.find ClassVals.dflt s.ctl.water.cls c).way
    let held (c : Nat) : Nat := (set.filter (fun e => e.2.cls == c)).length
    let own := if share cls ≤ held cls ∧ held cls ≠ 0 then idle.filter (fun e => e.2.cls == cls) else []
    let rich := idle.filter (fun e => decide (share e.2.cls < held e.2.cls))
    let pool := if own.isEmpty then (if rich.isEmpty then idle else rich) else own
    match leastBy (fun e => e.2.used) pool with
    | none => (false, s)
    | some v =>
      let s : State := s.compareLine v.1
      let recs := s.bucketRecs (bucketOf v.1)
      if recs.length < 8 then
        (true, { s with dir := { s.dir with ents := FMap.put s.dir.ents v.1 { s.line v.1 with cached := false } } }.noteBacking)
      else if recs.any (fun e => (s.txn e.1).isSome) then (false, s)
      else
        let shared := recs.filter (fun e => e.2.st == .shared)
        match leastBy (fun e => if shared.isEmpty then 0 else s.snoopCount e.2) (if shared.isEmpty then recs else shared) with
        | none => (false, s)
        | some b => (false, (s.openTxn b.1 .evict (if shared.isEmpty then .recall else .inv) (emptied b.2)).bump Obj.backInvalidations)

/-- Bring a line's backing record into the cache, allocated under a class (R336, R344); false while it waits for a way. -/
def bringIn (s : State) (l cls : Nat) : Bool × State :=
  match s.dir.ents.find? (fun e => e.1 == l) with
  | none => (true, s)
  | some e =>
    if e.2.cached then (true, s)
    else
      let ok := (s.makeWay l cls).1
      let s : State := (s.makeWay l cls).2
      if !ok then (false, s)
      else
        let s : State := { s with
          path := { s.path with useClock := s.path.useClock + 1 }
          dir := { s.dir with ents := FMap.put s.dir.ents l { s.line l with cached := true, cls := cls, used := s.path.useClock } } }
        (true, s.noteBacking)

/-- Bring in the records of several lines. -/
def bringAll (cls : Nat) : List Nat → State → Bool × State
  | [], s => (true, s)
  | l :: ls, s =>
    let x := s.bringIn l cls
    if x.1 then bringAll cls ls x.2 else x

/-! ## Bulk scans (R334–R336) -/

/-- A bulk scan of a page. Two copies of its census word that differ are rebuilt; a page whose HELD is 0 is skipped; otherwise its 512
lines are looked up, and what their records find a way for is allocated under a class (R335, R336). -/
def censusScan (s : State) (p cls : Nat) : State :=
  let differ := s.dir.censusBad.contains p
  if !differ && s.censusHeld p == 0 then s
  else
    let ls := (s.dir.ents.filter (fun e => e.1 / 512 == p)).map (·.1)
    let s : State := (s.each ls (fun s l => (s.lookup l none).bringIn l cls |>.2)).bump Obj.cacheMisses (512 - ls.length)
    if differ then
      let s : State := { s with dir := { s.dir with censusBad := s.dir.censusBad.filter (· != p) } }
      (s.bump Obj.censusRebuilds).raise 0x400C p
    else s

/-- The lines of a range of pages that have an entry or a transaction. -/
def heldLines (s : State) (lo hi : Nat) : List Nat :=
  ((s.dir.ents.map (·.1)) ++ (s.dir.txns.map (·.1))).eraseDups.filter (fun l => decide (lo * 512 ≤ l ∧ l < hi * 512))

/-- The bulk scan of a range of pages. -/
def scanPages (s : State) (lo hi cls : Nat) : State :=
  let ps := (((s.heldLines lo hi).map (· / 512)) ++ s.dir.censusBad.filter (fun p => decide (lo ≤ p ∧ p < hi))).eraseDups
  s.each ps (fun s p => s.censusScan p cls)

/-! ## Table 06-5 -/

/-- Wait in step 5 behind the line's transaction, or for its set (R315, R343). -/
def waitLine (s : State) (r : Req) (l : Nat) : State :=
  let s : State := s.updReq r.id (fun q => { q with stage := .line })
  match s.txn l with
  | some t => s.setTxn l (some { t with wait := t.wait ++ [r.id] })
  | none => s

/-- Go on to step 6 with the grant that the completion will carry. -/
def toStep6 (s : State) (r : Req) (grant : Nat) : State :=
  (s.updReq r.id (fun q => { q with grant := grant, stage := .tide })).wake r.id 6

/-- Record a change at a line, after making room for its entry; a request that finds none waits for the set. -/
def install (s : State) (r : Req) (l : Nat) (e : DEntry) (k : State → State) : State :=
  let ok := (s.makeWay l r.cls).1
  let s : State := (s.makeWay l r.cls).2
  if ok then k (s.writeEntry l { e with cls := if (s.line l).st = .uncached then r.cls else e.cls }) else s.waitLine r l

/-- Open a transaction for a request that waits for its snoops, or whose write goes on beside them (R34, R311). -/
def snoopFor (s : State) (r : Req) (l : Nat) (op : SnpOp) (next : DEntry) (beside : Bool) : State :=
  let s : State := s.openTxn l (.req r.id) op next
  if beside then (s.updReq r.id (fun q => { q with inv := true, stage := .tide })).wake r.id 6
  else s.updReq r.id (fun q => { q with stage := .snoop })

/-- A RELEASE_CLEAN: an owner's line becomes UNCACHED, an L0 bit is cleared, and one tracked at level 1 or 2 is counted only
(Table 06-5, R321). -/
def releaseClean (s : State) (r : Req) (l : Nat) : State :=
  let s : State := if s.ownsLine r l then s.releaseRec r l
    else match s.recOf r with
      | .l0 _ => s.releaseRec r l
      | _ => s.bump Obj.levelReleasesIgnored
  s.finishPlain r .ok

/-- A WRITEBACK (R323, R324): the owner's is accepted, as a transaction's data if one runs; any other is stray. -/
def writebackAt (s : State) (r : Req) (l : Nat) : State :=
  let e := s.line l
  let own := s.ownsLine r l
  match s.txn l with
  | some t =>
    if own && !t.wbGot then
      let stays := t.next.st == .exclusive && t.next.owner == e.owner && t.next.ownLocal == e.ownLocal
      let t : Txn := { t with wbGot := true, next := if stays then emptied t.next else t.next }
      if s.supersedes t then
        let s : State := s.setTxn l (some t)
        (s.wbDone l).finishPlain r .ok
      else
        let s : State := s.setTxn l (some { t with wbWait := true })
        (s.updReq r.id (fun q => { q with wbFor := true, stage := .tide })).wake r.id 6
    else ((s.bump Obj.strayWritebacks).raise 0x4007 l).finishPlain r .modeConflict
  | none =>
    if own then (s.writeEntry l (emptied e)).toStep6 r 0
    else ((s.bump Obj.strayWritebacks).raise 0x4007 l).finishPlain r .modeConflict

/-- The transitions of Table 06-5 for a line that is not BUSY. -/
def transition (s : State) (r : Req) (m : Mode) (l : Nat) : State :=
  let e := s.line l
  let mine := s.ownsLine r l
  let anon := s.unrecorded r
  let owner := m.coh = 1
  match r.op with
  | .read =>
    if e.st = .home then s.toStep6 r 0
    else if mine then s.toStep6 r 2
    else if anon then (if e.st = .exclusive then s.snoopFor r l .read e false else s.toStep6 r 0)
    else match e.st with
      | .exclusive => s.snoopFor r l .recall (addHolder (emptied e) (s.recOf r)) false
      | .uncached =>
        if owner then s.install r l (ownedBy r e) (fun s => s.toStep6 r 2)
        else s.install r l (addHolder e (s.recOf r)) (fun s => s.toStep6 r 1)
      | _ => s.install r l (addHolder e (s.recOf r)) (fun s => s.toStep6 r 1)
  | .readExcl =>
    if e.st = .home then s.toStep6 r 0
    else if mine then s.toStep6 r 2
    else if anon then (if e.st = .exclusive then s.snoopFor r l .read e false else s.toStep6 r 0)
    else match e.st with
      | .exclusive => s.snoopFor r l .recall (ownedBy r e) false
      | .shared => s.snoopFor r l .inv (ownedBy r e) false
      | _ => s.install r l (ownedBy r e) (fun s => s.toStep6 r 2)
  | .write _ =>
    if e.st = .shared ∨ e.st = .exclusive then s.snoopFor r l .inv (emptied e) true else s.toStep6 r 0
  | .writeMasked _ _ =>
    if e.st = .exclusive then s.snoopFor r l .recall (emptied e) false
    else if e.st = .shared then s.snoopFor r l .inv (emptied e) true
    else s.toStep6 r 0
  | .writeback _ => s.writebackAt r l
  | .releaseClean => s.releaseClean r l
  | op =>
    if op.isAlu then match e.st with
      | .home => s.toStep6 r 0
      | .exclusive => s.snoopFor r l .recall { emptied e with st := .home } false
      | .shared => s.snoopFor r l .inv { emptied e with st := .home } false
      | .uncached => s.install r l { e with st := .home } (fun s => s.toStep6 r 0)
    else if e.st = .exclusive ∧ !mine then s.snoopFor r l .read e false
    else s.toStep6 r 0

/-- Whether step 5 finds an entry for a line: those of TRACKED and OWNER_ONLY regions, and while a region is being sealed the
lines that are still held exclusive or BUSY (R297, R130, R132). -/
def tracked (s : State) (m : Mode) (l : Nat) : Bool :=
  decide (m.coh ≤ 1) || (s.txn l).isSome || (s.line l).st == .exclusive

/-- The grant of an untracked read: SHARED in SEALING and SEALED, none otherwise (Table 03-8). -/
def untrackedGrant (r : Req) (m : Mode) : Nat :=
  match r.op with
  | .read => if m.ro then 1 else 0
  | _ => 0

/-- Step 5 of a view request: each native line is read as a READ_ONCE, one after another (R801), and in SEALING it waits for a recall
(R132). `asked` lists the lines that SNP_READ has brought up to date. -/
def step5View (s : State) (r : Req) (m : Mode) (ls : List Nat) : State :=
  let busy := ls.find? (fun l => (s.txn l).isSome)
  match busy with
  | some l => s.waitLine r l
  | none =>
    match ls.find? (fun l => s.tracked m l && (s.line l).st == .exclusive && (m.ro || !s.ownsLine r l) && !r.asked.contains l) with
    | some l =>
      if m.ro then (s.openTxn l (.seal m.region) .recall (emptied (s.line l))).waitLine r l
      else (s.updReq r.id (fun q => { q with asked := l :: q.asked })).snoopFor r l .read (s.line l) false
    | none => s.toStep6 r (untrackedGrant r m)

/-- A WRITEBACK and a RELEASE_CLEAN never wait in step 5 (R316). -/
def neverWaits (r : Req) : Bool := match r.op with | .writeback _ => true | .releaseClean => true | _ => false

/-- Whether a request waits in step 5 because its page is the target of the clone step that is due, whose lines are being invalidated
(R271, R316). -/
def cloneHolds (s : State) (r : Req) : Bool :=
  (match s.tide.clone with
    | some c => c.left != 0 && r.page == c.dst
    | none => false)
    && !neverWaits r

/-- Step 5 of a request whose entries lie in the cache (Table 06-5). -/
def decide5 (s : State) (r : Req) (m : Mode) (ls : List Nat) : State :=
  if addrView r.hdr.addr ≠ 0 then
    if r.op = .releaseClean then s.finishPlain r .ok else s.step5View r m ls
  else if !s.tracked m r.line then
    if r.op = .releaseClean then s.finishPlain r .ok else s.toStep6 r (untrackedGrant r m)
  else if m.ro then
    match r.op with
    | .releaseClean => s.finishPlain r .ok
    | .writeback _ => s.writebackAt r r.line
    | _ =>
      if (s.txn r.line).isSome then s.waitLine r r.line
      else if (s.line r.line).st = .exclusive then (s.openTxn r.line (.seal m.region) .recall (emptied (s.line r.line))).waitLine r r.line
      else s.toStep6 r (untrackedGrant r m)
  else match r.op with
    | .releaseClean => s.releaseClean r r.line
    | .writeback _ => s.writebackAt r r.line
    | _ => if (s.txn r.line).isSome then s.waitLine r r.line else s.transition r m r.line

/-- Step 5 (Table 01-6): the lookups, the fences, the earlier request of the origin that still waits for the line (R359), and the
records that are brought in. -/
def step5 (s : State) (r : Req) : State :=
  let m := r.mode.getD Mode.none
  let ls := r.lines m
  let miss := s.num Obj.cacheMisses
  let s : State := s.each ls (fun s l => if s.tracked m l then s.lookup l (some r.gseq) else s)
  let s : State := s.happen 0x4002 (some (srcBit r.hdr.src)) r.cls true (s.num Obj.cacheMisses - miss)
  if ls.any s.lineFenced then
    if r.op.isRead then s.finish r (poisonCpl r) else s.finishPlain r .damaged
  else if s.cloneHolds r || (!neverWaits r && s.path.reqs.any (fun q =>
      q.stage == .line && ls.contains q.line && q.id != r.id && decide (q.gseq < r.gseq) && q.origin == r.origin)) then s.waitLine r r.line
  else
    let x := bringAll r.cls (ls.filter (s.tracked m)) s
    if x.1 || neverWaits r then x.2.decide5 r m ls else x.2.waitLine r r.line

/-! ## The end of a transaction (R317) -/

/-- Waiting requests continue from step 5, in grant order: those behind the line, and those that wait for their set. -/
def wakeLine (s : State) (t : Txn) : State :=
  let held := s.dir.txns.flatMap (fun e => e.2.wait)
  s.wakeAll 5 (fun r => r.stage == .line && (t.wait.contains r.id || !held.contains r.id))

/-- A way has become free: requests that wait for their set try again (R343). -/
def wakeSets (s : State) : State :=
  let held := s.dir.txns.flatMap (fun e => e.2.wait)
  s.wakeAll 5 (fun r => r.stage == .line && !held.contains r.id)

/-- End the transaction on a line: PEND and WB_WAIT are 0; the new state is installed, and its request goes on. A requester
that became a lost holder meanwhile is not recorded (R333). -/
def endTxn (s : State) (l : Nat) : State :=
  match s.txn l with
  | none => s
  | some t =>
    if t.pend ≠ 0 || t.wbWait then s
    else
      let by_ := s.txnSource t.who
      let s : State := s.trace 3 by_.1 by_.2 (some (l * 128)) 0 0 (s.ownNode * 2 ^ 46 + l * 128) t.sent
      let s : State := s.setTxn l none
      let s : State := match t.who with
        | .req id => match s.req id with
          | none => s.writeEntry l t.next
          | some r =>
            if r.inv then
              let s : State := (s.writeEntry l t.next).updReq id (fun q => { q with inv := false })
              if r.accepted then s.finishPlain r .ok else s
            else
              let grants := match r.op with | .read => true | .readExcl => true | _ => false
              if addrView r.hdr.addr ≠ 0 then (s.writeEntry l t.next).wake id 5
              else if grants && s.unrecorded r then
                (s.writeEntry l (if (s.line l).st = t.next.st then s.line l else emptied t.next)).toStep6 r 0
              else
                let g := match r.op with
                  | .read => if t.next.st = LineSt.shared then 1 else 0
                  | .readExcl => if t.next.st = LineSt.exclusive then 2 else 0
                  | _ => 0
                (s.writeEntry l t.next).toStep6 r g
        | .mask _ =>
          let s : State := s.writeEntry l t.next
          { s with dir := { s.dir with swept := l :: s.dir.swept } }
        | _ => s.writeEntry l t.next
      s.wakeLine t

/-- Whether a wait for a snoop's answer is accepted: SNP_ACK and SNP_DATA (R316, R322, R323, R327). `data` is the line
that SNP_DATA returns. -/
def snoopAnswer (s : State) (m : Src) (tag : BitVec 12) (wb : Bool) (data : Option (List Byte)) : State :=
  match s.dir.snoops.find? (fun x => x.master == m && x.tag == tag && !x.waitWb) with
  | none =>
    if s.dir.late.contains (m, tag) then
      ({ s with dir := { s.dir with late := s.dir.late.erase (m, tag) } }).bump Obj.lateSnoopAnswers
    else s
  | some x =>
    match s.txn x.line with
    | none => s.snoopDone x
    | some t =>
      let s : State := match data with
        | some d => if s.supersedes t || x.op == SnpOp.inv then s
          else s.homeWrite x.line d 0 (s.homeSeq x.line none)
        | none => s
      if wb && !t.wbGot then
        let hit (y : Snoop) : Bool := y.master == m && y.tag == tag && !y.waitWb
        let s : State := { s with dir := { s.dir with snoops := updFirst hit (fun y => { y with waitWb := true }) s.dir.snoops } }
        (s.setTxn x.line (some { t with pend := t.pend - 1, wbWait := true })).bump Obj.wbPendingWaits
      else s.snoopDone x

end State

end Sys2Proof.Machine
end

