-- ==== Sys2Proof/Machine/Store.lean ====
section
/-! DEFINITION. What DRAM gives back and takes: decode outcomes and their reports, remap candidates, fences by error count,
the current content of a granule, writes by the device at once, and the conditional write-back (chapters 09, 10). -/

namespace Sys2Proof.Machine

namespace State

/-! ## Decode (R486–R491) -/

/-- What an access gets from a granule; a code word that decodes to another one gives open bytes (log 5). -/
def granOf (s : State) (k : Nat) (o : DecOut) : Gran × State :=
  match o with
  | .clean => (⟨s.memGran k, false⟩, s)
  | .corrected true => (⟨s.memGran k, false⟩, s)
  | .corrected false =>
    (⟨(List.range 64).map (fun i => Config.garbledByte (64 * s.dev.fresh + i)), false⟩,
      { s with dev := { s.dev with fresh := s.dev.fresh + 1 } })
  | _ => (Gran.bad, s)

/-- Decrypt a granule under the tweak that its reader forms: one that was encrypted under another reads as open bytes (R203, R204, log
61). -/
def opened (s : State) (k want : Nat) (x : Gran) : Gran × State :=
  if x.poison || s.seenTweak k == want then (x, s)
  else (⟨(List.range 64).map (fun i => Config.garbledByte (64 * s.dev.fresh + i)), false⟩,
    { s with dev := { s.dev with fresh := s.dev.fresh + 1 } })

/-! ## Reports -/

/-- The record of the last error (8000.0B–0D). A granule's key is the value of 8000.0C. -/
def recordErr (s : State) (kind loc : Nat) : State :=
  ((s.setNum Obj.lastErrorKind kind).setNum Obj.lastErrorLoc loc).setNum Obj.lastErrorTime s.time64

/-- The state of a row's remap entry, if it has one. -/
def remapOf (s : State) (c row : Nat) : Option (Nat × Remap) := (s.chan c).remap.find? (fun e => e.2.row == row && e.2.st != .free)

/-- A row becomes a remap candidate: its copy to a spare row begins, or the table is full (R512, R514, R515). -/
def remapCandidate (s : State) (k : Nat) : State :=
  let c := chanOf k
  let row := s.rowOf k
  if (s.remapOf c row).isSome then s
  else match (List.range 16).find? (fun i => !(s.chan c).remap.any (fun e => e.1 == i)) with
    | some i => s.setChan c { s.chan c with remap := FMap.put (s.chan c).remap i ⟨.installing, row⟩ }
    | none => s.raise 0x7009 c

/-- A CORRECTED outcome: counted, its event once in each ms of its channel, and counted against its row (R512, R533). -/
def noteCorrected (s : State) (k : Nat) : State :=
  let c := chanOf k
  let row := s.rowOf k
  let s : State := ((s.bump (if farKey k then Obj.ceFar else Obj.ceNear)).recordErr 1 k).happen 0x7001 none 0 true 1
  let due : Bool := match (s.chan c).ceAt with
    | some t => decide (t + cyclesMs ≤ s.dev.now)
    | none => true
  let s : State := if due then (s.raise 0x7001 c).setChan c { s.chan c with ceAt := some s.dev.now } else s
  let window := s.num Obj.remapWindow * 3600 * cyclesS
  let rows := ((s.chan c).ceRows.filter (fun e => decide (s.dev.now < e.2.2 + window) && e.2.1 != k)) ++ [(row, k, s.dev.now)]
  let s : State := s.setChan c { s.chan c with ceRows := rows }
  if s.num Obj.remapCeThreshold ≤ (rows.filter (fun e => e.1 == row)).length then s.remapCandidate k else s

/-- UNCORRECTABLE and TAG_MISMATCH outcomes of the last second fence their resource (R519). The classes are those of the event
that decides the fence. -/
def countBad (s : State) (k cls : Nat) : State :=
  let u := dunitOf (chanOf k)
  let slot := if farKey k then unitOf 2 (keyLoc k) - 8 else 0
  let times := ((s.unit u).ueTimes.filter (fun e => decide (s.dev.now < e.1 + cyclesS))) ++ [(s.dev.now, slot)]
  let s : State := s.setUnit u { s.unit u with ueTimes := times }
  if s.num Obj.ueFenceLimit < times.length then
    if u < 8 then s.fenceStack u cls
    else if times.all (fun e => e.2 == slot) then s.fenceSlot slot cls
    else s.fenceChan (u - 8) cls
  else s

/-- The classes of a tag mismatch (Table 11-5). -/
def tagClasses (v0 v1 : Bool) : List Nat := (if v1 then [3] else []) ++ (if v0 then [6] else [])

/-- An UNCORRECTABLE or TAG_MISMATCH outcome is counted and recorded; with no other copy to recover it, it raises its event
(R495). -/
def noteBad (s : State) (k : Nat) (o : DecOut) (recovered : Bool) : State :=
  match o with
  | .uncorrectable =>
    let s : State := (s.bump (if farKey k then Obj.ueFar else Obj.ueNear)).recordErr 2 k
    let s : State := if recovered then s else s.raiseSafety 0x7002 k [1]
    (s.remapCandidate k).countBad k 1
  | .tagMismatch v0 v1 =>
    let s : State := (s.bump Obj.tagMismatches).recordErr 3 k
    let s : State := if recovered then s else s.raiseSafety 0x7003 k (tagClasses v0 v1)
    s.countBad k ((tagClasses v0 v1).foldl max 0)
  | _ => s

/-! ## The parity flip (R496–R498, R530) -/

/-- Whether the armed parity flip of a path meets the next field that crosses it. -/
def flipArmed (s : State) (path : Nat) : Bool := s.num Obj.parityFlipPath == path

/-- The flip is applied and its fault detected: `kind` is 0 for a data byte, 1 for a control field and 2 for a clean cache entry
that a refetch corrects (R498, R532). -/
def takeFlip (s : State) (path kind : Nat) : State :=
  let s : State := ((s.setNum Obj.parityFlipPath 0).raise 0x7014).bump Obj.parityFaults
  let s : State := s.recordErr 4 path
  if kind = 0 then s.raiseSafety 0x7005 path [1]
  else if kind = 1 then s.raiseSafety 0x7005 (path + 256) [3]
  else s.raise 0x7005 (path + 512)

/-! ## Epochs and channel use (R255, R261) -/

/-- The number of the current epoch. -/
def epochNow (s : State) : Nat := s.dev.now / (s.num Obj.epochUs * cyclesUs)

/-- Bytes that a channel has moved in the last whole epoch. -/
def lastUse (s : State) (c : Nat) : Nat :=
  let u := (s.chan c).use
  if u.1 = s.epochNow then u.2.2 else if u.1 + 1 = s.epochNow then u.2.1 else 0

/-- Count bytes that a channel moves. -/
def addUse (s : State) (c n : Nat) : State :=
  let u := (s.chan c).use
  let v : Nat × Nat × Nat := if u.1 = s.epochNow then (u.1, u.2.1 + n, u.2.2) else (s.epochNow, n, s.lastUse c)
  s.setChan c { s.chan c with use := v }

/-! ## Writes that reach DRAM -/

/-- Symbol errors that an armed test puts on the next granule that a controller writes: 8004.01 and the split write (R483,
R529). -/
def armedErrs (s : State) (k : Nat) : List SymErr × State :=
  let flip := s.num Obj.eccFlipMask
  let c := chanOf k
  let e1 : List SymErr :=
    (if flip % 2 ^ 16 = 0 then [] else [⟨0, BitVec.ofNat 16 flip⟩])
      ++ (if flip / 2 ^ 16 = 0 then [] else [⟨1, BitVec.ofNat 16 (flip / 2 ^ 16)⟩])
  let s : State := if flip = 0 then s else (s.setNum Obj.eccFlipMask 0).raise 0x7014
  let obj := if c < 256 then Obj.stackSplitWrite (c / 32) else Obj.chSplitWrite (c - 256)
  let sp := s.num obj
  let e2 : List SymErr := if sp = 0 then [] else if sp = 1 then [⟨0, 1⟩] else [⟨0, 1⟩, ⟨4, 1⟩]
  let s : State := if sp = 0 then s else (s.setNum obj 0).raise 0x6040 (dunitOf c)
  (e1 ++ e2, s)

/-- A controller writes a granule to DRAM. -/
def dramWrite (s : State) (w : GW) : State :=
  let s : State := if w.gran.poison then s.happen 0x7002 none 0 true 1 else s
  if keyTier w.key = 3 then s.putGran w
  else
    let errs := (s.armedErrs w.key).1
    let s : State := ((s.armedErrs w.key).2).putGran w
    if errs.isEmpty then s
    else { s with dram := { s.dram with gmeta := FMap.set GMeta.clean s.dram.gmeta w.key { s.gmeta w.key with errs := errs } } }

/-- A write of a granule is admitted: its number is kept for R510. -/
def markWrite (s : State) (c k serial : Nat) : State :=
  s.setChan c { s.chan c with lastWr := FMap.put (s.chan c).lastWr k serial }

/-- The device's own writes that are accepted at once: older writes of the same granules leave the write queue (log 13). -/
def writeNow (s : State) (ws : List GW) : State :=
  s.each ws (fun s w =>
    let n := s.newId.1
    let s : State := s.newId.2
    if keyTier w.key = 3 then s.putGran w
    else
      let c := chanOf w.key
      let x := s.chan c
      let s : State := s.setChan c { x with wq := x.wq.map (fun a => { a with wr := a.wr.filter (fun y => y.key != w.key) }) }
      ((s.markWrite c w.key n).addUse c 64).dramWrite w)

/-- The device's own writes that are accepted into their write queues in this cycle, each after the older writes of its granule (R37,
R200). -/
def queueNow (s : State) (ws : List GW) (cls : Nat) : State :=
  s.each ws (fun s w =>
    let n := s.newId.1
    let s : State := s.newId.2
    if keyTier w.key = 3 then s.putGran w
    else
      let c := chanOf w.key
      let s : State := s.markWrite c w.key n
      s.setChan c { s.chan c with wq := (s.chan c).wq ++
        [⟨n, true, none, .write, w.key / 2, s.path.gseq, s.ownStamp cls, false, cls, [], [], [w], n, s.dev.now⟩] })

/-- What a granule holds now for the device's own reads: the write queue's data, or DRAM's as it decodes, with the outcome. -/
def current (s : State) (k v0 : Nat) : Gran × DecOut × State :=
  match (if keyTier k = 3 then none else s.queued k) with
  | some w => (w.gran, if w.gran.poison then .poisoned else .clean, s)
  | none =>
    let o := s.decodeAt k [] v0
    let x := s.granOf k o
    (x.1, o, x.2)

/-- A conditional write-back of one granule (R510) under a tweak: it waits for its channel; `since` is the number of its read. -/
def condWrite (s : State) (k : Nat) (g : Gran) (v0 tweak since : Nat) : State :=
  let i := s.newId.1
  let s : State := s.newId.2
  s.arriveChan (chanOf k) ⟨i, true, none, .cond since, k / 2, s.path.gseq,
    s.ownStamp (s.num Obj.migrationClass), false, s.num Obj.migrationClass, [], [], [⟨k, g, v0, tweak⟩], 0, 0⟩

end State

end Sys2Proof.Machine
end

