-- ==== Sys2Proof/Machine/Slots.lean ====
section
/-! DEFINITION. Code table slots: which blocks name them, the slot that an encode takes, and when a slot returns to FREE (chapter 04). -/

namespace Sys2Proof.Machine

namespace State

/-! ## Code table slots (R178, R182–R184, 5100) -/

/-- The copies that hold a page's stored blocks, mirrored ones counted once: copy A, a LOWER copy, and sources not yet released. -/
def storedCopies (s : State) : List Copy :=
  let own := s.tide.map.flatMap (fun e => if e.2.pstate = .shared then [] else e.2.a :: (if e.2.role = .lower then [e.2.b] else []))
  let shared := s.tide.shares.flatMap (fun e => e.2.a :: (if e.2.role = .lower then [e.2.b] else []))
  (own ++ shared ++ (s.tide.leaving.filter (fun x => !x.twin)).map (·.copy)).filter (·.comp)

/-- 5100.05 `SLOT_BLOCKS` of slot n. -/
def slotBlocks (s : State) (n : Nat) : Nat :=
  (s.storedCopies.map (fun c => ((s.indexOf c).filter (fun e => e.kind == 0 && e.slot == n)).length)).sum

/-- The default slot of a format code (R177). -/
def defaultSlotOf (s : State) (fmt : Nat) : Nat := s.num (Obj.defaultSlot (fmt - 1))

/-- A region's encode slot: the slot that names it with ENCODING set, else the default slot of its format (Table 04-13). -/
def slotNow (s : State) (k fmt : Nat) : Nat :=
  match s.ctl.tabs.find? (fun e => e.2.region == k && e.2.enc) with
  | some e => e.1
  | none => s.defaultSlotOf fmt

/-- The slot that an encode takes: in the cycle in which a new one is installed, the previous one (R179). -/
def encodeSlot (s : State) (k fmt : Nat) : Nat :=
  let w := (s.region k).encWas
  if w.1 = s.dev.now + 1 ∧ s.slotOk fmt w.2 then w.2 else s.slotNow k fmt

/-- The encode slot of a region changes in this cycle: the present one serves what starts in it (R179). -/
def keepSlot (s : State) (k : Nat) : State :=
  let r := s.region k
  if r.encWas.1 = s.dev.now + 1 then s else s.setRegion k { r with encWas := (s.dev.now + 1, s.slotNow k r.mode.format) }

/-- Slots 16 to 1,023 that are not FREE. -/
def slotsUsed (s : State) : Nat := (s.ctl.tabs.filter (fun e => decide (16 ≤ e.1) && e.2.st != .free)).length

/-- A free slot from 16 upward. -/
def freeSlot (s : State) : Option Nat :=
  ((List.range 1008).map (· + 16)).find? (fun n => (s.tab n).st == .free)

/-- The slot notice follows the slots that are not FREE (5003). -/
def noteTabs (s : State) : State := s.evalNotice 0x5003 s.slotsUsed false 0x3004

/-- Whether a slot is named in `DEFAULT_SLOT`. -/
def namedDefault (s : State) (n : Nat) : Bool := (List.range 6).any (fun i => s.num (Obj.defaultSlot i) == n)

/-- Allocated slots that no block refers to return to FREE (R178). -/
def freeSlots (s : State) : State :=
  let coded (n : Nat) : Bool := s.tide.jobs.any (fun j => j.blks.any (fun b => b.kind == 0 && b.slot == n))
  let gone (e : Nat × TabSlot) : Bool := e.2.st == .inUse && !e.2.enc && !s.namedDefault e.1 && s.slotBlocks e.1 == 0 && !coded e.1
  if s.ctl.tabs.any gone then
    ({ s with ctl := { s.ctl with tabs := s.ctl.tabs.filter (fun e => !gone e) } }).noteTabs
  else s

/-- A region's present encode slot stops being one. -/
def dropEncode (s : State) (k : Nat) : State :=
  let s : State := if s.ctl.tabs.any (fun e => e.2.region == k && e.2.enc) then s.keepSlot k else s
  { s with ctl := { s.ctl with tabs := s.ctl.tabs.map (fun e => if e.2.region = k then (e.1, { e.2 with enc := false }) else e) } }

/-- Put a table into a slot; `enc` makes it the encode slot of region k. -/
def fillSlot (s : State) (n fmt k : Nat) (enc : Bool) (lens : List Nat) : State :=
  ((if enc then s.keepSlot k else s).setTab n ⟨.inUse, fmt, k, enc, lens⟩).noteTabs

end State

end Sys2Proof.Machine
end

