-- ==== Sys2Proof/Machine/Page.lean ====
section
/-! DEFINITION. Pages: share records, the near-free notice, access counts and hints, the job queue, first placement, what a
write ends, and what a fence decides at step 6 (chapter 05, R519–R521, R553). -/

namespace Sys2Proof.Machine

namespace State

/-! ## Share records (R272) -/

/-- A share record. -/
def share (s : State) (i : Nat) : Share := FMap.find Share.free s.tide.shares i

/-- Set a share record. -/
def setShare (s : State) (i : Nat) (x : Share) : State :=
  { s with tide := { s.tide with shares := FMap.set Share.free s.tide.shares i x } }

/-- The migration state that governs a page: in state SHARED its copy-on-write job's, else its share record's. -/
def pstateOf (s : State) (p : Nat) : PState :=
  let e := s.entry p
  if e.pstate = .shared then
    match s.tide.jobs.find? (fun j => j.kind == .cow && j.page == p && j.phase != .queued) with
    | some j => if j.phase = .draining then .draining else .copying
    | none => (s.share e.share).pstate
  else e.pstate

/-- Set the copies of a page, in its entry or its share record. -/
def setCopies (s : State) (p : Nat) (a b : Copy) (role : RoleB) : State :=
  let e := s.entry p
  if e.pstate = .shared then s.setShare e.share { s.share e.share with a := a, b := b, role := role }
  else s.setEntry p { e with a := a, b := b, role := role }

/-- Set the migration state of a page, in its entry or its share record. -/
def setPState (s : State) (p : Nat) (st : PState) : State :=
  let e := s.entry p
  if e.pstate = .shared then s.setShare e.share { s.share e.share with pstate := st } else s.setEntry p { e with pstate := st }

/-- What a job moves: a page, or the share record it points to (R235). -/
def jobKey (s : State) (p : Nat) : Nat :=
  let e := s.entry p
  if e.pstate = .shared then 2 ^ 40 + e.share else p

/-- Whether a copy of a page lies in a bay. -/
def inBay (s : State) (p bay : Nat) : Bool := (copyBays (s.copyA p)).contains bay || (copyBays (s.copyB p)).contains bay

/-- Whether a job moves a page: its own page or record, or a bay that the page lies in. -/
def Job.moves (s : State) (p : Nat) (j : Job) : Bool :=
  s.jobKey j.page == s.jobKey p || (j.bay != 0 && s.inBay p (j.bay - 1))

/-- The pages that a job moves: its own, or those that lie in its bay. -/
def jobPages (s : State) (j : Job) : List Nat :=
  if j.bay = 0 then [j.page] else (s.tide.map.map (·.1)).filter (fun p => s.inBay p (j.bay - 1))

/-- The job on a page, if any; copy-on-write jobs are kept apart (R275). -/
def jobOf (s : State) (p : Nat) : Option Job := s.tide.jobs.find? (fun j => j.kind != .cow && Job.moves s p j)

/-- The copy-on-write job of a page, if any. -/
def cowOf (s : State) (p : Nat) : Option Job := s.tide.jobs.find? (fun j => j.kind == .cow && j.page == p)

/-- The region of a page, if any. -/
def pageMode (s : State) (p : Nat) : Mode := s.lineMode (p * 512)

/-- The pages that share a record. -/
def sharers (s : State) (i : Nat) : List Nat :=
  (s.tide.map.filter (fun e => e.2.pstate == .shared && e.2.share == i)).map (·.1)

/-- The sharers that hold a record near: those of PIN_NEAR regions, and those whose flood has completed (R276). -/
def holders (s : State) (i : Nat) : List Nat :=
  let x := s.share i
  (s.sharers i).filter (fun p => x.near.contains p || (s.pageMode p).tier == 1)

/-! ## Notices and bays -/

/-- Whether capacity ebbing is on: from below the low mark until the high mark (R257). -/
def ebbOn (s : State) : Bool :=
  if s.num Obj.nearHighMark ≤ s.nearFree then false else if s.nearFree < s.num Obj.nearLowMark then true else s.tide.ebbing

/-- Capacity ebbing begins and ends. -/
def noteEbbing (s : State) : State :=
  if s.ebbOn = s.tide.ebbing then s
  else { s with tide := { s.tide with ebbing := s.ebbOn, fewCands := if s.ebbOn then s.tide.fewCands else 0 } }

/-- The near-free notice and capacity ebbing follow 3000.06 (R257, R294). -/
def noteNear (s : State) : State := (s.evalNotice 0x3005 s.nearFree true 0x2002).noteEbbing

/-- At the end of a step they follow whatever has changed it. -/
def watchNear (s : State) : State := if s.num Obj.nearFreeLevel = s.nearFree then s.noteEbbing else s.noteNear

/-- Free a copy: the near-free notice follows, and writes that wait for a bay try again (R802). -/
def releaseCopy (s : State) (c : Copy) : State :=
  if c.tier = 0 then s
  else (s.freeCopy c).noteNear.wakeAll 6 (fun r => r.stage == .tide && r.op.isWrite && (s.entry r.page).pstate == .unwritten)

/-- A source that a switch leaves behind waits for its pins (R243). -/
def leave (s : State) (p : Nat) (c : Copy) (twin : Bool := false) : State :=
  if c.tier = 0 then s else { s with tide := { s.tide with leaving := s.tide.leaving ++ [⟨p, c, twin⟩] } }

/-- Both copies of a page are left behind. -/
def leaveBoth (s : State) (p : Nat) : State := (s.leave p (s.copyA p)).leave p (s.copyB p) (s.roleB p == .mirror)

/-! ## Access counts (R255) -/

/-- ACC of an entry after the decay of R255. -/
def decayed (s : State) (e : TEntry) : Nat := e.acc / 2 ^ min 8 ((s.epochNow + 256 - e.epoch) % 256)

/-- Count an access. -/
def countAccess (s : State) (p : Nat) : State :=
  let e := s.entry p
  s.setEntry p { e with acc := min 255 (s.decayed e + 1), epoch := s.epochNow % 256 }

/-! ## The job queue (R263–R266) -/

/-- Whether a job kind is a hint, which may be discarded. -/
def JobKind.isHint : JobKind → Bool
  | .lent => true
  | .flood => true
  | _ => false

/-- Change a job. -/
def updJob (s : State) (id : Nat) (f : Job → Job) : State :=
  { s with tide := { s.tide with jobs := updFirst (fun (j : Job) => j.id == id) f s.tide.jobs } }

/-- Jobs that wait in the queue. -/
def queuedJobs (s : State) : Nat := (s.tide.jobs.filter (fun j => j.phase == .queued)).length

/-- A new job as it is queued. -/
def newJob (s : State) (id : Nat) (kind : JobKind) (p : Nat) : Job where
  id := id
  page := p
  kind := kind
  phase := .queued
  dstA := Copy.none
  dstB := Copy.none
  dirty := []
  passes := 0
  rescan := []
  started := s.dev.now
  moveB := false
  todo := []
  out := 0
  first := false
  blks := []
  also := []
  held := (s.entry p).pstate == .shared && !(s.holders (s.entry p).share).isEmpty
  bay := 0
  push := false
  ver := 0

/-- Put a job into the queue, if it has room; answers whether it had. -/
def addJob (s : State) (kind : JobKind) (p : Nat) (f : Job → Job) : Bool × State :=
  if 4096 ≤ s.queuedJobs then (false, s)
  else
    let i := s.newId.1
    let s : State := s.newId.2
    (true, { s with tide := { s.tide with jobs := s.tide.jobs ++ [f (s.newJob i kind p)] } })

/-- A hint is discarded: it counts, and so does the millisecond (R265, R267). -/
def dropHint (s : State) : State :=
  let s : State := (s.happen 0x2003 none 0 true 1).bump Obj.floodHintsDropped
  { s with tide := { s.tide with dropped := true } }

/-- The last near hold of a record has ended: the stored page moves down, through any sharer (R277, R278). -/
def noteFall (s : State) (i : Nat) (before : List Nat) : State :=
  let x := s.share i
  if !before.isEmpty && (s.holders i).isEmpty && x.a.tier == 1 then s.setShare i { x with down := true } else s

/-- A sharer's near hold by flood ends (R277). -/
def dropNear (s : State) (i p : Nat) : State :=
  let x := s.share i
  (s.setShare i { x with near := x.near.filter (· != p) }).noteFall i (s.holders i)

/-- Queue a job for a page. A hint merges with the page's job, or is discarded above 3001.0C (R264, R265); through a sharer its hold
follows with the job it merged with. An ebb through a sharer of a record that has a job drops the hold (R277–R279). Another job waits with
its source while the queue is full (R266). -/
def queueJob (s : State) (kind : JobKind) (p : Nat) : State :=
  let e := s.entry p
  let busy := match kind with
    | .cow => s.cowOf p
    | k => if JobKind.isHint k && (s.cowOf p).isSome then s.cowOf p else s.jobOf p
  match busy with
  | some j =>
    if JobKind.isHint kind then
      (s.updJob j.id (fun (q : Job) => if kind = .flood ∧ e.pstate = .shared ∧ j.kind ≠ .cow then { q with also := q.also ++ [p] } else q)).bump
        Obj.floodHintsMerged
    else if kind = .capEbb ∧ e.pstate = .shared then
      (s.updJob j.id (fun (q : Job) => { q with also := q.also.filter (· != p) })).dropNear e.share p
    else s
  | none =>
    if JobKind.isHint kind ∧ s.num Obj.floodAdmitMark ≤ s.queuedJobs then s.dropHint else (s.addJob kind p id).2

/-- The ebb of a record without near holds is queued, if it can be (R278). -/
def queueDown (s : State) (i : Nat) : State :=
  let x := s.share i
  if !x.down then s
  else if !(s.holders i).isEmpty || x.a.tier != 1 then s.setShare i { x with down := false }
  else match s.sharers i with
    | q :: _ => s.queueJob .capEbb q
    | [] => s

/-- The flood threshold of a tier policy (R256); none for PIN_FAR. -/
def floodMark (s : State) (m : Mode) : Option Nat :=
  let t := s.num Obj.floodThreshold
  let f := 2 ^ s.num Obj.preferFactorLog2
  match m.tier with
  | 2 => none
  | 3 => some (t / f)
  | 4 => some (t * f)
  | _ => some t

/-- The hints of an access (R256, R261, R276). -/
def raiseHints (s : State) (p : Nat) (m : Mode) : State :=
  let e := s.entry p
  let a := s.copyA p
  if a.tier ≤ 1 then s
  else
    let s : State := match s.floodMark m with
      | some t => if t ≤ e.acc then s.queueJob .flood p else s
      | none => s
    let quiet := e.lastWr + s.num Obj.lentQuiet ≤ s.epochNow
    let busy := s.num Obj.lentFarBusy * 64 * s.num Obj.epochUs ≤ s.lastUse (chanOf (a.key 0))
    if a.tier = 2 ∧ m.lent ∧ s.num Obj.lentThreshold ≤ e.acc ∧ quiet ∧ busy then s.queueJob .lent p else s

/-! ## Leaving a share record (R273, R274) -/

/-- The last sharer takes a record's fields, and the record is freed (R274); its own copy-on-write job goes on (R275). -/
def mergeShare (s : State) (i : Nat) : State :=
  let x := s.share i
  match s.sharers i with
  | [q] =>
    let e := s.entry q
    let st : PState := match s.cowOf q with
      | some j => (match j.phase with | .queued => x.pstate | .copying => .copying | .draining => .draining)
      | none => x.pstate
    (s.setEntry q { e with a := x.a, b := x.b, role := x.role, version := x.version, pstate := st, share := 0
                           under := if x.page = q then 0 else x.page + 1, flooded := x.near.contains q }).setShare i Share.free
  | _ => s

/-- A page leaves its share record: its hold ends, the reference count falls, and at 1 the last sharer takes the record (R273, R274). The
caller has set, or will set, the page's own entry to something else; here it becomes UNWRITTEN. -/
def dropShare (s : State) (p : Nat) : State :=
  let e := s.entry p
  if e.pstate ≠ .shared then s
  else
    let i := e.share
    let before := s.holders i
    let s : State := s.setEntry p { TEntry.unwritten with version := e.version }
    let x := s.share i
    let s : State := s.setShare i { x with refs := x.refs - 1, near := x.near.filter (· != p) }
    if x.refs = 2 then
      let alone := s.sharers i
      let s : State := s.mergeShare i
      match alone with
      | [q] => if !before.isEmpty && x.a.tier == 1 && (s.pageMode q).tier != 1 && !x.near.contains q then s.queueJob .capEbb q else s
      | _ => s
    else if x.refs ≤ 1 then ((s.leave p x.a).leave p x.b (x.role == .mirror)).setShare i Share.free
    else (s.noteFall i before).queueDown i

/-! ## First placement (R252–R254, R505, R802) -/

/-- The tier of a first placement (R252); the flood pool is never drawn below the pinned reservation (R224). -/
def placeTier (s : State) (m : Mode) : Nat :=
  if m.tier = 1 then 1
  else if m.tier = 2 ∨ m.tier = 4 then 2
  else if s.num Obj.nearLowMark ≤ s.nearFree ∧ (if m.mirror then 2 else 1) ≤ s.nearFree then 1 else 2

/-- Allocate the copies of a page: one, or two on different dies for a MIRRORED page (R253). -/
def allocCopies (s : State) (tier p : Nat) (mirror : Bool) : Option (Copy × Copy × State) :=
  match s.allocBay tier p [] with
  | none => none
  | some (a, s1) =>
    if mirror then match s1.allocBay tier p [dieOf tier a.loc] with
      | none => none
      | some (b, s2) => some (a, b, s2)
    else some (a, Copy.none, s1)

/-- Whether a far bay may still come from a background fill (R504). -/
def farFilling (s : State) : Bool :=
  (List.range 48).any (fun n => s.unitOpen (8 + n) && decide ((s.slot n).filled < s.bayCount (8 + n)))

/-- Whether a memory resource is fenced, which is the only way in which a placement can lack a bay for good (R521, R802). -/
def lostBays (s : State) : Bool :=
  s.num Obj.fencedStacks != 0 || s.num Obj.fencedSlots != 0 || s.num Obj.fencedChannels != 0

/-- What a first placement does: the page is placed, it waits for a bay, or no bay can be had. -/
inductive Placed where
  | done (s : State)
  | later
  | never
  deriving DecidableEq, Repr

/-- Count a wrap of VERSION (R229). -/
def nextVersion (s : State) (v : BitVec 32) : BitVec 32 × State := (v + 1, if v + 1 = 0 then s.bump Obj.versionWraps else s)

/-- Place an UNWRITTEN page (R252–R254): its bays hold the encryption of zeros, or an index granule of ZERO entries where
every block is stored compressed (R145, R505). The writes are accepted by PLACEMENT_ACCEPTED (log 13). -/
def place (s : State) (p : Nat) (m : Mode) : Placed :=
  let tier := s.placeTier m
  match s.allocCopies tier p m.mirror with
  | none => if s.lostBays ∧ !(tier = 2 ∧ s.farFilling) then .never else .later
  | some (a0, b0, s) =>
    let comp := m.tier == 2 && m.comp == 2
    let len := if comp then 1 + min (s.num Obj.slackGranules) 1023 else 1024
    let a : Copy := { a0 with comp := comp, len := len }
    let b : Copy := if m.mirror then { b0 with comp := comp, len := len } else Copy.none
    let fill (s : State) (c : Copy) : List GW :=
      if c.tier = 0 then []
      else if comp then [s.granAt p c (v0Of m) 0 ⟨idxBytes (List.replicate 16 ⟨0, 0, 2, 0⟩), false⟩]
      else (List.range 1024).map (fun i => s.granAt p c (v0Of m) i Gran.zero)
    let v := (s.nextVersion (s.entry p).version).1
    let s : State := (s.nextVersion (s.entry p).version).2
    let e : TEntry :=
      { TEntry.unwritten with a := a, b := b, role := if m.mirror then .mirror else .none, pstate := .resident, version := v
                              epoch := s.epochNow % 256 }
    let s : State := s.setEntry p e
    let s : State := s.writeNow (fill s a ++ fill s b)
    let zero : Gran := ⟨idxBytes (List.replicate 16 ⟨0, 0, 2, 0⟩), false⟩
    let s : State := (s.storeIndex a zero).storeIndex b zero
    .done ({ s with tide := { s.tide with placing := s.tide.placing ++ [p] } }).noteNear

/-! ## What a write that resolves ends (R250, R281, R238) -/

/-- A write resolves to a page: a lent copy ends, a LOWER copy is released, and a job marks the block dirty. -/
def writeResolves (s : State) (p blk : Nat) : State :=
  let a := s.copyA p
  let b := s.copyB p
  let s : State :=
    if a.tier = 3 then (s.setCopies p b Copy.none .none).leave p a
    else if s.roleB p = .lower then ((s.setCopies p a Copy.none .none).releaseCopy b).freeSlots
    else s
  let mark (j : Job) : Job :=
    if (if j.kind = .cow then j.page == p else Job.moves s p j) ∧ j.phase ≠ .queued ∧ !j.dirty.contains blk then { j with dirty := j.dirty ++ [blk] } else j
  let s : State := { s with tide := { s.tide with jobs := s.tide.jobs.map mark } }
  s.setEntry p { s.entry p with lastWr := s.epochNow }

/-! ## The device's own reads of a copy (R239, R244, R495, R499) -/

/-- Granule i of a copy of a page as the device itself reads it: errors are counted, a mirrored copy is corrected from the other one, and
a granule that no copy recovers is written with the poison encoding; answers whether that came about (Table 10-3). -/
def copyGran (s : State) (m : Mode) (p : Nat) (c : Copy) (i : Nat) : Gran × Bool × State :=
  let k := c.key i
  let x := s.current k (v0Of m)
  let s : State := x.2.2.addUse (chanOf k) 64
  let good (s : State) (g : Gran) (k i : Nat) (c : Copy) : Gran × State := s.opened k (s.tweak p c i) g
  match x.2.1 with
  | .clean => ((good s x.1 k i c).1, false, (good s x.1 k i c).2)
  | .corrected _ => ((good s x.1 k i c).1, false, (good s x.1 k i c).2.noteCorrected k)
  | o =>
    let other := if c = s.copyA p then s.copyB p else s.copyA p
    let y := s.current (other.key i) (v0Of m)
    if s.roleB p = .mirror && other.tier != 0 && !s.copyFenced other && outGood y.2.1 then
      let z := good y.2.2 y.1 (other.key i) i other
      let s : State := (z.2.noteBad k o true).writeNow [z.2.granAt p c (v0Of m) i z.1]
      (z.1, false, (s.bump Obj.mirrorRecoveries).raise 0x7004 k)
    else match o with
      | .poisoned => (Gran.bad, false, s)
      | o => (Gran.bad, true, (s.noteBad k o false).writeNow [⟨k, Gran.bad, 0, 0⟩])

/-! ## Map entries and index granules at step 6 (R188, R220, R227, R228, Table 10-3) -/

/-- A map entry that is read from the near tier, and the share record that it points to, are checked (R227, Table 10-3). -/
def checkEntry (s : State) (p : Nat) : State :=
  if s.tide.mapCache.contains p then s
  else
    let x := s.readRecords (mapKey p) [(s.entry p).bytes]
    let s : State := if x.2.1 then x.2.2.noteCorrected (mapKey p) else x.2.2
    let e := s.entry p
    if x.1 && (e.pstate != .shared || s.metaGood (shareKey e.share)) then s else s.setEntry p { e with bad := true }

/-- Step 6 fetches a page's entry into the tide map cache. -/
def fetchEntry (s : State) (p : Nat) : State :=
  let s : State := s.checkEntry p
  if (s.entry p).bad then s else s.cachePage p

/-- The index granule of a compressed copy is fetched into the index cache: from the index store, or in the near tier from the copy. -/
def fetchIndex (s : State) (m : Mode) (p : Nat) (c : Copy) : State :=
  if !c.comp then s
  else if s.tide.idxCache.contains (c.key 0) then s.cacheIndex m c
  else if c.tier = 1 then (s.copyGran m p c 0).2.2.cacheIndex m c
  else if s.metaGood (idxSlotKey (s.tweakPage p)) then s.cacheIndex m c
  else s.storeIndex c Gran.bad

/-! ## Fences decided at step 6 (R520, R553) -/

/-- Whether the stack of a page's map entry is fenced, from the cycle after its fence, or its share record's (R553). -/
def stripeFaulted (s : State) (p : Nat) : Bool :=
  let e := s.entry p
  bit (s.prevNum Obj.faultedStripes) (p % 8) || (e.pstate == .shared && bit (s.num Obj.faultedStripes) (e.share % 8))

/-- A page becomes FAULTED (R232, R520); a sharer leaves its record. -/
def faultPage (s : State) (p : Nat) : State :=
  if (s.entry p).pstate = .faulted then s
  else
    let s : State := s.dropShare p
    (s.setEntry p { s.entry p with pstate := .faulted }).raise 0x2031 p

/-- Whether a page is FAULTED, or will be found so (R520, R553). -/
def pageFaulted (s : State) (p : Nat) : Bool := (s.entry p).pstate == .faulted || s.stripeFaulted p

/-- Decide a page whose copies a fence has reached: FAULTED, or a switch to its LOWER copy (R251, R520, R553). -/
def decideFence (s : State) (p : Nat) : State :=
  let e := s.entry p
  if e.pstate = .faulted then s
  else if s.stripeFaulted p then s.faultPage p
  else if e.pstate = .unwritten then s
  else
    let a := s.copyA p
    let b := s.copyB p
    if !s.copyFenced a then s
    else match s.roleB p with
      | .mirror => if s.copyFenced b then s.faultPage p else s
      | .lower => if s.copyFenced b then s.faultPage p else (s.setCopies p b Copy.none .none).leave p a
      | .none => s.faultPage p

end State

end Sys2Proof.Machine
end

