-- ==== Sys2Proof/Machine/Serve.lean ====
section
/-! DEFINITION. Steps 4, 6, 7 and 8 of the request path, the return of data, the line store, the landing cache, and the work
list that carries requests from step to step (Table 01-5, R24–R42, R187–R209, R234). -/

namespace Sys2Proof.Machine

namespace State

/-- Whether a line is held for the requester's atomics: it is in the store, its directory state is HOME, or an atomic on it is on
its way through H7 (R39, R42). -/
def atH7 (s : State) (l : Nat) : Bool :=
  (s.storeLine l).isSome || (s.line l).st == .home
    || s.path.reqs.any (fun r => r.op.isAlu && r.line == l && (r.stage == .h7 || r.stage == .mem))

/-- The line leaves the store and HOME; the entry goes to the atomic that it was written back for, if any (R42). -/
def leaveHome (s : State) (l : Nat) : State :=
  let heir : List Nat := match s.storeLine l with | some x => x.heir.toList | none => []
  let s : State := s.dropStore l
  let s : State := { s with path := { s.path with heirs := s.path.heirs ++ heir } }
  let s : State := if (s.line l).st = .home ∧ (s.txn l).isNone then s.writeEntry l (emptied (s.line l)) else s
  (s.wakeAll 5 (fun r => r.stage == .h7 && r.line == l)).wakeSets

/-! ## A write is accepted (R34) -/

/-- A request's write is accepted: it completes once its invalidations are acknowledged. -/
def writeAccepted (s : State) (r : Req) : State :=
  if r.inv then s.updReq r.id (fun q => { q with accepted := true, stage := .acked }) else s.finishPlain r .ok

/-- Send a request's granules to their write queues; with none to write it is accepted at once. -/
def sendWrites (s : State) (r : Req) (ws : List GW) : State :=
  let n := (gwLines ws).length
  if n = 0 then s.writeAccepted r
  else
    let r1 := { r with stage := .mem, writes := n, need := [], got := [] }
    (s.updReq r.id (fun _ => r1)).writeGrans r1 ws

/-! ## The codec's damage checks on a read (R187) -/

/-- A failed check: its record and event 0x3001. `g` is a native granule of the page. -/
def noteDamage (s : State) (p g check : Nat) : State :=
  let off := p * 65536 + g / 64 * 4096
  (((s.bump Obj.damageReads).setNum Obj.damageLastCheck check).setNum Obj.damageLastOffset off).raiseSafety 0x3001 off [1]

/-- Native granules of a page from stored ones of a copy, with the failed checks reported once. -/
def nativeAll (s : State) (m : Mode) (p : Nat) (c : Copy) (got : List (Nat × Gran)) (gs : List Nat) : List Gran × State :=
  let es := if c.comp then s.indexOf c else []
  let coded := gs.filter (fun g => (es.getD (g % 1024 / 64) ⟨0, 0, 2, 0⟩).kind == 0)
  let s : State := s.happen 0x3001 none 0 true ((coded.map (· / 4)).eraseDups).length
  let xs := gs.map (fun g => (g, s.nativeGran m c got (g % 1024)))
  let bad := xs.filterMap (fun x => x.2.2.map (fun c => (x.1 % 1024, c)))
  (xs.map (fun x => x.2.1), match bad with
    | [] => s
    | (g, c) :: _ => s.noteDamage p g c)

/-! ## The line store (R38–R42) -/

/-- Requests at H7 for a line, in grant order. -/
def h7Queue (s : State) (l : Nat) : List Req := byGrant (s.path.reqs.filter (fun r => r.stage == .h7 && r.line == l))

/-- A view request takes a native line that the store holds, and goes on with step 7 (R39, R801). -/
def snapLine (s : State) (r : Req) (l : Nat) (x0 : StoreLine) : State :=
  let x := (s.storeRead l x0).1
  let s : State := (s.storeRead l x0).2
  (s.storeTouch l x).updReq r.id (fun q => { q with snap := q.snap ++ [(2 * l, x.lo), (2 * l + 1, x.hi)] })

/-- Serve what waits in H7 for a line that the store holds (R39). -/
def serveH7 (s : State) (l : Nat) : State :=
  s.each (s.h7Queue l) (fun s r => match s.storeLine l with
    | some x =>
      if x.filling || x.leaving then s
      else if addrView r.hdr.addr ≠ 0 then ((s.snapLine r l x).updReq r.id (fun q => { q with stage := .tide })).wake r.id 7
      else s.storeServe r l x
    | none => s)

/-- A line's two granules have been read for its atomic: they fill the entry (R38). -/
def fillStore (s : State) (r : Req) (lo hi : Gran) : State :=
  match s.storeLine r.line with
  | some x =>
    let s : State := s.storeWrite r.line { x with lo := lo, hi := hi, filling := false }
    (s.updReq r.id (fun q => { q with stage := .h7, need := [], got := [] })).serveH7 r.line
  | none => s

/-! ## Step 8: reads and merges -/

/-- The stored granules that native granules of a request need, but for those that it has taken from H7 or H8. -/
def needKeys (s : State) (r : Req) (m : Mode) : List Nat :=
  (((r.grans m).filter (fun g => !r.snap.any (fun e => e.1 == g))).flatMap (fun g => s.granKeys m (s.copyA r.page) (g % 1024))).eraseDups

/-- A key of copy A as the same granule of copy B. -/
def toCopyB (s : State) (p k : Nat) : Nat :=
  let a := s.copyA p
  match (List.range a.len).find? (fun g => a.key g == k) with
  | some g => (s.copyB p).key g
  | none => k

/-- A key of copy B as the same granule of copy A. -/
def toCopyA (s : State) (p k : Nat) : Nat :=
  let b := s.copyB p
  match (List.range b.len).find? (fun g => b.key g == k) with
  | some g => (s.copyA p).key g
  | none => k

/-- A line or half-line read of native data from its granules (R188, R799). -/
def lineCpl (r : Req) (xs : List Gran) : Cpl :=
  match r.op with
  | .readHalf => readCpl r (xs.getD 0 Gran.bad) (xs.getD 0 Gran.bad) 0
  | _ => readCpl r (xs.getD 0 Gran.bad) (xs.getD 1 Gran.bad) r.grant

/-- A view read from its native granules (R206–R211). -/
def viewCpl (s : State) (r : Req) (m : Mode) (xs : List Gran) : Cpl :=
  let v := m.view (addrView r.hdr.addr)
  let half := match r.op with | .readHalf => true | _ => false
  let src := viewSource m v (addrOff r.hdr.addr) (if half then 64 else 128)
  let start := src.2.1 % 64
  let bytes := slice (xs.flatMap (fun x => if x.poison then zeros 64 else x.bytes)) start src.2.2
  let badIn (lo n : Nat) : Bool :=
    (List.range xs.length).any (fun i => (xs.getD i Gran.zero).poison && decide (64 * i < lo + n ∧ lo < 64 * i + 64))
  let out := if src.1 then scaleLine m.format v bytes else viewLine m.format v (s.num Obj.viewOverflow == 1) bytes
  if half then
    if badIn start src.2.2 then ⟨.poison, .dataHalf, 0, halfBit r.hdr.addr.toNat, 0, zeros 64⟩
    else ⟨.ok, .dataHalf, 0, 0, 0, slice out (if src.1 ∧ bit r.hdr.addr.toNat 6 then 64 else 0) 64⟩
  else
    let b0 := if src.1 then badIn start src.2.2 else badIn start (src.2.2 / 2)
    let b1 := if src.1 then b0 else badIn (start + src.2.2 / 2) (src.2.2 / 2)
    let data := (if b0 then zeros 64 else slice out 0 64) ++ (if b1 then zeros 64 else slice out 64 64)
    if b0 || b1 then ⟨.poison, .dataLine, 0, (if b0 then 1 else 0) + (if b1 then 2 else 0), 0, data⟩
    else ⟨.ok, .dataLine, r.grant, 0, 0, data⟩

/-- A granule that a request took from H7 or H8, in place of the stored one (R39). -/
def snapped (r : Req) (g : Nat) : Option Gran := (r.snap.find? (fun e => e.1 == g)).map (·.2)

/-- Complete a read from native granules. A completion that is not OK grants nothing, and the directory drops its record
(R803). -/
def completeRead (s : State) (r : Req) (m : Mode) (xs : List Gran) : State :=
  let hit := s.flipArmed 5
  let xs := if hit then xs.set 0 Gran.bad else xs
  let s : State := if hit then s.takeFlip 5 0 else s
  let c := if addrView r.hdr.addr ≠ 0 then s.viewCpl r m xs else lineCpl r xs
  let s : State := if addrView r.hdr.addr ≠ 0 then s.happen 0x3003 (some (srcBit r.hdr.src)) r.cls true 1 else s
  let s : State := if c.status ≠ .ok ∧ r.grant ≠ 0 ∧ !m.ro then s.releaseRec r r.line else s
  s.finish r (if c.status = .ok then c else { c with grant := 0 })

/-- A native granule of a block that the landing cache holds decoded is newer than its stored form (R24, R36). -/
def h8Gran (s : State) (r : Req) (g : Nat) : Option Gran :=
  if (s.copyA r.page).comp then
    match s.path.blocks.find? (fun e => e.1 == g / 64) with
    | some (_, b) => if b.st = .installing then none else some (b.grans.getD (g % 64) Gran.bad)
    | none => none
  else none

/-- A request with what the landing cache holds of its granules. -/
def snapH8 (s : State) (r : Req) (m : Mode) : Req :=
  { r with snap := r.snap ++ (r.grans m).filterMap (fun g => if (snapped r g).isSome then none else (s.h8Gran r g).map (fun x => (g, x))) }

/-- All the granules that a request waited for have arrived (steps 11 to 13). -/
def dataReady (s : State) (r : Req) : State :=
  let m := r.mode.getD Mode.none
  let gs := r.grans m
  let cold := gs.filter (fun g => (snapped r g).isNone)
  let y := s.nativeAll m r.page (s.copyA r.page) r.got cold
  let stored := List.zip cold y.1
  let xs := gs.map (fun g => (snapped r g).getD (((stored.find? (fun e => e.1 == g)).map (·.2)).getD Gran.bad))
  let s : State := y.2
  match r.op with
  | .writeMasked mask d =>
    let x := mergeGran (xs.getD 0 Gran.bad) d mask (r.bad != 0)
    let s : State := if x.2 then s.maskedPoison else s
    s.sendWrites r (s.granWrites m r.page (addrOff r.hdr.addr / 64 % 1024) x.1)
  | op =>
    if op.isAlu then s.fillStore r (xs.getD 0 Gran.bad) (xs.getD 1 Gran.bad)
    else s.completeRead r m xs

/-- A granule arrives for a request. -/
def gotGran (s : State) (id k : Nat) (x : Gran) : State :=
  match s.req id with
  | none => s
  | some r =>
    let r1 := { r with need := r.need.filter (· != k), got := r.got ++ [(k, x)] }
    let s : State := s.updReq id (fun _ => r1)
    if r1.need.isEmpty && r.need.contains k then s.dataReady r1 else s

/-- A granule read at a place for a request is decrypted, and arrives as what key `k` holds (R203). -/
def receive (s : State) (id place k : Nat) (x : Gran) : State :=
  let want := match s.req id with | some r => (r.tweaks.find? (fun e => e.1 == place)).map (·.2) | none => none
  let y := match want with | some t => s.opened place t x | none => (x, s)
  y.2.gotGran id k y.1

/-- Read what a request needs: copy A, or copy B where copy A is fenced (R520). -/
def fetch (s : State) (r0 : Req) (m : Mode) : State :=
  let r := s.snapH8 r0 m
  let keys := s.needKeys r m
  let both := keys ++ (if s.roleB r.page = .none then [] else keys.map (s.toCopyB r.page))
  let r1 := { r with stage := .mem, need := keys, got := [], tweaks := both.map (fun k => (k, s.tweakFor r.page k)) }
  let s : State := s.updReq r.id (fun _ => r1)
  if keys.isEmpty then s.dataReady r1
  else if s.copyFenced (s.copyA r.page) then s.readGrans r1 (keys.map (s.toCopyB r.page)) .mirror
  else s.readGrans r1 keys .read

/-- A full line's granules, halves that carry poison as poison (R492, R497). -/
def lineWrites (s : State) (r : Req) (m : Mode) (d : List Byte) : List GW :=
  let g := r.line * 2 % 1024
  s.granWrites m r.page g (if bit r.bad 0 then Gran.bad else ⟨slice d 0 64, false⟩)
    ++ s.granWrites m r.page (g + 1) (if bit r.bad 1 then Gran.bad else ⟨slice d 64 64, false⟩)

/-- The memory-side crossing finds a parity fault in a control field: the request stops (R497). An atomic's line leaves HOME. -/
def crossFault (s : State) (r : Req) : State :=
  let s : State := (s.takeFlip 2 1).finishPlain r .damaged
  let s : State := if r.grant ≠ 0 then s.releaseRec r r.line else s
  if r.op.isAlu then s.leaveHome r.line else s

/-- Step 8 for a page stored raw, and for reads of a compressed page. -/
def step8 (s : State) (r : Req) (m : Mode) : State :=
  if s.flipArmed 2 then s.crossFault r else
  match r.op with
  | .write d => s.sendWrites r (s.lineWrites r m d)
  | .writeback d => s.sendWrites r (s.lineWrites r m d)
  | .writeMasked mask d =>
    if mask = BitVec.allOnes 64 then
      s.sendWrites r (s.granWrites m r.page (addrOff r.hdr.addr / 64 % 1024) (if r.bad = 0 then ⟨d, false⟩ else Gran.bad))
    else s.fetch r m
  | _ => s.fetch r m

/-! ## H7 -/

/-- An atomic takes an entry of the store and reads its line; a line of an UNWRITTEN page is zero (R38, R234). -/
def startFetch (s : State) (r : Req) : State :=
  let m := r.mode.getD Mode.none
  let s : State := s.setStore r.line ⟨Gran.zero, Gran.zero, s.path.useClock, true, false, 0, false, m, none⟩
  if (s.copyA r.page).tier = 0 then s.fillStore r Gran.zero Gran.zero else if s.flipArmed 2 then s.crossFault r else s.fetch r m

/-- Atomics at H7 whose line has no entry, the first of each line, in grant order. -/
def h7Needy (s : State) : List Req :=
  (byGrant (s.path.reqs.filter (fun r => r.stage == .h7 && r.op.isAlu && (s.storeLine r.line).isNone))).foldl
    (fun acc r => if acc.any (fun q => q.line == r.line) then acc else acc ++ [r]) []

/-- Whether a line of the store is idle (R42). -/
def storeIdle (s : State) (l : Nat) (x : StoreLine) : Bool :=
  !x.filling && !x.leaving && !s.path.reqs.any (fun r => r.stage == .h7 && r.line == l)

/-- Begin the writeback of a line of the store, for a waiting atomic if one is named (R41, R399). -/
def evictStore (s : State) (l : Nat) (x0 : StoreLine) (gseq : Nat) (heir : Option Nat) : State :=
  let x := (s.storeRead l x0).1
  let s : State := (s.storeRead l x0).2
  let id := s.dev.serial
  let s : State := s.homeWrite l ((if x.lo.poison then zeros 64 else x.lo.bytes) ++ (if x.hi.poison then zeros 64 else x.hi.bytes))
    ((if x.lo.poison then 1 else 0) + (if x.hi.poison then 2 else 0)) gseq
  let s : State := s.setStore l { x with leaving := true, wb := id, heir := heir }
  { s with path := { s.path with reqs := updFirst (fun (q : Req) => q.id == id) (fun q => { q with mode := some x.mode }) s.path.reqs } }

/-- The least recently used idle line of the store. -/
def storeVictim (s : State) : Option (Nat × StoreLine) :=
  (s.path.store.filter (fun e => s.storeIdle e.1 e.2)).foldl (fun b e => match b with
    | none => some e
    | some (y : Nat × StoreLine) => if e.2.used < y.2.used then some e else b) none

/-- Entries for waiting atomics (R41, R42): first those freed for an atomic go to it, then free ones in grant order; for each of the
others the least recently used idle line is written back. -/
def pumpH7 (s : State) : State :=
  let needy := s.h7Needy
  let heirs := s.path.heirs
  let s : State := { s with path := { s.path with heirs := [] } }
  let free := 4096 - s.path.store.length
  let order := needy.filter (fun r => heirs.contains r.id) ++ needy.filter (fun r => !heirs.contains r.id)
  let s : State := s.each (order.take free) startFetch
  let due (r : Req) : Bool := s.path.store.any (fun e => e.2.leaving && e.2.heir == some r.id)
  s.each ((order.drop free).filter (fun r => !due r)) (fun s r => match s.storeVictim with
    | some (l, x) => s.evictStore l x (r.gseq - 1) (some r.id)
    | none => s)

/-- An atomic ends without its line: the line leaves HOME, unless another atomic reads it or the store holds it. -/
def homeEnds (s : State) (r : Req) : State :=
  if s.path.reqs.any (fun q => q.line == r.line && q.stage == .mem && q.op.isAlu) then s
  else match s.storeLine r.line with
    | some x => if x.filling then s.leaveHome r.line else s
    | none => s.leaveHome r.line

/-- A request at H7 (R39, R42). After its fence, atomics complete DAMAGED (Table 11-6). -/
def stepH7 (s : State) (r : Req) : State :=
  if r.op.isAlu && s.aluFenced then (s.finishPlain r .damaged).homeEnds r else
  let s : State := s.updReq r.id (fun q => { q with stage := .h7 })
  match s.storeLine r.line with
  | some x => if x.filling || x.leaving then s else s.serveH7 r.line
  | none => if r.op.isAlu then s.pumpH7 else s

/-! ## The landing cache (R36, R37, R197–R202) -/

/-- A block of the landing cache. -/
def block (s : State) (k : Nat) : Option Block := (s.path.blocks.find? (fun e => e.1 == k)).map (·.2)

/-- Whether a block's install is in progress (R197). -/
def installing (s : State) (k : Nat) : Bool := match s.block k with | some b => b.st == .installing | none => false

/-- Set or drop a block. -/
def setBlock (s : State) (k : Nat) (b : Option Block) : State :=
  { s with path := { s.path with
      useClock := s.path.useClock + 1
      blocks := match b with
        | some b => FMap.put s.path.blocks k { b with used := s.path.useClock }
        | none => FMap.del s.path.blocks k } }

/-- Room in the slice of a page's memory die: 512 blocks, the least recently used clean block giving way (Table 01-4). -/
def makeBlockRoom (s : State) (p : Nat) : Option State :=
  let die (q : Nat) : Nat := dieOf 0 (s.copyA q).loc
  let mine := s.path.blocks.filter (fun e => die (e.1 / 16) == die p)
  if mine.length < 512 then some s
  else match (mine.filter (fun e => e.2.st == .present && !e.2.dirty)).foldl (fun b e => match b with
      | none => some e
      | some (y : Nat × Block) => if e.2.used < y.2.used then some e else b) none with
    | some (k, _) => some (s.setBlock k none)
    | none => none

/-- A write merged into its block (R36, R189). -/
def mergeBlock (s : State) (r : Req) (k : Nat) (b : Block) : State :=
  let put (s : State) (gs : List Gran) : State := (s.setBlock k (some { b with grans := gs, dirty := true })).writeAccepted r
  match r.op with
  | .writeMasked mask d =>
    let i := addrOff r.hdr.addr / 64 % 64
    let x := mergeGran (b.grans.getD i Gran.bad) d mask (r.bad != 0)
    put (if x.2 then s.maskedPoison else s) (b.grans.set i x.1)
  | .write d =>
    let i := r.line * 2 % 64
    put s ((b.grans.set i (if bit r.bad 0 then Gran.bad else ⟨slice d 0 64, false⟩)).set (i + 1)
      (if bit r.bad 1 then Gran.bad else ⟨slice d 64 64, false⟩))
  | .writeback d =>
    let i := r.line * 2 % 64
    put s ((b.grans.set i (if bit r.bad 0 then Gran.bad else ⟨slice d 0 64, false⟩)).set (i + 1)
      (if bit r.bad 1 then Gran.bad else ⟨slice d 64 64, false⟩))
  | _ => s

/-- A parity fault in a landing cache block: a dirty block's granule is poisoned, a clean block is dropped (R189, R498). -/
def blockFault (s : State) (k i : Nat) : State :=
  match s.block k with
  | some b =>
    if b.st = .installing then s
    else if b.dirty then (s.takeFlip 4 0).setBlock k (some { b with grans := b.grans.set i Gran.bad })
    else (s.takeFlip 4 2).setBlock k none
  | none => s

/-- Step 7 for a compressed page of a region that is written (R36, R197): a hit is served from H8, a write installs its block, a
read that misses in some block goes on, and the granules of a block that is there come from H8 (R24). -/
def stepH8 (s : State) (r : Req) (m : Mode) : State :=
  let gs := r.grans m
  let k := gs.getD 0 0 / 64
  let wait (s : State) : State := s.updReq r.id (fun q => { q with stage := .h8 })
  let s : State := if s.flipArmed 4 then s.blockFault k (gs.getD 0 0 % 64) else s
  if gs.any (fun g => s.installing (g / 64)) then wait s
  else match s.block k with
  | some b =>
    if r.op.isWrite then s.mergeBlock r k b
    else if gs.all (fun g => g / 64 == k) then
      s.completeRead r m (gs.map (fun g => b.grans.getD (g % 64) Gran.bad))
    else s.step8 r m
  | none =>
    if r.op.isWrite then match s.makeBlockRoom r.page with
      | some s => wait (s.setBlock k (some ⟨.installing, [], false, m, 0, 0⟩))
      | none => wait s
    else s.step8 r m

/-! ## Step 6 -/

/-- A view request and H7 (R39, R801): it takes each native line that the store holds, in grant order, and waits for one that is still
read or written back; then it goes on. -/
def viewH7 (s : State) (r : Req) (m : Mode) (k : State → Req → State) : State :=
  let todo := (r.lines m).filter (fun l => !r.snap.any (fun e => e.1 == 2 * l))
  let ready (l : Nat) : Bool := match s.storeLine l with | some x => !x.filling && !x.leaving | none => false
  match todo.find? (fun l => s.atH7 l && !ready l) with
  | some l => s.updReq r.id (fun q => { q with stage := .h7, line := l })
  | none =>
    let s : State := s.each todo (fun s l => match s.storeLine l with | some x => s.snapLine r l x | none => s)
    match s.req r.id with
    | some r => k s r
    | none => s

/-- Step 7 and on: H7 for a line of the store, H8 for a compressed page, else the memory die (R24). -/
def step7 (s : State) (r : Req) (m : Mode) : State :=
  let home := r.via == .internal
  let on (s : State) (r : Req) : State := if (s.copyA r.page).comp then s.stepH8 r m else s.step8 r m
  if addrView r.hdr.addr ≠ 0 then s.viewH7 r m on
  else if !home && (r.op.isAlu || s.atH7 r.line) then s.stepH7 r
  else on s r

/-- Wait in H6. -/
def waitTide (s : State) (r : Req) : State := s.updReq r.id (fun q => { q with stage := .tide })

/-- End a request that step 6 refuses; an atomic's line leaves HOME, since nothing was read for it. -/
def refuse6 (s : State) (r : Req) (c : Cpl) : State :=
  let s : State := s.finish r { c with grant := 0 }
  let s : State := if r.grant ≠ 0 then s.releaseRec r r.line else s
  if r.op.isAlu then s.homeEnds r else s

/-- A write to an UNWRITTEN page (R252, R504, R802). -/
def firstWrite (s : State) (r : Req) (m : Mode) : State :=
  match s.place r.page m with
  | .done s => s.waitTide r
  | .later => s.waitTide r
  | .never =>
    let kept := r.via == .internal || (match r.op with | .writeback _ => true | _ => false)
    if kept then
      let s : State := (s.setEntry r.page { s.entry r.page with pstate := .faulted }).raiseSafety 0x2031 r.page [2]
      s.refuse6 r (Cpl.plain .damaged)
    else s.refuse6 r (Cpl.plain .capacity)

/-- Whether a request waits at step 6 for the clone step that is due (R271): its target's do, and its source's as in DRAINING; a write of
a source page that stores nothing yet, or that is shared already, first places it or copies it. -/
def cloneWaits (s : State) (r : Req) : Bool :=
  let st := (s.entry r.page).pstate
  match s.tide.clone with
  | some c => c.left != 0 && (r.page == c.dst || (r.page == c.src && !(r.op.isWrite && (st == .unwritten || st == .shared))))
  | none => false

/-- Whether a page is the source of a clone step that was installed in this cycle: its writes are in the clone (R271). -/
def inClone (s : State) (p : Nat) : Bool := s.tide.cloned == (p, s.dev.now + 1)

/-- ARG of trace point 0x04: TIER_A, COMP_A and PSTATE, in bits [1:0], [2] and [5:3] (DESIGN CHOICE of the places, log 28). -/
def mapArg (a : Copy) (p : PState) : Nat :=
  let st := match p with
    | .unwritten => 0 | .resident => 1 | .copying => 2 | .draining => 3 | .shared => 4 | .faulted => 5
  a.tier + (if a.comp then 4 else 0) + 8 * st

/-- Step 6 (Table 01-6, R228, R233, R234, R238, R241, R255, R273). -/
def step6 (s : State) (r : Req) : State :=
  let p := r.page
  let m := r.mode.getD Mode.none
  if s.tide.placing.contains p || s.cloneWaits r then s.waitTide r
  else
  let s : State := if s.flipArmed 7 then (s.takeFlip 7 2).uncachePage p else s
  let s : State := s.fetchEntry p
  if (s.entry p).bad then (s.raiseSafety 0x2030 p [3]).refuse6 r (poisonCpl r)
  else
    let s : State := s.decideFence p
    let s : State := if s.flipArmed 6 ∧ (s.copyA p).comp then (s.takeFlip 6 2).uncacheIndex (s.copyA p) else s
    let s : State := s.fetchIndex m p (s.copyA p)
    let e := s.entry p
    match e.pstate with
    | .faulted => s.refuse6 r (if r.op.isRead then poisonCpl r else Cpl.plain .damaged)
    | .unwritten =>
      if r.op.isWrite then s.firstWrite r m
      else if r.op.isAlu || (addrView r.hdr.addr = 0 && s.atH7 r.line) then s.stepH7 r
      else if addrView r.hdr.addr ≠ 0 then
        s.viewH7 r m (fun s r => s.completeRead r m ((r.grans m).map (fun g => (snapped r g).getD Gran.zero)))
      else s.completeRead r m ((r.grans m).map (fun _ => Gran.zero))
    | _ =>
      if s.pstateOf p = .draining then s.waitTide r
      else if e.pstate = .shared && r.op.isWrite && !s.inClone p then (s.queueJob .cow p).waitTide r
      else
        let s : State := if s.pstateOf p = .resident then (s.countAccess p).raiseHints p m else s
        let s : State := s.trace 4 (srcBit r.hdr.src) r.cls (some (addrOff r.hdr.addr)) 0 r.hdr.tag.toNat r.hdr.addr.toNat
          (mapArg (s.copyA p) (s.pstateOf p))
        let s : State := if r.op.isWrite then s.writeResolves p ((r.grans m).getD 0 0 % 1024 / 64) else s
        s.step7 r m

/-! ## Step 4 and the work list -/

/-- Step 4 (R142, R385, R365). A WRITEBACK that a transaction waits for and that step 4 refuses ends that wait (DEDUCED from
R323, log 14). -/
def step4 (s : State) (r : Req) : State :=
  match r.op with
  | .fence => s.updReq r.id (fun q => { q with stage := .fence })
  | .bol k a => s.bolPerform r k a
  | _ =>
    match s.resolve r with
    | .inl st =>
      let waits := match r.op with
        | .writeback _ => s.ownsLine r r.line && (match s.txn r.line with | some t => t.wbWait && !t.wbGot | none => false)
        | _ => false
      s.finishPlain { r with wbFor := waits } st
    | .inr m =>
      let s : State := s.trace 2 (srcBit r.hdr.src) r.cls (some (addrOff r.hdr.addr)) 0 r.hdr.tag.toNat r.hdr.addr.toNat (s.region m.region).live
      let g0 := (r.grans m).getD 0 0
      let r1 := { r with mode := some m, line := if addrView r.hdr.addr = 0 then r.line else g0 / 2, page := g0 / 1024 }
      (s.updReq r.id (fun _ => r1)).step5 r1

/-- Whether request q waits in H6 or H8 for r's line before r, and is one that r takes effect after: of r's origin, or the device's own
(R312, R359). -/
def before (q r : Req) : Bool :=
  (q.stage == Stage.tide || q.stage == Stage.h8) && q.line == r.line && q.id != r.id && decide (q.gseq < r.gseq)
    && (q.origin == r.origin || q.via == .internal)

/-- Step 6 or 7 of a request: it waits behind an earlier one of its line, and when it goes on, so do those behind it (R359). -/
def inTurn (s : State) (r : Req) (k : State → State) : State :=
  if !neverWaits r && r.via != .internal && s.path.reqs.any (fun q => before q r) then s.waitTide r
  else
    let s : State := k s
    let stays := match s.req r.id with | some q => q.stage == Stage.tide || q.stage == Stage.h8 | none => false
    if stays then s else s.wakeAll 6 (fun q => q.stage == Stage.tide && before { r with stage := Stage.tide } q)

/-- Continue the requests on the work list, each from its step, until none is left. -/
def drain : Nat → State → State
  | 0, s => s
  | n + 1, s =>
    match s.path.work with
    | [] => s
    | (id, step) :: rest =>
      let s : State := { s with path := { s.path with work := rest } }
      drain n (match s.req id with
        | none => s
        | some r =>
          if step = 5 then s.step5 r
          else s.inTurn r (fun s => if step = 6 then s.step6 r else s.step7 r (r.mode.getD Mode.none)))

/-- Whether a request counts among those that a FENCE or an ordered request waits for (R363, R365). -/
def fenceWaits (f q : Req) : Bool :=
  q.origin == f.origin && decide (q.id < f.id) && q.via != .internal && (q.op.isRead || q.ordered || q.op == .fence)

/-- FENCEs whose earlier requests have all been performed complete (R365). -/
def endFences : Nat → State → State
  | 0, s => s
  | n + 1, s =>
    match s.path.reqs.find? (fun f => f.stage == .fence && !s.path.reqs.any (fenceWaits f)) with
    | some f => endFences n ((s.bump Obj.fences).finishPlain f .ok)
    | none => s

/-- Everything that follows in the same step: waiting requests go on, atomics take entries, FENCEs complete. The bound is one
that no list of requests reaches (log 15). -/
@[irreducible] def settle (s : State) : State :=
  let s : State := drain (2 ^ 20) s
  let s : State := if s.path.store.isEmpty && s.h7Needy.isEmpty then s else drain (2 ^ 20) s.pumpH7
  endFences (2 ^ 17) s

end State

end Sys2Proof.Machine
end

