-- ==== Sys2Proof/Machine/Dram.lean ====
section
/-! DEFINITION. Channel queues and DRAM controllers: admission by deadline, the choice between the queues, activates with their
row-disturb defence, forwarding, and the return of read data (R425–R428, R443–R453, R458–R464, R490–R499, R510). -/

namespace Sys2Proof.Machine

/-- A channel's number: pseudo-channel 32 s + p, or 256 + m (8003.01). -/
def chanNum : Chan → Nat
  | .near s p => 32 * s.val + p.val
  | .far m => 256 + m.val

/-- A DRAM unit's number, as `State.unit` counts them. -/
def dunitNum : DUnit → Nat
  | .stack s => s.val
  | .chan m => 8 + m.val

namespace State

/-! ## Admission (R425) -/

/-- Depth of a read or write queue (Table 09-5). -/
def depth (c : Nat) : Nat := if isFar c then 64 else 32

/-- Whether an access is overdue (R424, R426). -/
def overdue (s : State) (a : Acc) : Bool :=
  let d := (s.now16 + 2 ^ 24 - a.stamp % 2 ^ 24) % 2 ^ 24
  a.overdue || decide (1 ≤ d ∧ d < 2 ^ 23)

/-- The granules that an access touches. -/
def Acc.allKeys (a : Acc) : List Nat := if a.write then a.wr.map (·.key) else a.keys

/-- Whether an access waits for its row (R514, R516). -/
def accHeld (s : State) (c : Nat) (a : Acc) : Bool :=
  let x := s.chan c
  (Acc.allKeys a).any (fun k => x.remap.any (fun e => e.2.row == s.rowOf k && e.2.st == .installing))

/-- The requester's lines that an access serves. -/
def accLines (s : State) (a : Acc) : List Nat :=
  match a.owner with
  | some id => match s.req id with
    | some r => if addrView r.hdr.addr = 0 then [a.line] else r.ownLines
    | none => [a.line]
  | none => []

/-- Whether an earlier-granted request to the same line still waits for this channel: an access that waits, an access of the same
granule of which one is a write (a page that shares it, R271; the device's own writes), or a merge whose write has not come yet (R425, R444, R801; log 16). -/
def behindLine (s : State) (c : Nat) (a : Acc) : Bool :=
  let ls := s.accLines a
  (s.chan c).wait.any (fun b => ((s.accLines b).any ls.contains || ((b.write || a.write) && (Acc.allKeys b).any (Acc.allKeys a).contains))
      && (decide (b.gseq < a.gseq) || (b.gseq == a.gseq && decide (b.id < a.id))))
    || s.path.reqs.any (fun r => ls.contains r.line && decide (r.gseq < a.gseq) && r.stage == .mem && !r.need.isEmpty
        && (match r.op with | .writeMasked _ _ => true | _ => false)
        && (match a.owner with | some o => o != r.id | none => true))

/-- The access that the admission procedure picks (R425, R427). -/
def pickAcc (s : State) (c : Nat) : Option Acc :=
  let x := s.chan c
  let room (a : Acc) : Bool := decide ((if a.write then x.wq.length else x.rq.length) < depth c)
  let w := x.wait.filter (fun a => room a && !s.accHeld c a && !s.behindLine c a)
  let least (f : Acc → Nat) (as : List Acc) : Option Acc := as.foldl (fun b a => match b with
    | none => some a
    | some y => if f a < f y ∨ (f a = f y ∧ a.gseq < y.gseq) then some a else some y) none
  let late := w.filter s.overdue
  if late.isEmpty then least (fun a => (a.stamp + 2 ^ 24 - s.now16 % 2 ^ 24) % 2 ^ 24) w else least (·.gseq) late

/-- Deliver a granule to the request that an access serves; a key of copy B is the same granule of copy A. -/
def deliver (s : State) (a : Acc) (k : Nat) (g : Gran) : State :=
  match a.owner with
  | none => s
  | some id => match s.req id with
    | none => s
    | some r => s.receive id k (if a.purpose = .mirror then s.toCopyA r.page k else k) g

/-- A write access enters the write queue (R34, R443, R510). -/
def admitWrite (s : State) (c : Nat) (a : Acc) : State :=
  let n := s.newId.1
  let s : State := s.newId.2
  let stale : Bool := match a.purpose with
    | .cond since => a.wr.any (fun w => decide (since < FMap.find 0 (s.chan c).lastWr w.key))
    | _ => false
  if stale then s
  else
    let hit := s.flipArmed 8
    let s : State := if hit then s.takeFlip 8 0 else s
    let a : Acc := match a.wr with
      | w :: ws => if hit then { a with wr := { w with gran := Gran.bad } :: ws } else a
      | [] => a
    let s : State := s.each a.wr (fun s w => s.markWrite c w.key n)
    let s : State := s.setChan c { s.chan c with wq := (s.chan c).wq ++ [{ a with entered := n }] }
    match a.owner with
    | none => s
    | some id => match s.req id with
      | none => s
      | some r =>
        let r1 := { r with writes := r.writes - 1 }
        let s : State := s.updReq id (fun _ => r1)
        if r1.writes = 0 then s.writeAccepted r1 else s

/-- A read access enters the read queue, taking what the write queue holds (R448, R449). -/
def admitRead (s : State) (c : Nat) (a : Acc) : State :=
  let n := s.newId.1
  let s : State := s.newId.2
  let fwd := a.keys.filterMap (fun k => (s.queued k).map (fun w => (k, w.gran)))
  let rest := a.keys.filter (fun k => (s.queued k).isNone)
  let s : State := s.bump (if isFar c then Obj.chForwards (c - 256) else Obj.stackForwards (c / 32)) fwd.length
  let s : State := s.happen 0x6003 none 0 true fwd.length
  if rest.isEmpty then s.each fwd (fun s x => s.deliver a x.1 x.2)
  else s.setChan c { s.chan c with rq := (s.chan c).rq ++ [{ a with keys := rest, got := fwd, entered := n }] }

/-- One admission at a channel (R425–R428); none while it leaves self-refresh (R469, R470). -/
def admitNext (s : State) (c : Nat) : State :=
  let x := s.chan c
  if x.sr ≠ .no then s
  else match s.pickAcc c with
    | none => s
    | some a =>
      let src := match a.owner with | some id => ((s.req id).map (fun r => srcBit r.hdr.src)).getD 17 | none => 17
      let s : State := if s.overdue a then (s.bump (Obj.classDeadlineMisses a.cls)).happen 0x5003 (some src) a.cls true 1 else s
      let s : State := s.happen (if isFar c then 0x6002 else 0x6001) (some src) a.cls true 1
      let s : State := s.trace 5 src a.cls (some (a.line * 128)) 0 0 (s.ownNode * 2 ^ 46 + a.line * 128) ((s.dev.now - a.since) / 2)
      let s : State := s.setChan c { s.chan c with wait := (s.chan c).wait.filter (fun b => b.id != a.id) }
      if a.write then s.admitWrite c a else s.admitRead c a

/-! ## Activates (R451–R464) -/

/-- One step of the near controller's generator, x^32 + x^22 + x^2 + x + 1 (R459). -/
def lfsrStep (x : BitVec 32) : BitVec 32 :=
  (x <<< 1) ||| (if (((x.getLsbD 31) ^^ (x.getLsbD 21)) ^^ ((x.getLsbD 1) ^^ (x.getLsbD 0))) then 1#32 else 0#32)

/-- One draw: 32 steps. -/
def lfsrDraw (x : BitVec 32) : BitVec 32 := (List.range 32).foldl (fun y _ => lfsrStep y) x

/-- The row-disturb table of a far bank after an activate: the table and whether the neighbours are refreshed (R460). -/
def rdActivate (t : Nat) (tab : List RdEnt) (r : Nat) : List RdEnt × Bool :=
  let full : List RdEnt := tab ++ List.replicate (32 - tab.length) ⟨2 ^ 32, 0, 0⟩
  let i := match full.findIdx? (fun e => e.row == r) with
    | some i => i
    | none => (List.range full.length).foldl (fun b j =>
        if (full.getD j ⟨0, 0, 0⟩).est < (full.getD b ⟨0, 0, 0⟩).est then j else b) 0
  let e := full.getD i ⟨0, 0, 0⟩
  let e1 : RdEnt := if e.row = r then { e with est := e.est + 1 } else ⟨r, e.est + 1, 0⟩
  let fire := decide (t ≤ e1.est - e1.base)
  (full.set i (if fire then { e1 with base := e1.est } else e1), fire)

/-- The neighbours of a row within a radius, among the rows of its bank (R458, R461). -/
def neighbours (rows radius r : Nat) : List Nat :=
  ((List.range radius).flatMap (fun i => (if i < r then [r - (i + 1)] else []) ++ [r + (i + 1)])).filter (fun x => decide (x < rows))

/-- The neighbours of a row are to be refreshed before the next activate of its bank; the refresh is counted. -/
def dueNbrs (s : State) (c bank : Nat) (rows : List Nat) : State :=
  (s.setChan c { s.chan c with nbr := FMap.put (s.chan c).nbr bank rows }).bump
    (if isFar c then Obj.chNeighbourRefreshes (c - 256) else Obj.stackNeighbourRefreshes (c / 32))

/-- The neighbours that are due in a bank are refreshed, ahead of an activate of it (R458, R460). -/
def refreshNbrs (s : State) (c bank : Nat) : State :=
  s.setChan c { s.chan c with nbr := FMap.del (s.chan c).nbr bank }

/-- An activate of a near row: one draw of the stack's generator for it, whatever the decision (R458, R459). A draw whose low k
bits are zero refreshes the neighbours (DESIGN CHOICE, log 17). -/
def nearActivate (s : State) (c bank row : Nat) : State :=
  let k := 32 * (c / 32)
  let x := lfsrDraw (s.chan k).lfsr
  let s : State := (s.setChan k { s.chan k with lfsr := x }).bump (Obj.stackActivates (c / 32))
  if x.toNat % 2 ^ s.num Obj.nearTrrLog2 = 0 then s.dueNbrs c bank (neighbours (2 ^ 17) 1 row) else s

/-- The rows of a bank of a far slot (Table 09-1). -/
def farRows (s : State) (n : Nat) : Nat := 2 ^ ((s.slot n).spd.map rowBits).getD 16

/-- An activate of a far row: the counting table and refresh management (R460, R463, R464). -/
def farActivate (s : State) (c bank row : Nat) : State :=
  let m := c - 256
  let t := s.num Obj.farRdThreshold
  let s : State := s.bump (Obj.chActivates m)
  let old := FMap.find [] (s.chan c).rd bank
  let x := rdActivate t old row
  let sat (tab : List RdEnt) : Bool := tab.length == 32 && tab.all (fun e => decide (t ≤ e.est))
  let s : State := s.setChan c { s.chan c with rd := FMap.put (s.chan c).rd bank x.1 }
  let s : State := if x.2 then s.dueNbrs c bank (neighbours (s.farRows (2 * m + bank / 256)) (s.num Obj.farRdRadius) row) else s
  let s : State := if sat x.1 && !sat old then
      let s : State := s.bump (Obj.chRdSaturations m)
      if (s.chan c).satDone then s else (s.raise 0x6010 m).setChan c { s.chan c with satDone := true }
    else s
  let slot := 2 * m + bank / 256
  let rfm : Bool := s.num Obj.farRfmEnable == 1 || ((s.slot slot).spd.map (·.rfm)).getD false
  if !rfm then s
  else
    let n := FMap.find 0 (s.chan c).raa bank + 1
    if max 1 (Config.raaimt slot) ≤ n then
      (s.setChan c { s.chan c with raa := FMap.set 0 (s.chan c).raa bank (n - max 1 (Config.raaimt slot)) }).bump (Obj.chRfmIssued m)
    else s.setChan c { s.chan c with raa := FMap.set 0 (s.chan c).raa bank n }

/-- Open the row of a granule, if it is not open; with an idle timer of 0 the column command closes it again (R451–R453). -/
def openFor (s : State) (k : Nat) : State :=
  let c := chanOf k
  let b := (s.bankRow k).1
  let row := (s.bankRow k).2
  let isOpen := (s.chan c).openRow.any (fun e => e.1 == b && e.2 == row)
  let s : State := if isOpen then s
    else
      let s : State := s.refreshNbrs c b
      if isFar c then s.farActivate c b row else s.nearActivate c b row
  let rows := (s.chan c).openRow.filter (fun e => e.1 != b)
  let auto := s.num (if isFar c then Obj.farIdleTimer else Obj.nearIdleTimer) = 0
  s.setChan c { s.chan c with openRow := if auto then rows else rows ++ [(b, row)] }

/-! ## The choice between the queues (R445–R450) -/

/-- Whether the head of the write queue waits for a read that was admitted before it, or whose data has not returned (R447; log
18). -/
def blockedWr (x : ChanSt) (w : Acc) : Bool :=
  let ks := w.wr.map (·.key)
  x.rq.any (fun r => decide (r.entered < w.entered) && r.keys.any ks.contains) || x.flight.any (fun r => r.keys.any ks.contains)

/-- The column command of the write queue's head. -/
def issueWrite (s : State) (c : Nat) (w : Acc) : State :=
  let s : State := s.setChan c { s.chan c with wq := (s.chan c).wq.drop 1 }
  s.each w.wr (fun s g => ((s.openFor g.key).addUse c 64).dramWrite g)

/-- The column command of the read queue's head. -/
def issueRead (s : State) (c : Nat) (r : Acc) : State :=
  let x := s.chan c
  let s : State := s.setChan c { x with rq := x.rq.drop 1, flight := x.flight ++ [r] }
  s.each r.keys (fun s k => (s.openFor k).addUse c 64)

/-- One controller cycle of a channel (R446). Nothing is issued during a recalibration pause or in self-refresh (R469, R475);
while both queues are empty, postponed refreshes are made up, and four of them are made up before the next command (R457). -/
def issue (s : State) (c : Nat) : State :=
  let x0 := s.chan c
  if x0.recal || x0.sr != .no then s
  else
    let empty := x0.rq.isEmpty && x0.wq.isEmpty
    let s : State := if x0.owed ≠ 0 ∧ (empty ∨ 4 ≤ x0.owed) then s.setChan c { x0 with owed := 0, openRow := [] } else s
    let x := s.chan c
    let hi := s.num (if isFar c then Obj.farWqHigh else Obj.nearWqHigh)
    let lo := s.num (if isFar c then Obj.farWqLow else Obj.nearWqLow)
    let dr := if x.draining then !(decide (x.wq.length ≤ lo) && !x.rq.isEmpty)
      else decide (hi ≤ x.wq.length) || (x.rq.isEmpty && !x.wq.isEmpty)
    let s : State := s.setChan c { x with draining := dr }
    match x.wq, x.rq with
    | w :: _, r :: _ => if dr && !blockedWr x w then s.issueWrite c w else s.issueRead c r
    | w :: _, [] => if dr && !blockedWr x w then s.issueWrite c w else s
    | [], r :: _ => s.issueRead c r
    | [], [] => s

/-! ## The return of read data (R490–R499) -/

/-- What an access expects in V0: its region's realm. -/
def ownerV0 (s : State) (a : Acc) : Nat :=
  match a.owner with
  | some id => match s.req id with
    | some r => v0Of (r.mode.getD Mode.none)
    | none => 0
  | none => 0

/-- Whether a realm's keys are lost in a die (R528). -/
def keyLost (s : State) (a : Acc) (k : Nat) : Bool :=
  match a.owner with
  | some id => match s.req id with
    | some r => s.dram.keyBad.any (fun e => e.1 == dieOf (keyTier k) (keyLoc k) && e.2 == (r.mode.getD Mode.none).realm)
    | none => false
  | none => false

/-- Copy B did not recover a granule of copy A: copy A is poisoned with its event (R495, R499). -/
def poisonFirst (s : State) (a : Acc) (k v0 : Nat) : State :=
  match a.purpose, a.owner with
  | .mirror, some id => match s.req id with
    | some r =>
      let ka := s.toCopyA r.page k
      if s.keyFenced ka then s
      else match s.decodeAt ka [] v0 with
        | .uncorrectable => (s.raiseSafety 0x7002 ka [1]).condWrite ka Gran.bad 0 0 a.entered
        | .tagMismatch v0 v1 => (s.raiseSafety 0x7003 ka (tagClasses v0 v1)).condWrite ka Gran.bad 0 0 a.entered
        | _ => s
    | none => s
  | _, _ => s

/-- One granule of a read returns from DRAM with its decode outcome (R490, R495, R499). -/
def granReturn (s : State) (a : Acc) (k : Nat) (extra : List SymErr) : State :=
  let v0 := s.ownerV0 a
  let o := s.decodeAt k extra v0
  let g := (s.granOf k o).1
  let s : State := (s.granOf k o).2
  let s : State := match o with | .corrected _ => s.noteCorrected k | _ => s
  if s.keyLost a k then s.deliver a k Gran.bad
  else if outGood o then
    let s : State := match a.purpose, a.owner with
      | .mirror, some id => match s.req id with
        | some r =>
          let ka := s.toCopyA r.page k
          if s.keyFenced ka then s
          else ((s.bump Obj.mirrorRecoveries).raise 0x7004 ka).condWrite ka g v0 (s.tweakFor r.page ka) a.entered
        | none => s
      | _, _ => s
    s.deliver a k g
  else
    let mirror : Option Nat := match a.purpose, a.owner with
      | .read, some id => match s.req id with
        | some r => if s.roleB r.page = .mirror ∧ !s.copyFenced (s.copyB r.page) then some (s.toCopyB r.page k) else none
        | none => none
      | _, _ => none
    match mirror, a.owner with
    | some kb, some id => match s.req id with
      | some r => (s.noteBad k o true).readGrans r [kb] .mirror
      | none => s
    | _, _ =>
      let s : State := s.noteBad k o false
      let s : State := match o with
        | .poisoned => s
        | _ => s.condWrite k Gran.bad 0 0 a.entered
      (s.poisonFirst a k v0).deliver a k Gran.bad

/-- The oldest read in flight of a channel returns; `errs` are the errors that this read alone meets, granule by granule. -/
def readReturn (s : State) (c : Nat) (errs : List (List SymErr)) : State :=
  let x := s.chan c
  match x.flight with
  | [] => s
  | a :: rest =>
    let s : State := s.setChan c { x with flight := rest }
    let s : State := s.each a.got (fun s e => s.deliver a e.1 e.2)
    s.each ((List.range a.keys.length).map (fun i => (a.keys.getD i 0, errs.getD i []))) (fun s e => s.granReturn a e.1 e.2)

end State

end Sys2Proof.Machine
end

