-- ==== Sys2Proof/Machine/Copying.lean ====
section
/-! DEFINITION. How the device reads, encodes and lays pages: a page's content for a copy pass, blocks as they are stored, packed
extents, and code table slots (chapters 04 and 05). -/

namespace Sys2Proof.Machine

namespace State

/-! ## Reading a page (R239, R244, R494, R499) -/

/-- The stored granules of a copy of a page, in order of the extent. -/
def copyGrans (s : State) (m : Mode) (p : Nat) (c : Copy) : List (Nat × Gran) × State :=
  (if c.tier = 0 then [] else List.range c.len).foldl (fun (a : List (Nat × Gran) × State) i =>
    let x := a.2.copyGran m p c i
    (a.1 ++ [(c.key i, x.1)], x.2.2)) ([], s)

/-- The copy that a job reads: copy A, or copy B where copy A is lent or fenced (R281, R499). -/
def sourceCopy (s : State) (p : Nat) : Copy :=
  let a := s.copyA p
  if (a.tier = 3 ∨ s.copyFenced a) ∧ s.roleB p ≠ .none then s.copyB p else a

/-- The 1,024 native granules of a page from its stored ones, with the blocks that the landing cache holds over them. -/
def nativeOf (s : State) (m : Mode) (p : Nat) (c : Copy) (got : List (Nat × Gran)) : List Gran :=
  (List.range 1024).map (fun g =>
    match s.block (p * 16 + g / 64) with
    | some b => if b.st = .installing then (s.nativeGran m c got g).1 else b.grans.getD (g % 64) Gran.bad
    | none => (s.nativeGran m c got g).1)

/-- The native granules of a page as the device reads them. -/
def pageGrans (s : State) (m : Mode) (p : Nat) : List Gran × State :=
  let c := s.sourceCopy p
  let x := s.copyGrans m p c
  (x.2.nativeOf m p c x.1, x.2)

/-- The raw bytes of granules, those of a poisoned one as zeros. -/
def granBytes (gs : List Gran) : List Byte := gs.flatMap (fun g => if g.poison then zeros 64 else g.bytes)

/-! ## Encoding (R160–R172, R190, R213) -/

/-- Bytes as granules. -/
def gransOf (bs : List Byte) : List Gran := (List.range ((bs.length + 63) / 64)).map (fun i => ⟨slice bs (64 * i) 64, false⟩)

/-- A 4 KiB block as it would be stored with a slot's table: KIND and its granules. -/
def codeBlock (s : State) (fmt slot : Nat) (gs : List Gran) : Nat × List Gran :=
  if gs.any (·.poison) then (1, gs)
  else
    let x := encodeBlock fmt (s.tab slot).lens (granBytes gs)
    match x.kind with
    | 2 => (2, [])
    | 1 => (1, gs)
    | _ => (0, gransOf x.bytes)

/-- Encode a block for its place (Tidegauge selector 0x3002). -/
def encodeBlk (s : State) (fmt slot blk : Nat) (gs : List Gran) : JobBlk × State :=
  let x := s.codeBlock fmt slot gs
  (⟨blk, x.1, if x.1 = 0 then slot else 0, x.2, true⟩, s.happen 0x3002 none 0 true 1)

/-- A coded block is stored: it is counted by its KIND, and an armed flip mask alters the next one stored CODED (R213, R214). -/
def storeBlk (s : State) (b : JobBlk) : JobBlk × State :=
  if !b.fresh then (b, s)
  else
    let b := { b with fresh := false }
    match b.kind with
    | 2 => (b, s.bump Obj.blocksZero)
    | 1 => (b, s.bump Obj.blocksRaw)
    | _ =>
      let flip := s.num Obj.codecFlipMask
      let s : State := s.bump Obj.blocksCoded
      if flip = 0 then (b, s)
      else match b.grans with
        | g :: gs =>
          let bs := leBytes 4 (leNat (slice g.bytes 0 4) ^^^ flip) ++ g.bytes.drop 4
          ({ b with grans := { g with bytes := bs } :: gs }, (s.setNum Obj.codecFlipMask 0).raise 0x3006)
        | [] => (b, s)

/-- Coded blocks are stored, in order. -/
def storeBlks (s : State) (bs : List JobBlk) : List JobBlk × State :=
  bs.foldl (fun (a : List JobBlk × State) b => (a.1 ++ [(a.2.storeBlk b).1], (a.2.storeBlk b).2)) ([], s)

/-- The granules of blocks. -/
def blkTotal (bs : List JobBlk) : Nat := (bs.map (fun b => b.grans.length)).sum

/-- Whether blocks may be stored as a compressed page (R162). -/
def fitsComp (bs : List JobBlk) : Bool := decide (1 + blkTotal bs ≤ 1008)

/-- The index entries of blocks laid contiguously in block order from granule 1. -/
def layIndex (bs : List JobBlk) : List IdxEnt :=
  (bs.foldl (fun (a : List IdxEnt × Nat) b =>
    (a.1 ++ [⟨if b.kind = 2 then 0 else a.2, b.grans.length, b.kind, b.slot⟩], a.2 + b.grans.length)) ([], 1)).1

/-- The compressed extent of blocks, with `slack` further granules at most (R201, R248). -/
def layExtent (slack : Nat) (bs : List JobBlk) : List Gran :=
  ⟨idxBytes (layIndex bs), false⟩ :: (bs.flatMap (·.grans)) ++ List.replicate (min slack (1023 - blkTotal bs)) Gran.zero

/-- The length of a page's extent as coding it would give now. -/
def codedLen (s : State) (m : Mode) (p slack : Nat) : Nat :=
  let gs := (s.pageGrans m p).1
  let slot := s.encodeSlot m.region m.format
  let bs := (List.range 16).map (fun b => let x := s.codeBlock m.format slot ((gs.drop (64 * b)).take 64); JobBlk.mk b x.1 slot x.2 true)
  if fitsComp bs then (layExtent slack bs).length else 1024

/-! ## Packed extents (R216, R217) -/

/-- The place in a region's packed bays of a unit that its next extent begins at: none if the last bay is full or gone. -/
def packTail (s : State) (k unit : Nat) : Option Nat :=
  match (s.region k).tails.find? (fun e => e.1 == unit) with
  | some (_, loc) => if loc % 1024 ≠ 0 then some loc else none
  | none => none

/-- The unit for a region's next packed extent in a tier, off some dies: one with an open bay, else the allocator's choice
(DESIGN CHOICE, log 32). -/
def packUnit (s : State) (k tier : Nat) (not : List Nat) : Option Nat :=
  let fits (u : Nat) : Bool := unitTier u == tier && !not.contains (dieOf tier (bayLoc u 0)) && s.unitOpen u && (s.packTail k u).isSome
  match ((s.region k).tails.map (·.1)).find? fits with
  | some u => some u
  | none => if tier = 3 then ((List.range 64).map (56 + ·)).find? (fun u => decide (0 < s.freeBays u)) else s.pickUnit tier not

/-- Take the place of a packed extent of n granules for a page of region k. -/
def packIn (s : State) (k unit page n : Nat) : Option (Copy × State) :=
  let setTail (s : State) (loc : Nat) : State := s.setRegion k { s.region k with tails := FMap.put (s.region k).tails unit loc }
  let tier := unitTier unit
  match s.packTail k unit with
  | some loc =>
    if loc % 1024 + n ≤ 1024 then some (⟨tier, loc, 0, n, false, 0⟩, setTail s (loc + n))
    else match s.freeBay unit with
      | none => none
      | some b =>
        let rest := loc % 1024 + n - 1024
        some (⟨tier, loc, bayLoc unit b / 1024, n, false, 0⟩, setTail (s.takeBay unit b page) (bayLoc unit b + rest))
  | none => match s.freeBay unit with
    | none => none
    | some b => some (⟨tier, bayLoc unit b, 0, n, false, 0⟩, setTail (s.takeBay unit b page) (bayLoc unit b + n))

/-- A page's extent is packed from now on. -/
def markPacked (s : State) (k page : Nat) : State :=
  let r := s.region k
  if r.packed.contains page then s else s.setRegion k { r with packed := r.packed ++ [page] }

/-- Places for a packed page: one, or two on different dies for a MIRRORED region. -/
def packCopies (s : State) (k tier page n : Nat) (mirror : Bool) : Option (Copy × Copy × State) :=
  match s.packUnit k tier [] with
  | none => none
  | some u => match s.packIn k u page n with
    | none => none
    | some (a, s1) =>
      if !mirror then some (a, Copy.none, s1)
      else match s1.packUnit k tier [dieOf tier a.loc] with
        | none => none
        | some v => match s1.packIn k v page n with
          | none => none
          | some (b, s2) => some (a, b, s2)

/-- The writes that put an extent into a copy of a page. -/
def extentWrites (s : State) (p : Nat) (c : Copy) (m : Mode) (gs : List Gran) : List GW :=
  if c.tier = 0 then [] else gs.zipIdx.map (fun x => s.granAt p c (v0Of m) x.2 x.1)

/-! ## VERSION and the copies of a page (R229, R272) -/

/-- Set the VERSION that governs a page's copies. -/
def setVersion (s : State) (p : Nat) (v : BitVec 32) : State :=
  let e := s.entry p
  if e.pstate = .shared then s.setShare e.share { s.share e.share with version := v } else s.setEntry p { e with version := v }

/-- Switch a page to its LOWER copy, which keeps its VDELTA; VERSION is not changed (R251). -/
def toLower (s : State) (p : Nat) : State :=
  let a := s.copyA p
  let b := s.copyB p
  if s.roleB p = .lower then (s.setCopies p b Copy.none .none).leave p a else s

/-- Blocks of a page leave the landing cache. -/
def dropBlocks (s : State) (p : Nat) : State :=
  { s with path := { s.path with blocks := s.path.blocks.filter (fun e => !(e.1 / 16 == p && e.2.st != .installing)) } }

/-- Wake the requests that wait at step 6 for a page, or for the share record it points to (R242). -/
def wakePage (s : State) (p : Nat) : State :=
  s.wakeAll 6 (fun r => r.stage == .tide && s.jobKey r.page == s.jobKey p)

end State

end Sys2Proof.Machine
end

