-- ==== Sys2Proof/Machine/Transfers.lean ====
section
/-! DEFINITION. Request slots, and the transfers of migration jobs: the copying of a block, and the requests that source 17 is granted
(R238–R248, R414, R415, R422). -/

namespace Sys2Proof.Machine

namespace State

/-! ## What a job copies (R239, R244, R248, R249, R287) -/

/-- Whether a request is pinned to a page's copies (R27): past step 6, on its way through H8 or the memory die. One that waits in H7
resolves its frame anew when it goes on (R38, R42). -/
def pinned (s : State) (p : Nat) : Bool :=
  s.path.reqs.any (fun r => (r.stage == .mem || r.stage == .h8) && s.jobKey r.page == s.jobKey p) || s.tide.lentRds.any (fun x =>
    match s.req x.req with | some r => s.jobKey r.page == s.jobKey p | none => false)

/-- The stored form that a job gives its destination: whether the extent is copied unchanged, or coded with some slack, or raw. -/
inductive Form where
  | same
  | coded (slack : Nat)
  | raw
  deriving DecidableEq, Repr

/-- The form of a job's destination (Table 04-2, R248, R249, R201). -/
def jobForm (s : State) (j : Job) (m : Mode) : Form :=
  let slack := s.num Obj.slackGranules
  match j.kind with
  | .flood => if m.ro then .same else .raw
  | .capEbb => if m.ro then .same else if m.comp = 2 then .coded slack else .raw
  | .relay => .coded slack
  | .seal => .coded 0
  | .cow => if (s.copyA j.page).comp ∧ j.dstA.tier = 1 then .raw else .same
  | _ => .same

/-- The copy that a job reads: a whole bay, the copy that an evacuation moves, or copy A (copy B where copy A is lent or fenced). -/
def jobSource (s : State) (j : Job) : Copy :=
  if j.bay ≠ 0 then ⟨2, bayLoc ((j.bay - 1) / 2 ^ 24) ((j.bay - 1) % 2 ^ 24), 0, 1024, false, 0⟩
  else if j.moveB ∧ s.roleB j.page ≠ .none then s.copyB j.page
  else s.sourceCopy j.page

/-- The VERSION of a job's destination (R204, R229): one above the page's, and a private copy of a sharer is encrypted under the sharer's
own number. -/
def nextVer (s : State) (j : Job) : BitVec 32 :=
  if j.kind = .cow ∧ s.tweakPage j.page ≠ j.page then (s.entry j.page).version + 1 else s.versionOf j.page + 1

/-- The page number that a job's destination is encrypted under. -/
def jobPage (s : State) (j : Job) : Nat := if j.kind = .cow then j.page else s.tweakPage j.page

/-- A granule of a job's destination. -/
def jobGran (s : State) (j : Job) (m : Mode) (c : Copy) (i : Nat) (x : Gran) : GW :=
  ⟨c.key i, x, if x.poison then 0 else v0Of m, if x.poison then 0 else tweakOf (s.jobPage j) i j.ver.toNat⟩

/-- The writes of granules to both destinations of a job, by their index in the extent. -/
def jobWrites (s : State) (j : Job) (m : Mode) (xs : List (Nat × Gran)) : List GW :=
  [j.dstA, j.dstB].flatMap (fun c => if c.tier = 0 then [] else xs.map (fun x => s.jobGran j m c x.1 x.2))

/-- The class of a job's transfers (R247): sealing switches and re-lays run under the region's DEFAULT_CLASS. -/
def jobClass (s : State) (j : Job) : Nat :=
  match j.kind with
  | .seal => (s.pageMode j.page).cls
  | .relay => (s.pageMode j.page).cls
  | _ => s.num Obj.migrationClass

/-- Granules of an extent that block b stands for in a job: those that hold native block b, or in a first pass that copies the extent
unchanged its b-th sixteenth. -/
def jobIdxs (s : State) (j : Job) (m : Mode) (c : Copy) (b : Nat) : List Nat :=
  let part := ((List.range 64).map (64 * b + ·)).filter (· < c.len)
  if s.jobForm j m = .same ∧ (j.first ∨ j.bay ≠ 0 ∨ !c.comp) then part
  else if !c.comp then part
  else
    let e := (s.indexOf c).getD b ⟨0, 0, 2, 0⟩
    let own := if s.indexBad m c then [] else (List.range e.len).map (e.off + ·)
    if s.jobForm j m = .same then 0 :: own else own

/-- The page, copy and index that a granule of a bay belongs to (R216). -/
def granOwner (s : State) (k : Nat) : Option (Nat × Copy × Nat) :=
  (s.tide.map.filter (fun e => e.2.pstate != .unwritten)).findSome? (fun e =>
    [s.copyA e.1, s.copyB e.1].findSome? (fun c =>
      if c.tier = 0 then none
      else ((List.range c.len).find? (fun i => c.key i == k)).map (fun i => (e.1, c, i))))

/-- The native content of a block as a job reads it: the landing cache's, which is newer, else the source's. A re-lay takes only the
blocks whose eviction waits for it, unless it lays the page raw (R201, R202). Answers whether a granule was found bad. -/
def jobNative (s : State) (j : Job) (m : Mode) (c : Copy) (b : Nat) (raw : Bool := false) : List Gran × Bool × State :=
  let held := match s.block (j.page * 16 + b) with
    | some x => if x.st = .installing ∨ (j.kind = .relay ∧ x.due ≠ 1 ∧ !raw) then none else some x.grans
    | none => none
  match held with
  | some gs => (gs, false, s)
  | none =>
    let got := (s.jobIdxs j m c b).foldl (fun (a : List (Nat × Gran) × Bool × State) i =>
      let x := a.2.2.copyGran m j.page c i
      (a.1 ++ [(c.key i, x.1)], a.2.1 || x.2.1, x.2.2)) (([], false, s) : List (Nat × Gran) × Bool × State)
    let y := got.2.2.nativeAll m j.page c got.1 ((List.range 64).map (j.page * 1024 + 64 * b + ·))
    (y.1, got.2.1, y.2)

/-- Granules that a job copies unchanged, with their writes: those of a bay keep their tweaks (R287; DESIGN CHOICE, log 140). -/
def jobSame (s : State) (j : Job) (m : Mode) (c : Copy) (b : Nat) : List GW × Bool × State :=
  (s.jobIdxs j m c b).foldl (fun (a : List GW × Bool × State) i =>
    if j.bay = 0 then
      let x := a.2.2.copyGran m j.page c i
      (a.1 ++ s.jobWrites j m [(i, x.1)], a.2.1 || x.2.1, x.2.2)
    else match s.granOwner (c.key i) with
      | none => a
      | some (p, d, n) =>
        let x := a.2.2.copyGran m p d n
        let w := s.granAt p d (v0Of m) n x.1
        (a.1 ++ [{ w with key := j.dstA.key i }], a.2.1 || x.2.1, x.2.2)) (([], false, s) : List GW × Bool × State)

/-- The block in front has all its requests: it is read, transformed and written to the destination, or coded for it (R239). At a granule
that had to be poisoned the transfer halts, and the block is copied again (Table 10-3). -/
def copyBlock (s : State) (j : Job) (b : Nat) : State :=
  let m := s.pageMode j.page
  let c := s.jobSource j
  let again (s : State) : State := (s.raise 0x7015 j.page).updJob j.id (fun q => { q with out := 0 })
  let next (q : Job) : Job := { q with todo := q.todo.drop 1, out := 0 }
  match s.jobForm j m with
  | .same =>
    let x := s.jobSame j m c b
    let put (s : State) (d : Copy) : State :=
      if j.bay = 0 ∧ c.comp ∧ d.tier ≠ 0 ∧ (s.jobIdxs j m c b).contains 0 then s.storeIndex { d with comp := true } (s.indexGran c) else s
    if x.2.1 then again x.2.2 else (put (put (x.2.2.queueNow x.1 (s.jobClass j)) j.dstA) j.dstB).updJob j.id next
  | .raw =>
    let x := s.jobNative j m c b
    if x.2.1 then again x.2.2
    else (x.2.2.queueNow (s.jobWrites j m (x.1.zipIdx.map (fun g => (64 * b + g.2, g.1)))) (s.jobClass j)).updJob j.id next
  | .coded _ =>
    let x := s.jobNative j m c b
    if x.2.1 then again x.2.2
    else
      let y := x.2.2.encodeBlk m.format (s.encodeSlot m.region m.format) b x.1
      y.2.updJob j.id (fun q => next { q with blks := (q.blks.filter (fun k => decide (k.blk < b))) ++ [y.1] ++ q.blks.filter (fun k => decide (b < k.blk)) })

/-- What has been coded is laid out in the destination at the end of a pass: compressed, or raw where R162 fails (R239, R248). Answers
whether the extent is compressed, and its length. -/
def layJob (s : State) (j : Job) (slack : Nat) : Bool × Nat × State :=
  let m := s.pageMode j.page
  if fitsComp j.blks then
    let x := s.storeBlks j.blks
    let s : State := x.2.updJob j.id (fun q => { q with blks := x.1 })
    let gs := layExtent slack x.1
    let s : State := s.queueNow (s.jobWrites j m (gs.zipIdx.map (fun g => (g.2, g.1)))) (s.jobClass j)
    let put (s : State) (c : Copy) : State := s.storeIndex { c with comp := true } (gs.headD Gran.bad)
    (true, gs.length, put (put s j.dstA) j.dstB)
  else
    let c := s.jobSource j
    let raw := (List.range 16).foldl (fun (a : List Gran × State) b =>
      let x := a.2.jobNative j m c b true
      (a.1 ++ x.1, x.2.2)) (([], s) : List Gran × State)
    (false, 1024, raw.2.queueNow (s.jobWrites j m (raw.1.zipIdx.map (fun g => (g.2, g.1)))) (s.jobClass j))

/-! ## Request slots (R412–R415) -/

/-- The slots in use: the class of each and whether it is of the writeback pool. -/
def slots (s : State) : List (Nat × Bool) :=
  (s.path.reqs.filter (fun r => r.stage != .waiting && r.via != .internal)).map (fun r => (r.cls, r.pool))
    ++ s.ports.toList.flatMap (fun p => p.ready.filterMap (·.slot))
    ++ s.tide.jobs.flatMap (fun j => List.replicate j.out (s.jobClass j, false))

/-- Slots freed in this cycle, which can be granted from the next one (R415). -/
def freedSlots (s : State) : List (Nat × Bool) := s.slots.foldl List.erase s.ctl.water.held

/-- Slots of a class outside the pool. -/
def ownSlots (us : List (Nat × Bool)) (c : Nat) : Nat := (us.filter (fun u => u.1 == c && !u.2)).length

/-- Whether a class can take a slot from its reserve or from the shared slots, within its limit (R414). -/
def canTake (s : State) (us : List (Nat × Bool)) (c : Nat) : Bool :=
  let v := s.classOf c
  let own := ownSlots us c
  let reserves := (s.ctl.water.cls.map (fun e => e.2.reserve)).sum
  let shared := ((List.range 64).map (fun d => ownSlots us d - (s.classOf d).reserve)).sum
  decide (own < v.limit) && (decide (own < v.reserve) || decide (shared < 65024 - reserves))

/-! ## Source 17 (R247, R417, R422) -/

/-- The requests that the block in front of a job needs: one for each line of 128 bytes that it reads (DESIGN CHOICE, log 141). -/
def blockLines (s : State) (j : Job) (b : Nat) : Nat :=
  let m := s.pageMode j.page
  max 1 (((s.jobIdxs j m (s.jobSource j) b).length + 1) / 2)

/-- Whether a job has a block to copy now; in DRAINING it waits for the pins first (R241). -/
def jobReady (s : State) (j : Job) : Bool :=
  !j.todo.isEmpty && (j.phase == .copying || (j.phase == .draining && !s.pinned j.page))

/-- Whether the limits let a job's next request through: the effective cap, `EVAC_RATE` for evacuation, `MIG_RATE_CAP` for migration but
for sealing switches and re-lays (R247), and a slot of its class; `freed` are those that this cycle freed. -/
def jobRoom (s : State) (freed : List (Nat × Bool)) (j : Job) : Bool :=
  let w := s.ctl.water
  decide (0 < w.cap) && s.canTake (s.slots ++ freed) (s.jobClass j) && (match j.kind with
    | .evac => decide (0 < w.evac)
    | .seal => true
    | .relay => true
    | _ => decide (0 < w.mig))

/-- The next job in turn. -/
def nextJob (s : State) (freed : List (Nat × Bool)) : Option Job :=
  let js := s.tide.jobs.filter (fun j => s.jobReady j && s.jobRoom freed j)
  match js.filter (fun j => decide (s.ctl.water.jobAt < j.id)) with
  | j :: _ => some j
  | [] => js.head?

/-- A request of a job is granted: it is charged 128 bytes and takes a slot until its block is copied. -/
def grantJob (s : State) (j : Job) : State :=
  let c := s.jobClass j
  let w := s.ctl.water
  let cost : Int := (128 * 40000 : Nat)
  let w := match j.kind with
    | .evac => { w with evac := w.evac - cost }
    | .seal => w
    | .relay => w
    | _ => { w with mig := w.mig - cost }
  let s : State := { s with ctl := { s.ctl with water := { w with cap := w.cap - cost, jobAt := j.id } } }
  let s : State := ((s.bump (Obj.classGrantedBytes c) 128).happen 0x5001 (some 17) c true 1).happen 0x5002 (some 17) c true 128
  let s : State := s.trace 1 17 c (some (j.page * 65536)) 0 0 (s.ownNode * 2 ^ 46 + j.page * 65536) 128
  let s : State := s.updJob j.id (fun q => { q with out := q.out + 1 })
  match j.todo with
  | b :: _ => if s.blockLines j b ≤ j.out + 1 then s.copyBlock j b else s
  | [] => s

/-- The grants of source 17 in one cycle: at most four, in turn over its jobs; background work runs in SERVICE and DEGRADED only. -/
def jobGrants (freed : List (Nat × Bool)) : Nat → State → State
  | 0, s => s
  | n + 1, s =>
    if s.dev.state = .service ∨ s.dev.state = .degraded then match s.nextJob freed with
      | some j => jobGrants freed n (s.grantJob j)
      | none => s
    else s

end State

end Sys2Proof.Machine
end

