-- ==== Sys2Proof/Machine/Arbiter.lean ====
section
/-! DEFINITION. Step 3: the arrival of requests with the checks of step 1, tokens and the cap bucket, and the grants of a cycle
(chapters 01, 07, 08). -/

namespace Sys2Proof.Machine

namespace State

/-- The slot notice follows the slots in use (7042). -/
def noteSlots (s : State) : State := s.evalNotice 0x7042 (s.slots.length * 1000 / 65536 : Nat) false 0x5001

/-- At the end of a step it follows the slots that completions have freed. -/
def watchSlots (s : State) : State := if s.num (okey 0x7042 1) = s.slots.length * 1000 / 65536 then s else s.noteSlots

/-! ## Eligibility (R28, R363, R366, R418) -/

/-- Whether R363 or R366 holds a request, or R572 a line request of a TLP that is not plain. -/
def orderHeld (s : State) (r : Req) : Bool :=
  let before (q : Req) : Bool := q.origin == r.origin && decide (q.id < r.id) && q.via != .internal
  let cancel := match r.op with | .bol .cancel _ => true | _ => false
  let plain := match r.via with
    | .tlp t _ => s.ep.tlps.any (fun x => x.serial == t && x.ro)
    | _ => true
  let later (q : Req) : Bool := before q && q.op.isWrite && (match r.via, q.via with | .tlp a _, .tlp b _ => a != b | _, _ => false)
  (r.ordered && s.path.reqs.any before) || (!cancel && s.path.reqs.any (fun q => before q && q.op == .fence))
    || (!plain && s.path.reqs.any later)

/-- Whether an operation names a line. -/
def hasLine (op : ReqOp) : Bool := !op.isBol && op != .fence

/-- The lines that a request names before step 4 (R28, R359, R418, R801): none, its line, or the native lines that R206 maps its
view line to. -/
def named (s : State) (r : Req) : List Nat :=
  if !hasLine r.op then []
  else
    let v := addrView r.hdr.addr
    let off := addrOff r.hdr.addr
    if v = 0 then [r.line]
    else match s.regionAt off with
      | some (_, g) =>
        if v ≠ 3 ∧ g.mode.view v ≠ 0 ∧ off < g.mode.base + viewLen g.mode (g.mode.view v) then r.lines g.mode else [r.line]
      | none => [r.line]

/-- Whether a reset of the port was decided in this cycle: further conditions of the cycle meet it (R86, R97, R800). -/
def resetNow (s : State) (p : Fin 16) : Bool :=
  s.ports[p].state == .recovering && s.ports[p].inReset && s.ports[p].resetAt == s.dev.now + 1

/-- A request's master: its source number and class. -/
def master (r : Req) : Nat := srcBit r.hdr.src * 64 + r.cls

/-- Whether a waiting request is eligible, apart from its slot (R418, R77, R91); `taken` are the lines granted in this cycle
(R28). In the cycle of a reset decision a port's requests can still be granted (R97). -/
def eligible (s : State) (taken : List Nat) (r : Req) : Bool :=
  r.stage == .waiting && !s.orderHeld r
    && !(s.named r).any (fun l => taken.contains l
      || s.path.reqs.any (fun q => q.stage == .waiting && q.origin == r.origin && decide (q.id < r.id) && (s.named q).contains l))
    && (match r.hdr.src with | .port p => !s.ports[p].rspHold && (s.ports[p].state == .up || s.resetNow p) | .ep => true)
    && s.dev.state != .init && s.dev.state != .hold && s.dev.state != .safe

/-! ## Tokens (R408, R411, R419, R434): in 1/40,000 byte -/

/-- A master's tokens. -/
def tokensOf (s : State) (m : Nat) : Int := ((s.ctl.water.tokens.find? (fun e => e.1 == m)).map (·.2)).getD 0

/-- The units of a cost. -/
def costUnits (op : ReqOp) : Int := (op.cost * 40000 : Nat)

/-- Whether a master at a source runs at half rate. -/
def halfAt (s : State) (src : Nat) : Bool := if h : src < 16 then s.ports[src].halfRate else false

/-- The fill of every token count, of the cap bucket and of the two buckets of source 17, once in each cycle (R419, R422; the burst of the
latter is 512 bytes, DESIGN CHOICE, log 141). -/
def fillTokens (s : State) : State :=
  if s.dev.now < s.ctl.water.filled then s else
  let k := s.ctl.water.capNow
  let grow (s : State) (c : Nat) (v : ClassVals) : State :=
    s.each (List.range 17) (fun s src =>
      let m := src * 64 + c
      let rate : Nat := v.min.getD src 0 * k * (if s.halfAt src then 1 else 2)
      if rate = 0 then s
      else
        let t := min (s.tokensOf m + rate) (v.burst * 1024 * 40000 : Nat)
        { s with ctl := { s.ctl with water := { s.ctl.water with tokens := FMap.put s.ctl.water.tokens m t } } })
  let s : State := s.each s.ctl.water.cls (fun s e => grow s e.1 e.2)
  { s with ctl := { s.ctl with water := { s.ctl.water with
    cap := min (s.ctl.water.cap + (122000 * k : Nat)) (65536 * 40000)
    mig := min (s.ctl.water.mig + (20000 * s.num Obj.migRateCap : Nat)) (512 * 40000)
    evac := min (s.ctl.water.evac + (20000 * s.num Obj.evacRate : Nat)) (512 * 40000)
    filled := s.dev.now + 1 } } }

/-- Charge a grant (R406, R419). -/
def charge (s : State) (r : Req) (tokens : Bool) : State :=
  let m := master r
  let w := s.ctl.water
  let c := costUnits r.op
  let w := if tokens ∧ c ≠ 0 then { w with tokens := FMap.put w.tokens m (s.tokensOf m - c) } else w
  ({ s with ctl := { s.ctl with water := { w with cap := w.cap - c } } }).bump (Obj.classGrantedBytes r.cls) r.op.cost

/-- Whether a head is green (R409). -/
def green (s : State) (r : Req) : Bool := decide (costUnits r.op ≤ s.tokensOf (master r))

/-- The floor rate of a master as a fraction, numerator and denominator, in units of 100 MB/s (R410): what R104 bounds its wait by. -/
def floorRate (s : State) (src c : Nat) : Nat × Nat :=
  let rated := if src = 16 then 1000 else 3750
  let all := (List.range 64).map s.classOf
  let mins := (all.map (fun v => v.min.getD src 0)).sum
  let shares := (all.map (·.share)).sum
  let v := s.classOf c
  (min (s.num Obj.thermalCap) (s.num Obj.operatorCap) * (if s.halfAt src then 1 else 2)
    * (v.min.getD src 0 * shares + (rated - mins) * v.share), 2000 * shares)

/-! ## The levels of a cycle (R419–R421) -/

/-- What a cycle has granted so far: the budget left, the grants of each source, the lines (R28, R417), the requests in order, and the
slots that it freed (R415). -/
structure Cycle where
  budget : Nat
  used   : List Nat
  lines  : List Nat
  won    : List Nat
  freed  : List (Nat × Bool)
  deriving DecidableEq, Repr

/-- The heads of a source's class queues: the oldest eligible request of each class that can take a slot. -/
def heads (s : State) (cy : Cycle) (src : Nat) : List Req :=
  let us := s.slots ++ cy.freed
  (s.path.reqs.filter (fun r => srcBit r.hdr.src == src && s.eligible cy.lines r && s.canTake us r.cls)).foldl
    (fun acc r => if acc.any (fun q => q.cls == r.cls) then acc else acc ++ [r]) []

/-- The first head in class order from a class on, going round. -/
def nextHead (hs : List Req) (start : Nat) : Option Req :=
  hs.foldl (fun b r => match b with
    | none => some r
    | some y => if (r.cls + 64 - start) % 64 < (y.cls + 64 - start) % 64 then some r else b) none

/-- A pointer of the arbitration. -/
def pointer (s : State) (i : Nat) : Nat := FMap.find 0 s.ctl.water.rr i

/-- Set a pointer. -/
def setPointer (s : State) (i v : Nat) : State :=
  { s with ctl := { s.ctl with water := { s.ctl.water with rr := FMap.set 0 s.ctl.water.rr i v } } }

/-- A master's deficit in the round robin of the shared level, in bytes. -/
def deficitOf (s : State) (m : Nat) : Int := ((s.ctl.water.deficit.find? (fun e => e.1 == m)).map (·.2)).getD 0

/-- Set a deficit. -/
def setDeficit (s : State) (m : Nat) (v : Int) : State :=
  { s with ctl := { s.ctl with water := { s.ctl.water with deficit := FMap.set 0 s.ctl.water.deficit m v } } }

/-- The request that a source offers at a level, whether it takes a pool slot, and the state with its pointers moved (R419). The
order of the round robins, where the manual gives none, is the class number (DESIGN CHOICE, log 19). -/
def pick (s : State) (cy : Cycle) (src level : Nat) : Option (Req × Bool × State) :=
  let hs := s.heads cy src
  match level with
  | 0 =>
    let us := s.slots ++ cy.freed
    let pool := decide ((us.filter (·.2)).length < 512)
    match s.path.reqs.find? (fun r => srcBit r.hdr.src == src && (match r.op with | .writeback _ => true | _ => false)
        && s.eligible cy.lines r && (s.canTake us r.cls || pool)) with
    | some r => some (r, !s.canTake us r.cls, s)
    | none => none
  | 1 => ((hs.filter (fun r => decide (60 ≤ r.cls) && s.green r)).foldl (fun (b : Option Req) r => match b with
      | none => some r
      | some y => if y.cls < r.cls then some r else b) none).map (fun r => (r, false, s))
  | 2 => (nextHead (hs.filter (fun r => decide (r.cls < 60) && s.green r)) (s.pointer src)).map
      (fun r => (r, false, s.setPointer src ((r.cls + 1) % 64)))
  | _ =>
    if s.ctl.water.cap ≤ 0 then none
    else
      let at_ := s.pointer (32 + src)
      match hs.find? (fun r => r.cls == at_ && decide ((r.op.cost : Int) ≤ s.deficitOf (master r))) with
      | some r => some (r, false, s.setDeficit (master r) (s.deficitOf (master r) - r.op.cost))
      | none => (nextHead hs ((at_ + 1) % 64)).map (fun r =>
          let q : Int := ((s.classOf r.cls).share * 128 : Nat)
          (r, false, (s.setPointer (32 + src) r.cls).setDeficit (master r) (s.deficitOf (master r) + q - r.op.cost)))

/-- A grant: the request takes its slot, its place in grant order and its deadline stamp (R423). -/
def grant (s : State) (r : Req) (pool : Bool) : State :=
  let gseq := s.path.gseq + 2
  let s : State := if r.held then s.atLeast Obj.orderHoldMax ((s.dev.now - r.arrived) / 2) else s
  let s : State := if r.ordered then s.bump Obj.orderedRequests else s
  let r1 := { r with gseq := gseq, pool := pool, stamp := (s.now16 + r.ddl) % 2 ^ 24, stage := .tide }
  let s : State := { s with path := { s.path with gseq := gseq } }
  let src := srcBit r.hdr.src
  let s : State := (s.happen 0x5001 (some src) r.cls true 1).happen 0x5002 (some src) r.cls true r.op.cost
  let s : State := s.trace 1 src r.cls (some (addrOff r.hdr.addr)) 0 r.hdr.tag.toNat r.hdr.addr.toNat r.op.cost
  (s.updReq r.id (fun _ => r1)).leaveRx r

/-- One grant of a source at a level, if it has one. -/
def tryGrant (x : State × Cycle) (level src : Nat) : State × Cycle :=
  let s := x.1
  let cy := x.2
  let limit := if src = 16 then 1 else 2
  if cy.budget = 0 ∨ limit ≤ cy.used.getD src 0 then x
  else match s.pick cy src level with
    | none => x
    | some (r, pool, s) =>
      ((s.charge r (level != 3)).grant r pool,
        ⟨cy.budget - 1, cy.used.set src (cy.used.getD src 0 + 1), x.1.named r ++ cy.lines,
          cy.won ++ [r.id], cy.freed⟩)

/-- Mark the requests that R363 or R366 holds. -/
def markHeld (s : State) : State :=
  { s with path := { s.path with reqs := s.path.reqs.map (fun r =>
    if r.stage = .waiting ∧ s.orderHeld r then { r with held := true } else r) } }

/-- One level of a cycle: the sources in rotation, up to two grants each; the rotation's start moves on (R419). -/
def grantLevel (x : State × Cycle) (level : Nat) : State × Cycle :=
  let start := x.1.ctl.water.start.getD level 0
  let y := (List.range 17).foldl (fun (x : State × Cycle) i =>
    let src := (start + i) % 17
    tryGrant (tryGrant x level src) level src) x
  let st := (List.range 4).map (fun l => if l = level then (start + 1) % 17 else y.1.ctl.water.start.getD l 0)
  ({ y.1 with ctl := { y.1.ctl with water := { y.1.ctl.water with start := st } } }, y.2)

/-- The grants of one 2 GHz cycle of H2 at sources 0–16: fill, then the four levels (R417, R419). -/
def h2Grants (s : State) : State × Cycle :=
  (List.range 4).foldl grantLevel (s.fillTokens.markHeld, ⟨28, List.replicate 17 0, [], [], s.freedSlots⟩)

/-! ## The cycle -/

/-- REQ units that a port may return in the cycle that begins: all that are owed, or in INIT and HOLD what `INIT_TRICKLE` allows
(R82). -/
def trickle (s : State) (p : Fin 16) : Nat :=
  let owed := s.ports[p].owedRet
  if s.dev.state = .init ∨ s.dev.state = .hold then
    let rate := s.num (Obj.initTrickle p)
    min owed (s.dev.now * rate / cyclesUs - (s.dev.now - 1) * rate / cyclesUs)
  else owed

/-- Whether a port withholds REQ credits: its partner holds fewer than 19 (R103). -/
def withholds (s : State) (p : Fin 16) : Bool := decide (advertised .req < unitsHeld s.ports[p] p .req + 19)

/-- A port's part of a cycle. -/
def portCycle (s : State) (p : Fin 16) : State :=
  if s.ports[p].state ≠ .up then s
  else
    let n := s.trickle p
    let s : State := s.updPort p (fun x => { x with owedRet := x.owedRet - n, pendRet := { x.pendRet with req := x.pendRet.req + n } })
    if s.withholds p then (s.updPort p (fun x => { x with withheld := x.withheld + 1 })).happen 0x1004 (some p.val) 0 false 1 else s

/-- The backpressure notices at the end of each ms (2006.01). -/
def pressure (s : State) (p : Fin 16) : State :=
  let n := s.ports[p].withheld
  (s.evalNotice (0x2006 + 64 * p.val) (n * 1000 / cyclesMs : Nat) false 0x1050).updPort p (fun x => { x with withheld := 0 })

/-- One cycle passes: the trace's staging queue, the notices whose marks were written, the effective cap in force from this cycle on (R435) and the slots held at its start
(R415), the fill of R419, the ports, and the count of the cycles in which R363 or R366 holds a request. -/
def cycle (s : State) : State :=
  let s : State := ({ s with dev := { s.dev with now := s.dev.now + 1 } }).gaugeCycle.evalDue
  let s : State := { s with ctl := { s.ctl with water := { s.ctl.water with
    capNow := min (s.num Obj.thermalCap) (s.num Obj.operatorCap), held := s.slots } } }
  let s : State := s.each (List.finRange 16) portCycle
  let s : State := s.each (s.path.reqs.filter (fun r => r.stage == .waiting && s.orderHeld r))
    (fun s r => s.happen 0x5004 (some (srcBit r.hdr.src)) r.cls true 1)
  let s : State := s.fillTokens
  if s.dev.now % cyclesMs = 0 then s.each (List.finRange 16) pressure else s

/-- H2 arbitrates once in a 2 GHz cycle: where it has done so in this cycle, the next cycle begins first (R28, R417; DESIGN CHOICE, log
135). -/
def freshCycle (s : State) : State :=
  let s : State := if s.ctl.water.ranAt = s.dev.now + 1 then s.cycle else s
  { s with ctl := { s.ctl with water := { s.ctl.water with ranAt := s.dev.now + 1 } } }

/-- The next 1 GHz cycle of the controllers, which is two cycles of H2 at most. -/
def ctlCycle (s : State) : State :=
  let t : State := s.cycle
  if t.dev.now / 2 = s.dev.now / 2 then t.cycle else t

/-- A channel admits once in a 1 GHz cycle (R425), and issues once (R446): where it has done so in this one, the next begins first (DESIGN
CHOICE, log 135). -/
def freshAdmission (s : State) (c : Nat) : State :=
  let s : State := if (s.chan c).admAt = s.dev.now / 2 + 1 then s.ctlCycle else s
  s.setChan c { s.chan c with admAt := s.dev.now / 2 + 1 }
def freshIssue (s : State) (c : Nat) : State :=
  let s : State := if (s.chan c).issAt = s.dev.now / 2 + 1 then s.ctlCycle else s
  s.setChan c { s.chan c with issAt := s.dev.now / 2 + 1 }

/-- One 2 GHz cycle of H2: its grants, step 4 of what it granted, in order, and the grants of source 17 (R417, R422). -/
def h2Cycle (s : State) : State :=
  let x := s.freshCycle.h2Grants
  let held := x.1.slots ++ x.2.freed
  let s : State := x.1.each x.2.won (fun s id => match s.req id with | some r => s.step4 r | none => s)
  (jobGrants (s.slots.foldl List.erase held) 4 s).noteSlots

/-! ## Arrival (R25, R62, R66, R67, R83, R84, R555) -/

/-- A request that is refused before step 4. -/
def refuse (s : State) (r : Req) (st : Status) (arg : Nat) : State := (s.leaveRx r).finishPlain r st arg

/-- The time until SERVICE, in µs, as R741 computes it. -/
def initLeft (s : State) : Nat :=
  if s.num Obj.nearFillState = 1 then (Config.timeToService s.dev.now).toNat + 1000
  else (s.dev.startAt + 350 * cyclesMs - s.dev.now) / cyclesUs

/-- The hint of RETRY_LATER in INIT (R83, R741), in µs. -/
def initHint (s : State) (p : Nat) : Nat := max (s.num (Obj.initHintMin p)) s.initLeft

/-- The tags of a port that the device holds (R66, R67, Table 02-14): of requests, of completions that wait or are in a flit that the
requester has not acknowledged, and of messages whose header is accepted. -/
def heldTags (s : State) (p : Fin 16) : List (BitVec 12) :=
  ((s.path.reqs.filter (fun r => r.via == .link && r.hdr.src == .port p)).map (·.hdr.tag) ++ s.ports[p].ready.filterMap Msg.done
    ++ s.ports[p].retry.flatMap SentFlit.tags ++ s.ports[p].rxTags p).eraseDups

/-- Whether the device still holds a tag of a port (R67). -/
def tagHeld (s : State) (p : Fin 16) (tag : BitVec 12) : Bool := (s.heldTags p).contains tag

/-- The class and deadline of a request (R403, R404, R144, R573). -/
def regClass (s : State) (h : Hdr) (op : ReqOp) : Nat :=
  match h.src with
  | .port _ => h.cls.toNat
  | .ep => if op.isBol || op == .fence then s.num Obj.epControlClass else match s.regionAt (addrOff h.addr) with
    | some (_, g) => g.mode.cls
    | none => 0

/-- The origin of a request (R302, R355): the partner node ID of a leaf port, the node that a relay's node unit names, or the
endpoint. -/
def originOf (s : State) (h : Hdr) : Origin :=
  match h.src, h.node with
  | .port _, some n => .node n.node
  | .port p, none => .node s.ports[p].node
  | .ep, _ => .ep

/-- A request as it arrives. -/
def newReq (s : State) (id : Nat) (h : Hdr) (op : ReqOp) (bad : Nat) (via : Via) : Req :=
  let cls := s.regClass h op
  { id := id, via := via, hdr := h, op := op, bad := bad, origin := s.originOf h, arrived := s.dev.now, held := false
    stage := .waiting, cls := cls
    ddl := if h.src == .ep || h.ddl == 0 then (s.classOf cls).ddl else h.ddl.toNat
    stamp := 0, overdue := false, pool := false, gseq := 0, mode := none, line := lineOf (addrOff h.addr), page := 0, need := []
    got := [], writes := 0, grant := 0, accepted := false, inv := false, wbFor := false, snap := [], asked := [], tweaks := [] }

/-- The refusal that a request meets before it can wait at step 3, if any (the hint objects are each port's own, and the spec names none
for the endpoint's requests: they take port 0's, DESIGN CHOICE, log 133): the checks of step 1, SAFE, INIT, HOLD, and a control
field that failed its parity (R62, R83, R84, R497, R555). -/
def entryStatus (s : State) (h : Hdr) (op : ReqOp) : Option (Status × Nat) :=
  let p := (match h.src with | .port p => p.val | .ep => 0)
  if !step1Ok op h then some (.unsupported, 0)
  else if bit (s.num Obj.fencedPorts) 16 && h.src == .ep && hasLine op then some (.damaged, 0)
  else match s.dev.state with
    | .safe => some (.damaged, 0)
    | .init => some (.retryLater, s.initHint p)
    | .hold => some (.retryLater, s.num (Obj.holdHint p))
    | _ => none

/-- A request arrives at step 3. If no other waits, it is granted in this step where Breakwater lets it (DESIGN CHOICE, log 21). -/
def enter (s : State) (h : Hdr) (op : ReqOp) (bad : Nat) (via : Via) : State :=
  let id := s.newId.1
  let s : State := s.newId.2
  let r := s.newReq id h op bad via
  let alone := !s.path.reqs.any (fun q => q.stage == .waiting)
  let s : State := { s with path := { s.path with reqs := s.path.reqs ++ [r] } }
  match s.entryStatus h op with
  | some (st, arg) => s.refuse r st arg
  | none =>
    if s.flipArmed 1 && via == .link then (s.takeFlip 1 1).refuse r .damaged 0
    else if s.flipArmed 3 then (s.takeFlip 3 1).refuse r .damaged 0
    else if alone then s.h2Cycle else s

/-- A REQ message of a port is accepted (R66, R67). -/
def arrive (s : State) (p : Fin 16) (h : Hdr) (op : ReqOp) (bad : Nat) : State :=
  if s.tagHeld p h.tag then
    ((s.returnUnits p .req (op.units h)).bump (Obj.tagReuseDrops p)).raise 0x1041 p
  else (s.happen 0x1001 (some p.val) h.cls.toNat true 1).enter h op bad .link

end State

end Sys2Proof.Machine
end

