-- ==== Sys2Proof/Machine/HostEp.lean ====
section
/-! DEFINITION. The host endpoint's shared operations: TLPs split into line requests and answered, doors, the snoop queue, lent
reads on their way to the host, interrupts and WAKE_N (chapter 12). -/

namespace Sys2Proof.Machine

namespace State

/-! ## Interrupts (R585, R586, R599) -/

/-- The wake cause of a vector (2801.0A); none for a vector that wakes nothing. -/
def wakeBit (v : Nat) : Option Nat :=
  if v = 0 then some 0 else if v = 2 then some 1 else if v = 4 then some 2 else if 8 ≤ v then some 3 else none

/-- Whether INTx can signal a vector: those of the rings only with INTX_FALLBACK agreed (Table 13-9, bit 5). -/
def byIntx (s : State) (v : Nat) : Bool := v == 0 || 3 < v || s.mgmt.ring.agreed.getLsbD 5

/-- Signal what is pending, if an interrupt can be signalled; otherwise it stays pending, and an enabled cause asserts WAKE_N. -/
def deliverIrqs (s : State) : State :=
  let e := s.ep
  if s.aon.irqs.isEmpty then s
  else if e.dState ≠ 0 then
    let cause := s.aon.irqs.any (fun v => match wakeBit v with | some b => bit (s.num Obj.wakeCauses) b | none => false)
    if cause && e.pmeEn && !e.wake then (({ s with ep := { e with wake := true } }).emit (.wakeN true)).raise 0xC019 else s
  else if e.flr || !e.ready || !e.linkUp then s
  else if e.msixEn then
    let vs := s.aon.irqs
    let s : State := { s with aon := { s.aon with irqs := [] } }
    s.each vs (fun s v => s.emit (.msix v))
  else if e.intDis then s
  else
    let vs := s.aon.irqs.filter s.byIntx
    if vs.isEmpty then s
    else
      let c := vs.foldl (fun (c : U64) v => c ||| (1#64 <<< v)) e.intxCause
      let new := vs.foldl (fun (c : U64) v => c ||| (1#64 <<< v)) (if e.intxSet.1 = s.dev.now + 1 then e.intxSet.2 else 0)
      let s : State := { s with aon := { s.aon with irqs := s.aon.irqs.filter (fun v => !vs.contains v) }
                                ep := { e with intxCause := c, intxSet := (s.dev.now + 1, new) } }
      if e.intxCause = 0 then s.emit (.inta true) else s

/-! ## TLPs (R571–R577) -/

/-- The PCIe status of a device status (Table 12-5): 0 Successful Completion, 1 Unsupported Request, 2 Completer Abort. -/
def pcieStatus : Status → Nat
  | .ok => 0
  | .poison => 0
  | .unmapped => 1
  | .denied => 1
  | .modeConflict => 1
  | .unsupported => 1
  | _ => 2

/-- A refused line request of the endpoint is recorded (R576). -/
def refusedLine (s : State) (addr : Nat) (st : Status) : State :=
  let s : State := ((s.setNum Obj.epLastFailStatus st.code).setNum Obj.epLastFailAddr addr).setNum Obj.epLastFailTime s.time64
  (s.raise 0xC010).pendIrq 5

/-- Send a completion TLP. -/
def sendCpl (s : State) (id status : Nat) (ep : Bool) (data : List Byte) : State :=
  let s : State := if status = 1 then s.bump Obj.epUrSent else if status = 2 then s.bump Obj.epCaSent else s
  let s : State := if ep then s.bump Obj.epPoisonSent else s
  s.emit (.tlpCpl id status ep data)

/-- Send a line's data: split at the 64-byte boundary where good and poisoned data meet and the boundary allows it (R575). -/
def sendLine (s : State) (id : Nat) (p : TlpPart) (c : Cpl) : State :=
  let whole := c.kind != .dataHalf
  let off := if whole then p.lo else p.lo % 64
  let data := slice c.data off p.n
  let low := c.half % 2 = 1
  let high := 2 ≤ c.half
  if whole ∧ p.lo < 64 ∧ 64 < p.lo + p.n ∧ low ≠ high ∧ !s.ep.rcb128 then
    (s.sendCpl id 0 low (data.take (64 - p.lo))).sendCpl id 0 high (data.drop (64 - p.lo))
  else s.sendCpl id 0 (c.status == .poison) data

/-- Return what a read TLP can return: its lines in address order, up to the first that fails (R574). -/
def pumpTlp : Nat → State → TlpSt → State × TlpSt
  | 0, s, t => (s, t)
  | n + 1, s, t =>
    match t.parts[t.next]? with
    | none => (s, t)
    | some p => match p.done with
      | none => (s, t)
      | some c =>
        if t.ended then pumpTlp n s { t with next := t.next + 1 }
        else
          let st := pcieStatus c.status
          let s : State := match t.kind with
            | .write => s
            | .fence => s.sendCpl t.id st false (if st = 0 then zeros 8 else [])
            | .atomic => s.sendCpl t.id st (c.status == .poison) (if st = 0 then slice c.data 0 p.n else [])
            | .read => if st = 0 then s.sendLine t.id p c else s.sendCpl t.id st false []
          pumpTlp n s { t with next := t.next + 1, ended := t.ended || st != 0 }

/-- A line request of a TLP has completed. -/
def partDone (s : State) (serial i : Nat) (c : Cpl) : State :=
  match s.ep.tlps.find? (fun t => t.serial == serial) with
  | none => s
  | some t =>
    let p := t.parts.getD i ⟨0, 0, 0, none⟩
    let bad := c.status != .ok && c.status != .poison
    let s : State := if bad && !(t.ended && s.ep.flr) then
        let s : State := s.refusedLine p.addr c.status
        if t.kind = .write then (s.bump Obj.epWritesRefused).emit (.aer (if pcieStatus c.status = 1 then .unsupportedRequest else .completerAbort))
        else s
      else s
    let x := pumpTlp t.parts.length s { t with parts := t.parts.set i { p with done := some c } }
    let s : State := x.1
    let t := x.2
    let keep := decide (t.next < t.parts.length)
    let hit (y : TlpSt) : Bool := y.serial == serial
    let rest := if keep then updFirst hit (fun _ => t) s.ep.tlps else s.ep.tlps.filter (fun y => !hit y)
    { s with ep := { s.ep with tlps := rest } }

/-- A door. -/
def door (s : State) (d : Nat) : Door := FMap.find Door.idle s.ep.doors d

/-- Set a door. -/
def setDoor (s : State) (d : Nat) (x : Door) : State := { s with ep := { s.ep with doors := FMap.set Door.idle s.ep.doors d x } }

/-- A door's operation has completed (R579). -/
def doorDone (s : State) (d : Nat) (c : Cpl) : State :=
  let x := s.door d
  if !x.busy then s
  else
    let w : U64 := if c.kind = .dataWord then BitVec.ofNat 64 (leNat (slice c.data 0 8)) else 0
    let s : State := s.setDoor d { x with busy := false, stat := c.status.code, result := w }
    if x.irq then s.pendIrq (8 + d) else s

/-- Deliver the completions that are on their way to the endpoint. -/
def deliverEp (s : State) : State :=
  let xs := s.path.epDone
  let s : State := { s with path := { s.path with epDone := [] } }
  s.each xs (fun s x => match x.1 with
    | .tlp t i => s.partDone t i x.2
    | .door d => s.doorDone d.val x.2
    | _ => s)

/-- Whether E1 decodes memory TLPs. -/
def decodes (s : State) : Bool := s.ep.ready && s.ep.linkUp && s.ep.memEnable && s.ep.dState == 0 && !s.ep.flr && !s.ep.perst

/-- The pool address of a BAR2 offset (R568), by the windows in force in this cycle (R570). -/
def bar2Addr (s : State) (off : Nat) : Nat :=
  let w := off / 2 ^ 36 % 4
  s.ownNode * 2 ^ 46 + s.prevNum (Obj.winView w) * 2 ^ 44 + (s.prevNum (Obj.winBase w) + off % 2 ^ 36) % 2 ^ 44

/-- A line request of a TLP before it enters. -/
structure Line where
  addr : Nat
  lo   : Nat
  n    : Nat
  op   : ReqOp
  attr : BitVec 8
  bad  : Nat
  deriving DecidableEq, Repr

/-- A TLP's line requests enter at step 3 after E1's checks (R25, R571). -/
def enterTlp (s : State) (id : Nat) (kind : TlpKind) (ro : Bool) (ls : List Line) : State :=
  let serial := s.newId.1
  let s : State := s.newId.2
  let s : State := s.happen 0xC001 none 0 true ls.length
  let t : TlpSt := ⟨serial, id, kind, ro, ls.map (fun l => ⟨l.addr, l.lo, l.n, none⟩), 0, false⟩
  let s : State := if ls.isEmpty then s else { s with ep := { s.ep with tlps := s.ep.tlps ++ [t] } }
  s.each ((List.range ls.length).map (fun i => (i, ls.getD i ⟨0, 0, 0, .fence, 0, 0⟩))) (fun s x =>
    s.enter ⟨.ep, 0, 0, 0, false, x.2.attr, BitVec.ofNat 64 x.2.addr, none⟩ x.2.op x.2.bad (.tlp serial x.1))

/-- The 128-byte lines that a range of bytes covers: for each the first byte in it and how many. -/
def linesIn (a n : Nat) : List (Nat × Nat × Nat) :=
  (List.range ((a + n - 1) / 128 + 1 - a / 128)).map (fun i =>
    let l := a / 128 + i
    let lo := max a (l * 128)
    let hi := min (a + n) (l * 128 + 128)
    (l * 128, lo - l * 128, hi - lo))

/-- The line requests of a read TLP (Table 12-3). -/
def readLines (s : State) (a n : Nat) : List Line :=
  (linesIn a n).map (fun x =>
    let half := x.2.1 / 64 == (x.2.1 + x.2.2 - 1) / 64
    if half then ⟨x.1 + x.2.1 / 64 * 64, x.2.1, x.2.2, .readHalf, 0, 0⟩
    else ⟨x.1, x.2.1, x.2.2, if s.num Obj.epGrants = 1 then .read else .readOnce, 0, 0⟩)

/-- A byte mask from byte enables. -/
def maskOf (bs : List Bool) : BitVec 64 :=
  (List.range 64).foldl (fun (m : BitVec 64) i => if bs.getD i false then m ||| (1#64 <<< i) else m) 0

/-- The line requests of a write TLP (Table 12-3, R577): `be` and `data` cover the TLP's bytes. -/
def writeLines (a : Nat) (be : List Bool) (data : List Byte) (ep : Bool) : List Line :=
  (linesIn a be.length).flatMap (fun x =>
    let skip := x.1 + x.2.1 - a
    let en := List.replicate x.2.1 false ++ (be.drop skip).take x.2.2
    let ds := List.replicate x.2.1 (0 : Byte) ++ (data.drop skip).take x.2.2
    if en.length == 128 && en.all id then [⟨x.1, 0, 128, .write (slice ds 0 128), 0, if ep then 3 else 0⟩]
    else [0, 1].filterMap (fun h =>
      let m := maskOf (en.drop (64 * h))
      if m = 0 then none
      else some ⟨x.1 + 64 * h, 0, 64, .writeMasked m (slice ds (64 * h) 64), 0, if ep then 1 else 0⟩))

/-! ## The snoop queue (R581, R582) -/

/-- Snoops to the endpoint enter the queue while it has room. -/
def pumpSq (s : State) : State :=
  let due := s.dir.snoops.filter (fun x => x.master == .ep && !s.ep.sqIn.contains x.tag)
  s.each due (fun s x =>
    if 256 ≤ s.ep.sqTail - s.ep.sqHead then s
    else
      let e := s.ep
      let s : State := { s with ep := { e with
        sq := FMap.set 0 e.sq (e.sqTail % 256) (x.tag.toNat + x.line * 2 ^ 12), sqTail := e.sqTail + 1, sqIn := e.sqIn ++ [x.tag] } }
      if e.sqTail = e.sqHead then s.pendIrq 4 else s)

/-! ## Lent reads on the PCIe link (R281, R587–R589) -/

/-- Bus mastering in D0 (R587). -/
def mastering (s : State) : Bool := s.ep.busMaster && s.ep.dState == 0

/-- Whether a channel is halted (R593). -/
def halted (s : State) (ch : Nat) : Bool := s.num (Obj.dmaState ch) == 2

/-- Whether a lent read that has been served otherwise still holds its tag (R591). -/
def lentOwed (s : State) (id : Nat) : Bool := s.tide.lentGone.any (fun g => g.1 == id)

/-- The lent reads that hold a tag: at most 256 (Table 12-1). -/
def lentTags (s : State) : Nat :=
  (s.tide.lentRds.filter (fun r => r.st == .issued || r.st == .translating)).length + s.tide.lentGone.length

/-- Whether DMA may be issued (R587). -/
def dmaOn (s : State) : Bool := s.ep.dState == 0 && s.ep.busMaster && s.ep.linkUp && !s.ep.flr && !s.ep.perst

/-- The bus address of a lent granule (R522). -/
def lentAddr (s : State) (k : Nat) : Nat := (s.lent (keyLoc k / 2 ^ 32)).base + keyLoc k % 2 ^ 32 * 64

/-- Whether an Invalidate Request of this cycle removed a page's entry: lookups of the same cycle still find it (R590). -/
def removedNow (s : State) (page : Nat) : Bool :=
  s.ep.atcWas.1 == s.dev.now + 1 && s.ep.atcWas.2.contains page && !s.ep.atc.contains page

/-- Issue lent reads while the channel may issue and a tag is free; with ATS each needs a translation from the cache first (R588). -/
def pumpLent (s : State) : State :=
  if !s.dmaOn || s.halted 0 then s
  else s.each ((s.tide.lentRds.filter (fun r => r.st == .formed)).take (256 - s.lentTags)) (fun s r =>
    let a := s.lentAddr (r.keys.headD 0)
    let gone := s.removedNow (a / 65536)
    let miss := s.ep.atsEn && !s.ep.atc.contains (a / 65536) && !gone
    let upd (st : LentSt) (s : State) : State := { s with tide := { s.tide with
      lentRds := updFirst (fun (q : LentRead) => q.id == r.id) (fun q => { q with st := st }) s.tide.lentRds } }
    if miss then upd .translating (s.bump Obj.atsTranslations)
    else
      let used (x : Inval) : Inval := if s.ep.atsEn ∧ gone ∧ x.since = s.dev.now then { x with reads := x.reads ++ [r.id] } else x
      let s : State := { s with ep := { s.ep with inval := s.ep.inval.map used } }
      upd .issued (s.emit (.dmaRead 0 r.id a)))

end State

end Sys2Proof.Machine
end

