-- ==== Sys2Proof/Machine/LinkOps.lean ====
section
/-! DEFINITION. The link layer's shared operations: flits sent and replayed, messages that start, credits, the three rungs of
recovery, training and the fence of a port (chapter 02). -/

namespace Sys2Proof.Machine

/-! ## The retry buffer (R54–R56, R88) -/

/-- Flits that remain once an ACK frees every entry through its SEQ; an ACK of none of them frees nothing. -/
def freeThrough (ack : BitVec 10) (fs : List SentFlit) : List SentFlit :=
  match fs.findIdx? (fun f => f.seq == ack) with
  | some i => fs.drop (i + 1)
  | none => fs

/-- The channel that a code names. -/
def VC.ofCode : Nat → VC
  | 0 => .req | 1 => .rsp | 2 => .snp | _ => .mgmt

/-- The CVC of the next PAYLOAD flit: round robin over the channels with credits to return (R72's procedure). -/
def nextCvc (x : Port) : Option VC :=
  ((List.range 4).map (fun i => VC.ofCode ((x.rrVc + i) % 4))).find? (fun v => decide (0 < x.pendRet.get v))

namespace State

/-- Send a PAYLOAD flit; while an injection runs its CRC is corrupted (R111). -/
def sendFlit (s : State) (p : Fin 16) (f : SentFlit) : State :=
  let x := s.ports[p]
  let s : State := s.updPort p (fun x => { x with inject := x.inject - 1 })
  s.emit (.flit p 0 f.seq x.rxLast f.cvc f.ccnt f.units (decide (0 < x.inject)))

/-- Build one PAYLOAD flit, with its credit return, and send it; it stays in the retry buffer (R56). -/
def newFlit (s : State) (p : Fin 16) (units : List U64) (ends : List Msg) : State :=
  let x := s.ports[p]
  let v := nextCvc x
  let n := match v with | some v => min (x.pendRet.get v) 255 | none => 0
  let cvc := match v with | some v => v.code | none => 0
  let f : SentFlit := ⟨x.txNext, BitVec.ofNat 2 cvc, BitVec.ofNat 8 n, units ++ List.replicate (31 - units.length) 0, ends, s.dev.now⟩
  let s : State := s.updPort p (fun x =>
    let pend := match v with | some v => x.pendRet.put v (x.pendRet.get v - n) | none => x.pendRet
    { x with txNext := x.txNext + 1, retry := x.retry ++ [f], pendRet := pend, rrVc := (cvc + 1) % 4 })
  s.sendFlit p f

/-- Replay flits with their SEQ, payload, CVC and CCNT (R88). -/
def resend (s : State) (p : Fin 16) (fs : List SentFlit) : State :=
  s.each fs (fun s f => (s.happen 0x1003 (some p.val) 0 false 1).sendFlit p f)

/-! ## Messages that start (R69, R74, R75) -/

/-- Whether a snoop waits for a completion that grants a copy of its line on the same port (R318). -/
def behindGrant (x : Port) (m : Msg) : Bool :=
  m.vc == .snp && x.ready.any (fun c => c.vc == .rsp && c.line.isSome && c.line == m.line)

/-- The message that is next: a LOST_REPORT first, MGMT once in 64 messages, then SNP, RSP and MGMT in order (R75, R95). -/
def nextMsg (x : Port) : Option Msg :=
  let first (v : VC) : Option Msg := x.ready.find? (fun m => m.vc == v && !behindGrant x m)
  match x.ready.find? (·.report) with
  | some m => some m
  | none =>
    let mg := if 63 ≤ x.sinceMgmt then first .mgmt else none
    match mg with
    | some m => some m
    | none => (first .snp).or ((first .rsp).or (first .mgmt))

/-- The credits that count at a cycle: those returned in the same cycle do not (R74). -/
def usable (x : Port) (now : Nat) (v : VC) : Nat := x.credit.get v - (if x.creditAt = now + 1 then x.newCredit.get v else 0)

/-- Credits returned by an accepted flit, in a cycle (R55, R74). -/
def addCredit (x : Port) (now : Nat) (v : VC) (n : Nat) : Port :=
  let old := if x.creditAt = now + 1 then x.newCredit else Credits.zero
  { x with credit := x.credit.put v (x.credit.get v + n), newCredit := old.put v (old.get v + n), creditAt := now + 1 }

/-- Units that the retry buffer still has room for. -/
def retryRoom (x : Port) : Nat := 31 * (512 - x.retry.length)

/-- The messages that start now, in order, and the port without them. A message that lacks credits, or room in the retry buffer,
keeps those behind it waiting (R69, R74, R56; log 22). -/
def takeMsgs (now : Nat) : Nat → Port → Nat → Port × List Msg
  | 0, x, _ => (x, [])
  | n + 1, x, used =>
    match nextMsg x with
    | none => ({ x with stalled := false }, [])
    | some m =>
      let k := m.units.length
      if k ≤ usable x now m.vc ∧ used + k ≤ retryRoom x then
        let x1 := { x with ready := x.ready.erase m, credit := x.credit.put m.vc (x.credit.get m.vc - k)
                           sinceMgmt := if m.vc = .mgmt then 0 else x.sinceMgmt + 1 }
        let y := takeMsgs now n x1 (used + k)
        (y.1, m :: y.2)
      else ({ x with stalled := true }, [])

/-- Messages as flits: units in order, each message with the flit that holds its last unit. -/
def packMsgs (ms : List Msg) : List (List U64 × List Msg) :=
  let units := ms.flatMap (·.units)
  let ends := (ms.foldl (fun (a : Nat × List (Nat × Msg)) m =>
    let e := a.1 + m.units.length
    (e, a.2 ++ [((e - 1) / 31, m)])) (0, [])).2
  (List.range ((units.length + 30) / 31)).map (fun i =>
    ((units.drop (31 * i)).take 31, (ends.filter (fun e => e.1 == i)).map (·.2)))

/-- Whether a port sends PAYLOAD flits. -/
def sends (x : Port) : Bool := x.state == .up

/-- Whether a completion of a port waits for RSP credits (R77). -/
def rspWaits (x : Port) (now : Nat) : Bool :=
  match x.ready.find? (fun m => m.vc == .rsp) with
  | some m => decide (usable x now .rsp < m.units.length)
  | none => false

/-- The hold of R77 ends. -/
def rspHoldEnd (s : State) (p : Fin 16) : State :=
  if s.ports[p].rspHold then (s.updPort p (fun x => { x with rspHold := false })).clearBit Obj.portRspHold p else s

/-- Start what can start at a port; the hold of R77 ends once no completion waits for RSP credits. -/
def startMsgs (s : State) (p : Fin 16) : State :=
  let x := s.ports[p]
  if !sends x then s
  else
    let y := takeMsgs s.dev.now x.ready.length x 0
    let s : State := s.updPort p (fun _ => y.1)
    let s : State := s.each (y.2.filter (fun m => m.vc == .rsp)) (fun s m =>
      s.happen 0x1002 (some p.val) ((m.slot.map (·.1)).getD 0) true 1)
    let s : State := s.each (packMsgs y.2) (fun s f => s.newFlit p f.1 f.2)
    if rspWaits s.ports[p] s.dev.now then s else s.rspHoldEnd p

/-- Start the messages that became ready in this step at the ports where none waits for credits. -/
def startAll (s : State) : State :=
  s.each (List.finRange 16) (fun s p => if s.ports[p].stalled || s.ports[p].ready.isEmpty then s else s.startMsgs p)

/-! ## CONTROL messages (R57) -/

/-- The CONTROL flit that carries a message: its SEQ is the next to be used and its ACK the last SEQ accepted (Table 02-3, R54). -/
def ctlOut (s : State) (p : Fin 16) (c : Ctl) : Out := .ctl p s.ports[p].txNext s.ports[p].rxLast c

/-- Send a CONTROL message that expects an answer: it is kept for repetition. -/
def sendAsk (s : State) (p : Fin 16) (c : Ctl) : State :=
  (s.updPort p (fun x => { x with ctrl := x.ctrl ++ [c] })).emit (s.ctlOut p c)

/-- Send a CONTROL message that expects none. -/
def sendCtl (s : State) (p : Fin 16) (c : Ctl) : State := s.emit (s.ctlOut p c)

/-- Take back the last n CONTROL messages of a kind that a port has sent. -/
def unsend (s : State) (p : Fin 16) (n : Nat) (f : Ctl → Bool) : State :=
  let hit (o : Out) : Bool := match o with | .ctl q _ _ c => q == p && f c | _ => false
  let go : Nat × List Out := s.out.foldr (fun o a => if 0 < a.1 && hit o then (a.1 - 1, a.2) else (a.1, o :: a.2)) (n, [])
  { s with out := go.2 }

/-- An answer is accepted: the message that expected it is no longer repeated. -/
def answered (s : State) (p : Fin 16) (f : Ctl → Bool) : State :=
  s.updPort p (fun x => { x with ctrl := x.ctrl.filter (fun c => !f c) })

/-! ## Width (R50, R79, R81, R90, R411) -/

/-- Bring a port to a width on a half. Token growth is halved at 8 lanes (R411). -/
def setWidth (s : State) (p : Fin 16) (width : Nat) (half : Half) : State :=
  let slow := width == 8
  let change := s.ports[p].halfRate != slow && width != 0
  let s : State := s.updPort p (fun x => { x with width := width, half := half, halfRate := if width = 0 then x.halfRate else slow })
  if !change then s
  else (if slow then s.setBit Obj.portHalfRate p else s.clearBit Obj.portHalfRate p).raise 0x5005 p

/-! ## Rung 3 (R91–R101, Table 02-14) -/

/-- Whether a flit's transmission has begun but not ended (R98). A flit lasts 1.2 cycles at 16 lanes and 2.4 at 8, and only its whole
cycles are counted (DESIGN CHOICE, log 129). -/
def onWire (now width : Nat) (f : SentFlit) : Bool := decide (now < f.sent + (if width = 8 then 2 else 1))

/-- The tags of granted requests whose completion is not in a transmitted flit. -/
def pendTags (s : State) (p : Fin 16) : List (BitVec 12) :=
  ((s.path.reqs.filter (fun r => r.via == .link && r.hdr.src == .port p && isGranted r)).map (·.hdr.tag)
    ++ s.ports[p].ready.filterMap Msg.done).eraseDups

/-- The tags that a fresh reset reports, by their state now (Table 02-14, R98): CANCELLED, LOST and PENDING. -/
def tagStates (s : State) (p : Fin 16) : List (BitVec 12) × List (BitVec 12) × List (BitVec 12) :=
  let x := s.ports[p]
  let wire := onWire s.dev.now x.width
  let lost := ((x.retry.filter (fun f => !wire f)).flatMap SentFlit.tags).eraseDups
  let pend := (s.pendTags p ++ (x.retry.filter wire).flatMap SentFlit.tags).eraseDups
  let canc := ((s.path.reqs.filter (fun r => r.via == .link && r.hdr.src == .port p && !isGranted r)).map (·.hdr.tag) ++ x.rxTags p).eraseDups
  let canc := canc.filter (fun t => !pend.contains t)
  (canc, lost.filter (fun t => !pend.contains t && !canc.contains t), pend)

/-- The same after the cycle of the decision: a request that was granted in that cycle counts as granted (R97). -/
def tagsNow (s : State) (p : Fin 16) : List (BitVec 12) × List (BitVec 12) × List (BitVec 12) :=
  let x := s.ports[p]
  let done := s.pendTags p
  (x.cancelled.filter (fun t => !done.contains t), x.lost, x.pending ++ x.cancelled.filter done.contains)

/-- The waiters whose requests arrived through a port complete CANCELLED (R397). -/
def cancelPort (s : State) (p : Fin 16) : State := s.cancelWaiters (fun w => w.src == .port p)

/-- A rung 1 replay of this very cycle gives way to a higher rung (R86): it is not counted, and its request is not sent now. -/
def unReplay (s : State) (p : Fin 16) : State :=
  let x := s.ports[p]
  if x.replayAt ≠ s.dev.now + 1 then s
  else
    let s : State := s.setNum (Obj.replayCount p) (s.num (Obj.replayCount p) - x.replayN)
    (s.unsend p x.replayN (fun c => match c with | .replayReq _ => true | _ => false)).updPort p (fun x => { x with replayAt := 0 })

/-- A rung 2 entry of this very cycle gives way to a reset (R86): it is not counted, and its request or answer is not sent. -/
def unDegrade (s : State) (p : Fin 16) : State :=
  if s.ports[p].degradeAt ≠ s.dev.now + 1 then s
  else
    (s.setNum (Obj.degradeCount p) (s.num (Obj.degradeCount p) - 1)).unsend p 1
      (fun c => match c with | .degradeReq _ _ => true | .degradeAck _ => true | _ => false)

/-- A rung 3 port reset is decided (Table 02-11, Table 02-15). `fresh` forces VALID = 0 (R328, Table 11-6). A port whose
reset runs already keeps its code, but of the conditions of one cycle the lowest code is recorded (R800). -/
def portReset (s : State) (p : Fin 16) (cause : Nat) (fresh : Bool) : State :=
  let x := s.ports[p]
  let fresh := fresh || s.num (Obj.resumeEnable p) == 0
  if x.state ≠ .up then
    let s : State := if s.resetNow p then s.setNum (Obj.lastResetCause p) (min cause (s.num (Obj.lastResetCause p))) else s
    if x.inReset && fresh && x.state != .fenced then s.updPort p (fun x => { x with forceFresh := true }) else s
  else
    let t := s.tagStates p
    let s : State := (s.unDegrade p).unReplay p
    let s : State := (s.bump (Obj.resetCount p)).setNum (Obj.lastResetCause p) cause
    let s : State := s.updPort p (fun x => { x with
      state := .recovering, inReset := true, forceFresh := fresh, width := 0, switchAt := none, degrading := false, ctrl := []
      attempts := 0, cancelled := t.1, lost := t.2.1, pending := t.2.2, replayWait := false, stalled := false
      resetAt := s.dev.now + 1
      was := (x.width, x.degrading || (match x.switchAt with | some (_, some _) => true | _ => false)) })
    let s : State := s.sendCtl p .resetNotice
    if fresh then s.cancelPort p else s

/-- A protocol error of the partner (R60, R61, R76). -/
def protocolError (s : State) (p : Fin 16) : State := (s.raise 0x1040 p).portReset p 5 false

/-- The LOST_REPORT of R95. -/
def lostReport (canc lost pend : List (BitVec 12)) : Msg :=
  let map (ts : List (BitVec 12)) : List U64 := (List.range 64).map (fun u =>
    (ts.filter (fun t => t.toNat / 64 == u)).foldl (fun (w : U64) t => w ||| (1#64 <<< (t.toNat % 64))) 0)
  ⟨.mgmt, BitVec.ofNat 64 (3 + 0x38 * 4 + 192 * 2 ^ 45) :: 0 :: (map canc ++ map lost ++ map pend), none, none, true, none⟩

/-- Waiting requests of a port leave with the reset: they are not performed (Table 02-14). -/
def dropWaiting (s : State) (p : Fin 16) : State :=
  { s with path := { s.path with
      reqs := s.path.reqs.filter (fun r => !(r.via == .link && r.hdr.src == .port p && r.stage == .waiting)) } }

/-- In HOLD the requests that wait at step 3 of a port that is UP, or from the endpoint, are answered RETRY_LATER (R84). -/
def holdAnswers (s : State) : State :=
  if s.dev.state ≠ .hold then s
  else s.each (s.path.reqs.filter (fun r => r.stage == .waiting && r.via != .internal
      && (match r.hdr.src with | .port p => s.ports[p].state == .up | .ep => true)))
    (fun s r => s.refuse r .retryLater (s.num (Obj.holdHint (match r.hdr.src with | .port p => p.val | .ep => 0))))

/-- The port is UP (R78–R81): its event with the width and the partner's node ID. -/
def portUp (s : State) (p : Fin 16) : State :=
  let s : State := s.updPort p (fun x => { x with
    state := .up, inReset := false, forceFresh := false, attempts := 0, stalled := false
    laneFault := if x.width = 16 then 0 else x.laneFault, replayFails := 0, replayLane := none })
  (s.raise 0x1001 (s.ports[p].width + 256 * s.ports[p].node.toNat)).holdAnswers

/-- The link's counters start anew, with the credits that each side advertised (R71, R94). -/
def freshLink (s : State) (p : Fin 16) : State :=
  s.updPort p (fun x => { x with
    rxLast := 1023, txNext := 0, retry := [], credit := x.adv, pendRet := Credits.zero, rxHeld := Credits.zero, rxPart := []
    owedRet := 0, newCredit := Credits.zero, sinceMgmt := 0, replayWait := false, replayFails := 0, replayLane := none, stalled := false })

/-- A fresh reset (R94–R98, R100, R397): buffers and credits start anew, the tags are reported before anything else, the messages whose
flit was not yet out start again, and what the partner held is lost. -/
def freshReset (s : State) (p : Fin 16) : State :=
  let t := s.tagsNow p
  let x := s.ports[p]
  let again : List Msg := (x.retry.filter (onWire (x.resetAt - 1) x.was.1)).flatMap (·.ends)
  let s : State := (s.cancelPort p).holderLost (.port p) none
  let s : State := (s.dropWaiting p).freshLink p
  let dead (m : Msg) : Bool := m.vc == .snp || (match m.tag with | some q => t.1.contains q || t.2.1.contains q | none => false)
  let rep := lostReport t.1 t.2.1 t.2.2
  let s : State := s.updPort p (fun x => { x with
    ready := rep :: (again.map (fun m : Msg => { m with slot := none }) ++ x.ready).filter (fun m => !dead m), cancelled := [], lost := [], pending := [], fence := .none })
  (s.setNum (Obj.lastResetMode p) 2).raise 0x1031 p

/-- A resumed reset (R92, R93): what the partner has not accepted is replayed. -/
def resumeReset (s : State) (p : Fin 16) (seq : BitVec 10) : State :=
  let s : State := s.updPort p (fun x => { x with
    retry := freeThrough seq x.retry, cancelled := [], lost := [], pending := [] })
  let s : State := ((s.portUp p).setNum (Obj.lastResetMode p) 1).raise 0x1030 p
  s.resend p s.ports[p].retry

/-- The completions that wait at a fenced port are discarded and counted, and their tags move from the PENDING bitmap to the LOST
bitmap (R101): those in `ready` and those whose flit was not yet out. With none that waits for credits, the hold of R77 ends. -/
def discardReady (s : State) (p : Fin 16) : State :=
  let x := s.ports[p]
  let done := (x.ready.filterMap Msg.done ++ (x.retry.flatMap SentFlit.tags).filter x.pending.contains).eraseDups
  (s.updPort p (fun x => { x with
    lost := x.lost ++ x.pending.filter done.contains, pending := x.pending.filter (fun q => !done.contains q)
    discarded := x.discarded + done.length, ready := [], retry := [], stalled := false })).rspHoldEnd p

/-- A port is fenced: after failed training (R80, R101), or by a checker or a mismatch in its H2 state (R102). -/
def fencePort (s : State) (p : Fin 16) (why : PortFence) (cls : Nat) : State :=
  if s.ports[p].state = .fenced then
    (if why = .checker then s.updPort p (fun x => { x with fence := .checker }) else s)
  else
    let x := s.ports[p]
    let t := if x.inReset then s.tagsNow p else s.tagStates p
    let s : State := (s.cancelPort p).holderLost (.port p) none
    let s : State := s.dropWaiting p
    let s : State := s.updPort p (fun x => { x with
      state := .fenced, fence := why, inReset := true, forceFresh := true, width := 0, ctrl := [], switchAt := none, degrading := false
      cancelled := t.1, lost := t.2.1, pending := t.2.2 })
    let s : State := s.discardReady p
    ((s.raise 0x1032 p).raise 0x1002 p).fenceBit Obj.fencedPorts p cls

/-- A training attempt has failed (R72, R78, R80); after a failed return from a fence the port is fenced again (R102). -/
def trainFail (s : State) (p : Fin 16) : State :=
  let s : State := (s.updPort p (fun x => { x with attempts := x.attempts + 1, width := 0, ctrl := [] })).raise 0x1003 p
  if s.ports[p].attempts < s.num (Obj.retrainAttempts p) then s
  else if s.ports[p].fence = .training then
    let s : State := (s.updPort p (fun x => { x with state := .fenced, attempts := 0 })).discardReady p
    ((s.setNum (Obj.lastResetCause p) 8).raise 0x1032 p).raise 0x1002 p
  else ((s.setNum (Obj.lastResetCause p) 8).updPort p (fun x => { x with attempts := 0 })).fencePort p .training 7

/-- A port with a checker's fence, or disabled, is out of the way of training and traffic. -/
def checkerFenced (x : Port) : Bool := x.fence == .checker

/-- What the PARAM exchange decides (R71, R72, R79, R81, R92, R102). -/
def paramDone (s : State) (p : Fin 16) (m : ParamMsg) : State :=
  let low := m.advRsp < 17 ∨ m.advSnp < (if m.features.getLsbD 0 then 3 else 2) ∨ m.advMgmt < 194
  if low ∨ (!m.lowClean ∧ !m.highClean) then s.trainFail p
  else
    let wide := m.lowClean && m.highClean && s.num (Obj.portWidthMax p) == 16
    let s : State := s.updPort p (fun x => { x with
      node := m.node, features := m.features, relay := m.features.getLsbD 0, ctrl := [], lowClean := m.lowClean
      highClean := m.highClean, adv := ⟨m.advReq, m.advRsp, m.advSnp, m.advMgmt⟩ })
    let s : State := s.setWidth p (if wide then 16 else 8) (if m.lowClean then .low else .high)
    let x := s.ports[p]
    if x.fence = .training then
      let s : State := (s.clearBit Obj.fencedPorts p).toService
      (s.freshReset p).portUp p
    else if x.inReset then
      s.sendAsk p (.resume (!x.forceFresh && s.num (Obj.resumeEnable p) == 1) x.rxLast)
    else (s.freshLink p).portUp p

/-! ## Rungs 1 and 2 (R87–R90, Table 02-11) -/

/-- Rung 2 begins: DEGRADE_REQ names the half that stays in use and a switch point of CW_COUNT + 64, which is open (log 23). -/
def degrade (s : State) (p : Fin 16) (half : Half) : State :=
  let at_ := s.drawFresh.1.setWidth 12
  let s : State := s.drawFresh.2
  let s : State := s.unReplay p
  let s : State := (s.updPort p (fun x => { x with degrading := true, degradeAt := s.dev.now + 1 })).bump (Obj.degradeCount p)
  s.sendAsk p (.degradeReq half at_)

/-- The half that a lane lies in, and the other. -/
def halfOf (lane : Nat) : Half := if lane < 8 then .low else .high
def Half.other : Half → Half
  | .low => .high
  | .high => .low

/-- Lanes fault at a port that is UP: rung 2 to the clean half, or rung 3 (Table 02-11). -/
def laneFaults (s : State) (p : Fin 16) (bad : List Nat) : State :=
  let x := s.ports[p]
  let width := if x.state = .up then x.width else x.was.1
  let act := bad.filter (fun l => width == 16 || halfOf l == x.half)
  let s : State := s.updPort p (fun x => { x with
    laneFault := bad.foldl (fun (m : BitVec 16) l => m ||| (1#16 <<< l)) x.laneFault })
  let faulty := s.ports[p].laneFault
  match act with
  | [] => if bad.isEmpty then s else s.updPort p (fun x => { x with soakBad := s.dev.now + 1 })
  | l :: _ =>
    if width = 8 then s.portReset p 4 false
    else if (List.range 16).all (fun k => halfOf k == halfOf l || !faulty.getLsbD k) ∧ s.num (Obj.autoDegrade p) = 1 then
      if x.degrading || x.switchAt.isSome || x.state != .up then s else s.degrade p (Half.other (halfOf l))
    else s.portReset p 9 false

/-- Whether rung 2 can apply at a port at `width` lanes for a fault of lane l (Table 02-11). -/
def canDegrade (s : State) (p : Fin 16) (width : Nat) (busy : Bool) (l : Nat) : Bool :=
  width == 16 && s.num (Obj.autoDegrade p) == 1 && !busy
    && (List.range 16).all (fun k => halfOf k == halfOf l || !s.ports[p].laneFault.getLsbD k)

/-- The last PAYLOAD flit could not be accepted: REPLAY_REQ, and escalation after REPLAY_ESC_COUNT for one SEQ (R52, R87). The request that
reaches the count is itself sent and counted. REPLAY_COUNT counts the replays that the device asks for and those that it performs
(DESIGN CHOICE, log 130). With a lane attributed where rung 2 cannot apply, Table 02-11 names no code: rung 3 with code 1 (DESIGN
CHOICE, log 131). -/
def replay (s : State) (p : Fin 16) (lane : Option (Fin 16)) : State :=
  let x := s.ports[p]
  let s : State := s.bump (Obj.replayCount p)
  let s : State := s.updPort p (fun x => { x with
    replayWait := true, replayFails := x.replayFails + 1, replayLane := (lane.map (·.val)).or x.replayLane
    replayAt := s.dev.now + 1, replayN := if x.replayAt = s.dev.now + 1 then x.replayN + 1 else 1
    ctrl := x.ctrl.filter (fun c => match c with | .replayReq _ => false | _ => true) })
  let s : State := s.sendAsk p (.replayReq (x.rxLast + 1))
  if s.ports[p].replayFails < s.num (Obj.replayEscCount p) then s
  else
    let s : State := s.raise 0x1010 p
    let seen := s.ports[p].replayLane
    let s : State := s.updPort p (fun x => { x with replayFails := 0, replayLane := none, replayAt := 0 })
    match seen with
    | some l =>
      if s.canDegrade p x.width (x.degrading || x.switchAt.isSome) l then
        (s.updPort p (fun x => { x with laneFault := x.laneFault ||| (1#16 <<< l) })).degrade p (Half.other (halfOf l))
      else s.portReset p 1 false
    | none => s.portReset p 1 false

end State

end Sys2Proof.Machine
end

