-- ==== Sys2Proof/Machine/Crypto.lean ====
section
/-! DEFINITION. The cryptography that the manual names: SHA-384, HMAC-SHA-384 and the verification of ECDSA over P-384, as their
published standards define them (FIPS 180-4, FIPS 198-1, FIPS 186-5; PRESUMED, log 26). -/

namespace Sys2Proof.Machine

/-! ## SHA-384 -/

/-- The number that big-endian bytes hold, and its bytes. -/
def beNat (bs : List Byte) : Nat := bs.foldl (fun a b => 256 * a + b.toNat) 0
def beBytes (n v : Nat) : List Byte := (leBytes n v).reverse

/-- The primes up to 409: the first 80. -/
def shaPrimes : List Nat :=
  (List.range 410).filter (fun p => decide (2 ≤ p) && (List.range 21).all (fun d => decide (d < 2 ∨ p ≤ d) || p % d != 0))

/-- The integer k-th root of n, found from `x` by its `bits` lower bits. -/
def intRoot (k n : Nat) : Nat → Nat → Nat
  | 0, x => x
  | b + 1, x => intRoot k n b (if (x + 2 ^ b) ^ k ≤ n then x + 2 ^ b else x)

/-- The first 64 bits of the fractional part of the k-th root of a prime below 2^9. -/
def rootFrac (k p : Nat) : BitVec 64 := BitVec.ofNat 64 (intRoot k (p * 2 ^ (64 * k)) 69 0)

/-- The round constants: the cube roots of the 80 primes. The initial hash value of SHA-384: the square roots of the ninth to the
sixteenth prime. -/
def shaK : List (BitVec 64) := shaPrimes.map (rootFrac 3)
def shaStart : List (BitVec 64) := ((shaPrimes.drop 8).take 8).map (rootFrac 2)

/-- Message padding to whole 128-byte blocks. -/
def shaPad (m : List Byte) : List Byte :=
  let z := (111 + 128 * 2 - m.length % 128) % 128
  m ++ [0x80] ++ List.replicate z 0 ++ beBytes 16 (8 * m.length)

/-- The exclusive or of three rotations. -/
def rot3 (x : BitVec 64) (i j k : Nat) : BitVec 64 := x.rotateRight i ^^^ x.rotateRight j ^^^ x.rotateRight k

/-- A round in progress. The working variables are the last four values of two sequences, a to d of the first and e to h of the second,
newest first; the schedule holds the sixteen words to come. -/
structure ShaState where
  a : List (BitVec 64)
  e : List (BitVec 64)
  w : List (BitVec 64)

/-- One round with its constant: each sequence and the schedule gain their next word. -/
def ShaState.round (v : ShaState) (k : BitVec 64) : ShaState :=
  let x (i : Nat) := v.a.getD i 0
  let y (i : Nat) := v.e.getD i 0
  let m (i : Nat) := v.w.getD i 0
  let choice := y 2 ^^^ (y 0 &&& (y 1 ^^^ y 2))
  let major := (x 0 &&& (x 1 ||| x 2)) ||| (x 1 &&& x 2)
  let t := m 0 + k + y 3 + rot3 (y 0) 14 18 41 + choice
  let fresh := m 0 + m 9 + (m 1 >>> 7 ^^^ (m 1).rotateRight 1 ^^^ (m 1).rotateRight 8)
    + (m 14 >>> 6 ^^^ (m 14).rotateRight 19 ^^^ (m 14).rotateRight 61)
  ⟨(t + rot3 (x 0) 28 34 39 + major) :: v.a.take 3, (t + x 3) :: v.e.take 3, v.w.drop 1 ++ [fresh]⟩

/-- One block: the 80 rounds, and the sum with the hash value before. -/
def shaBlock (h : List (BitVec 64)) (b : List Byte) : List (BitVec 64) :=
  let w := (List.range 16).map (fun i => BitVec.ofNat 64 (beNat (slice b (8 * i) 8)))
  let v := shaK.foldl ShaState.round ⟨h.take 4, h.drop 4, w⟩
  List.zipWith (· + ·) h (v.a ++ v.e)

/-- SHA-384 of bytes: 48 bytes. -/
def sha384 (m : List Byte) : List Byte :=
  let p := shaPad m
  let h := (List.range (p.length / 128)).foldl (fun h i => shaBlock h (slice p (128 * i) 128)) shaStart
  (h.take 6).flatMap (fun w => beBytes 8 w.toNat)

/-- HMAC-SHA-384 (R674, R678). -/
def hmac384 (key m : List Byte) : List Byte :=
  let k0 := if 128 < key.length then sha384 key else key
  let k := k0 ++ List.replicate (128 - k0.length) 0
  sha384 (k.map (· ^^^ 0x5c) ++ sha384 (k.map (· ^^^ 0x36) ++ m))

/-! ## ECDSA over P-384 -/

/-- The field prime, the coefficient b, the order of the base point and the base point. -/
def p384 : Nat :=
  0xfffffffffffffffffffffffffffffffffffffffffffffffffffffffffffffffeffffffff0000000000000000ffffffff
def b384 : Nat :=
  0xb3312fa7e23ee7e4988e056be3f82d19181d9c6efe8141120314088f5013875ac656398d8a2ed19d2a85c8edd3ec2aef
def n384 : Nat :=
  0xffffffffffffffffffffffffffffffffffffffffffffffffc7634d81f4372ddf581a0db248b0a77aecec196accc52973
def gx384 : Nat :=
  0xaa87ca22be8b05378eb1c71ef320ad746e1d3b628ba79b9859f741e082542a385502f25dbf55296c3a545e3872760ab7
def gy384 : Nat :=
  0x3617de4a96262c6f5d9e98bf9292dc29f8f41dbd289a147ce9da3113b5f0b8c00a60b1ce1d7e819d7a431d7c90ea0e5f

/-- b^e modulo m, from the n low bits of e. -/
def powMod (m : Nat) : Nat → Nat → Nat → Nat
  | 0, _, _ => 1 % m
  | n + 1, b, e => (if e % 2 = 1 then b else 1) * powMod m n (b * b % m) (e / 2) % m

/-- The inverse modulo a prime. -/
def invMod (m a : Nat) : Nat := powMod m 384 a (m - 2)

/-- The sum of two points; `none` is the point at infinity. -/
def ecAdd (a b : Option (Nat × Nat)) : Option (Nat × Nat) :=
  match a, b with
  | none, y => y
  | x, none => x
  | some (x1, y1), some (x2, y2) =>
    if x1 = x2 ∧ (y1 + y2) % p384 = 0 then none
    else
      let l := if x1 = x2 then (3 * x1 * x1 + (p384 - 3)) * invMod p384 (2 * y1 % p384) % p384
        else (y2 + p384 - y1) * invMod p384 ((x2 + p384 - x1) % p384) % p384
      let x3 := (l * l + 2 * p384 - x1 - x2) % p384
      some (x3, (l * (x1 + p384 - x3) + p384 - y1) % p384)

/-- A multiple of a point, from the n low bits of k. -/
def ecMul : Nat → Nat → Option (Nat × Nat) → Option (Nat × Nat)
  | 0, _, _ => none
  | n + 1, k, p => ecAdd (if k % 2 = 1 then p else none) (ecMul n (k / 2) (ecAdd p p))

/-- What the public-key engine decides (R695), in the codes of `UPD_VERIFY_RESULT`: 1 PASS, 2 ZERO_VALUE, 3 OUT_OF_RANGE,
4 OFF_CURVE, 5 MISMATCH. `digest` is read as an integer as FIPS 186-5 reads it. -/
def pkeVerify (qx qy r s : Nat) (digest : List Byte) : Nat :=
  if r = 0 ∨ s = 0 ∨ (qx = 0 ∧ qy = 0) then 2
  else if n384 ≤ r ∨ n384 ≤ s ∨ p384 ≤ qx ∨ p384 ≤ qy then 3
  else if qy * qy % p384 ≠ (qx * qx * qx + (p384 - 3) * qx + b384) % p384 then 4
  else
    let w := invMod n384 s
    let z := beNat digest
    match ecAdd (ecMul 384 (z * w % n384) (some (gx384, gy384))) (ecMul 384 (r * w % n384) (some (qx, qy))) with
    | none => 5
    | some (x, _) => if x % n384 = r then 1 else 5

end Sys2Proof.Machine
end

