-- ==== Sys2Proof/Machine/Guard.lean ====
section
/-! DEFINITION. The safety concept's reactions: mismatches of duplicated state, and the checker self-test (chapter 11). -/

namespace Sys2Proof.Machine

/-! ## Duplicated state (R538–R540, Table 11-5, Table 11-6) -/

/-- The class of a mismatch's event 0x8042 (Table 11-5). -/
def dupClass : DupUnit → Nat
  | .h2arb => 5 | .h2src _ => 5 | .h4 => 4 | .h5 => 4 | .h6 => 3 | _ => 1

namespace State

/-- The ALU and the Bollards are fenced by a mismatch in H7: what H7 has not performed yet completes DAMAGED, and the line store is
written back (Table 11-6). -/
def fenceH7 (s : State) (cls : Nat) : State :=
  let s : State := s.fenceAlu cls
  let open_ := byGrant (s.path.reqs.filter (fun r => r.op.isAlu && (r.stage == .h7 || r.stage == .mem)))
  let s : State := s.each open_ (fun s r => (s.finishPlain r .damaged).homeEnds r)
  s.each (s.path.store.filter (fun e => !e.2.filling && !e.2.leaving)) (fun s e => s.evictStore e.1 e.2 (s.path.gseq + 1) none)

/-- The reaction to a mismatch, or to the failed test of its comparator (Table 11-4, Table 11-6, Table 11-7). -/
def dupReact (s : State) (u : DupUnit) (cls : Nat) : State :=
  match u with
  | .h2src i => if h : i.val < 16 then
      ((s.portReset ⟨i.val, h⟩ 5 true).fencePort ⟨i.val, h⟩ .checker cls)
    else s.fenceBit Obj.fencedPorts 16 cls
  | .h7 => s.fenceH7 cls
  | .pchan c => if (chanNum c) < 256 then s.fenceStack ((chanNum c) / 32) cls else s.fenceChan ((chanNum c) - 256) cls
  | .mdie k => s.fenceDie k cls
  | .config true => s
  | .config false => s.enterSafe 2 cls
  | _ => s.enterSafe 1 cls

/-- A mismatch of duplicated state (R538, R539). A mismatch of the configuration that the parities resolve is corrected; it raises
the same event (DEDUCED, log 24). -/
def dupMismatch (s : State) (u : DupUnit) : State := (s.raiseSafety 0x8042 0 [dupClass u]).dupReact u (dupClass u)

end State

/-! ## Checker self-test (R541–R544, Table 11-4) -/

/-- The number of a unit among the duplicated units. -/
def dupNum : DupUnit → Nat
  | .h2arb => 0 | .h2src i => 1 + i.val | .h3 => 18 | .h4 => 19 | .h5 => 20 | .h6 => 21 | .h7 => 22 | .h8 => 23 | .h10 => 24
  | .h11 => 25 | .pchan c => 26 + (chanNum c) | .mdie k => 306 + k.val | .config b => 314 + (if b then 1 else 0)

/-- A checker's number: the checkers of Table 11-4 counted in its order (DESIGN CHOICE, log 25). -/
def checkerNum : Checker → Nat
  | .dramDecoder c => (chanNum c) | .codec d => 280 + d.val | .parityPort p => 792 + p.val | .parityMem k => 808 + k.val
  | .parityWq k => 816 + k.val | .parityHub q => 824 + q.val | .flitCrc p => 829 + p.val | .crcHub i => 845 + i.val
  | .crcDie k => 848 + k.val | .dirCompare i => 856 + i.val | .dup u => 858 + dupNum u | .keyDie k => 1174 + k.val
  | .keyHub i => 1182 + i.val | .alert => 1184

/-- How many checkers there are. -/
def checkerCount : Nat := 1185

namespace State

/-- The reaction of Table 11-4 to a checker's failed test. -/
def checkerReact (s : State) (c : Checker) : State :=
  match c with
  | .dramDecoder c => if (chanNum c) < 256 then s.fenceStack ((chanNum c) / 32) 7 else s.fenceChan ((chanNum c) - 256) 7
  | .codec d => if s.dram.decOut.contains d.val then s else (s.codecsOut [d.val] []).fenced (0x800 + d.val) 7
  | .parityPort p => s.fencePort p .checker 7
  | .parityMem k => s.fenceDie k 7
  | .parityWq k => s.fenceDie k 7
  | .parityHub _ => s.enterSafe 4 7
  | .flitCrc p => s.fencePort p .checker 7
  | .crcHub _ => s.enterSafe 4 7
  | .crcDie _ => s.enterSafe 4 7
  | .dirCompare _ => s.enterSafe 4 7
  | .dup u => match u with
    | .h2src i => s.dupReact (.h2src i) 7
    | .h7 => s.dupReact .h7 7
    | .pchan c => s.dupReact (.pchan c) 7
    | .mdie k => s.dupReact (.mdie k) 7
    | _ => s.enterSafe 4 7
  | .keyDie k => [3 * k.val, 3 * k.val + 1, 3 * k.val + 2].foldl (fun (s : State) m => s.fenceChan m 7) (s.fenceStack k 7)
  | .keyHub _ => s
  | .alert => s

/-- A checker has completed its test (R541–R543). -/
def selftest (s : State) (c : Checker) (ok : Bool) : State :=
  let n := checkerNum c
  let a := s.aon
  let last := FMap.find s.dev.startAt a.testAt n
  let s : State := s.atLeast Obj.selftestAgeMax ((s.dev.now - last) / cyclesUs)
  let round := if a.round.contains n then a.round else n :: a.round
  let full := decide (checkerCount ≤ round.length)
  let s : State := { s with aon := { a with
    tested := if a.tested.contains n then a.tested else n :: a.tested
    round := if full then [] else round
    testAt := FMap.put a.testAt n s.dev.now } }
  let s : State := if full then s.bump Obj.selftestRounds else s
  if ok then s
  else
    let s : State := ((s.bump Obj.selftestFails).setNum Obj.selftestLastFail n).raiseSafety 0x8040 n [7]
    s.checkerReact c

/-- A self-test period ends: each checker without a test misses it with event 0x8041, and one that missed the period before as well
takes the device to SAFE (R544). -/
def selftestEnd (s : State) : State :=
  let miss := (List.range checkerCount).filter (fun n => !s.aon.tested.contains n)
  let again := miss.any (fun n => s.aon.missed.contains n)
  let s : State := { s with aon := { s.aon with tested := [], missed := miss } }
  let s : State := s.each miss (fun s n => s.raiseSafety 0x8041 n [7])
  if again then s.enterSafe 5 7 else s

end State

end Sys2Proof.Machine
end

