-- ==== Sys2Proof/Machine/Rings.lean ====
section
/-! DEFINITION. The host rings: the device's own accesses to the ring region, the entries it writes, and the completion of ring
commands (chapter 13). -/

namespace Sys2Proof.Machine

namespace State

/-! ## The device's own accesses (R617; log 13) -/

/-- The mode set under which the endpoint master reaches a device offset by step 4 (R617, R142). -/
def devMode (s : State) (off : Nat) (op : ReqOp) : Option Mode :=
  match s.resolve (s.newReq 0 ⟨.ep, 0, 0, 0, false, 0, BitVec.ofNat 64 (s.ownNode * 2 ^ 46 + off), none⟩ op 0 .internal) with
  | .inl _ => none
  | .inr m => some m

/-- A granule of a page as the device reads it; a page that holds nothing reads as zero. -/
def devGran (s : State) (m : Mode) (off : Nat) : Gran :=
  let p := off / 65536
  let c := s.copyA p
  if (s.entry p).pstate = .unwritten ∨ c.tier = 0 ∨ c.comp then Gran.zero else (s.current (c.key (off / 64 % 1024)) (v0Of m)).1

/-- Bytes that the device reads as the endpoint master. -/
def devRead (s : State) (off n : Nat) : List Byte :=
  match s.devMode off .readOnce with
  | none => zeros n
  | some m =>
    let a := off / 64 * 64
    let gs := (List.range ((off + n - a + 63) / 64)).map (fun i => s.devGran m (a + 64 * i))
    slice (gs.flatMap (fun g => if g.poison then zeros 64 else g.bytes)) (off - a) n

/-- The device writes part of one granule as the endpoint master; none if the write cannot be performed. -/
def devWrite (s : State) (off : Nat) (bs : List Byte) : Option State :=
  match s.devMode off (.writeMasked 0 []) with
  | none => none
  | some m =>
    let p := off / 65536
    let placed : Option State := match (s.entry p).pstate with
      | .unwritten => (match s.place p m with
        | .done s => some { s with tide := { s.tide with placing := s.tide.placing.filter (· != p) } }
        | _ => none)
      | .faulted => none
      | .shared => none
      | _ => some s
    match placed with
    | none => none
    | some s =>
      if (s.copyA p).comp || s.copyFenced (s.copyA p) then none
      else
        let g := s.devGran m off
        let s : State := s.writeResolves p (off % 65536 / 4096)
        let old := if g.poison then zeros 64 else g.bytes
        some (s.writeNow (s.granWrites m p (off / 64 % 1024) ⟨patch old (off % 64) bs, false⟩))

/-! ## Entries (R621–R625, Tables 13-4 and 13-8) -/

/-- PHASE of entry i of a ring of n entries (R623). -/
def phase (i n : Nat) : Nat := (i / n + 1) % 2

/-- Set the rings. -/
def setRing (s : State) (r : Ring) : State := { s with mgmt := { s.mgmt with ring := r } }

/-- Whether the rings are ACTIVE with a feature agreed (R630). -/
def ringHas (s : State) (b : Nat) : Bool := s.mgmt.ring.st == 3 && s.mgmt.ring.agreed.getLsbD b

/-- Entries of a ring that are in use. -/
def ringUse (tail head : Nat) : Nat := (tail + 2 ^ 32 - head) % 2 ^ 32

/-- An event entry (Table 13-8). -/
def evtBytes (s : State) (e : Ev) (i : Nat) : List Byte :=
  let cls := if s.ringHas 8 then e.cls else 0
  leBytes 2 e.code ++ leBytes 2 ((if e.cls = 0 then 0 else 1) + cls * 2 + phase i 16384 * 128) ++ leBytes 4 e.detail
    ++ leBytes 8 (if s.ringHas 1 then e.time else 0)

/-- Write one event entry; none while the ring is full or the write cannot be performed. -/
def putEvent (s : State) (e : Ev) : Option State :=
  let r := s.mgmt.ring
  if 16384 ≤ ringUse r.evtTail r.evtHead then none
  else match s.devWrite (r.base + 0x60000 + r.evtTail % 16384 * 16) (s.evtBytes e r.evtTail) with
    | none => none
    | some s =>
      let s : State := (s.setRing { r with evtTail := (r.evtTail + 1) % 2 ^ 32, shadow := true }).bump Obj.eventsWritten
      let s : State := if e.cls = 0 then s else s.atLeast Obj.reportDelayMax (s.time64 - e.time)
      some (if r.evtTail = r.evtHead then s.pendIrq 2 else s)

/-- The event that the writer puts first once space frees: a count of safety events by class, then the events dropped (R627). -/
def owedEvent (s : State) : Option (Ev × State) :=
  match s.aon.lostCls with
  | (c, n) :: rest =>
    some (⟨0x9015, c + n % 2 ^ 24 * 256, s.time64, c⟩, { s with aon := { s.aon with lostCls := rest } })
  | [] =>
    if s.aon.dropped = 0 then none
    else some (⟨0x9014, s.aon.dropped % 2 ^ 32, s.time64, 0⟩, { s with aon := { s.aon with dropped := 0 } })

/-- Write waiting events while the ring has room. -/
def pumpEvents : Nat → State → State
  | 0, s => s
  | n + 1, s =>
    match s.owedEvent with
    | some (e, s1) => (match s1.putEvent e with
      | some s => pumpEvents n s
      | none => s)
    | none => match s.aon.evq with
      | [] => s
      | e :: rest => match ({ s with aon := { s.aon with evq := rest } } : State).putEvent e with
        | some s => pumpEvents n s
        | none => s

/-- A log entry (Table 13-8); SEVERITY and TEXT are open (log 29). -/
def logBytes (e : LogE) (i : Nat) : List Byte :=
  leBytes 8 e.time ++ leBytes 2 e.code ++ leBytes 1 e.core
    ++ leBytes 1 ((Config.logSeverity e.code).toNat + phase i 16384 * 128) ++ leBytes 4 e.seq ++ slice (Config.logText e.code) 0 48

/-- Write one log entry: four granules' worth of bytes in one. -/
def putLog (s : State) (bs : List Byte) : Option State :=
  let r := s.mgmt.ring
  if 16384 ≤ ringUse r.logTail r.logHead then none
  else match s.devWrite (r.base + 0x100000 + r.logTail % 16384 * 64) bs with
    | none => none
    | some s =>
      let s : State := (s.setRing { r with logTail := (r.logTail + 1) % 2 ^ 32, shadow := true }).bump Obj.logWritten
      some (if r.logTail = r.logHead then s.pendIrq 3 else s)

/-- Core L writes waiting log entries while the log ring has room (R627). -/
def pumpLogs : Nat → State → State
  | 0, s => s
  | n + 1, s =>
    match s.mgmt.logq with
    | [] => s
    | e :: rest => match ({ s with mgmt := { s.mgmt with logq := rest } } : State).putLog (logBytes e s.mgmt.ring.logTail) with
      | some s => pumpLogs n s
      | none => s

/-- Whether a management core is RUNNING: 0 M, 1 P, 2 L, 3 C. -/
def coreRuns (s : State) (c : Nat) : Bool := s.num (Obj.coreState c) == 2

/-- The rings while ACTIVE: events by hardware, log entries by Core L. -/
def pumpRings (s : State) : State :=
  if s.mgmt.ring.st ≠ 3 then s
  else
    let s : State := pumpEvents (s.aon.evq.length + 9) s
    if s.ringHas 2 && s.coreRuns 2 then pumpLogs s.mgmt.logq.length s else s

/-! ## Completions of commands (R622, R625, R626) -/

/-- The command that is being executed completes with a status, a hint and the bytes of a value that it read; `total` is the
value's length. A value above 8 bytes goes to the host buffer through DMA channel RING, if HOST_BUFFERS is agreed (Tables 13-7
and 13-9). -/
def finishCmd (s : State) (st0 : Status) (hint : Nat) (val : List Byte) (total0 : Nat) : State :=
  match s.mgmt.ring.busy with
  | none => s
  | some (id, e) =>
    let long := decide (8 < total0) && st0 == .ok
    let st : Status := if long && !s.ringHas 6 then .unsupported else st0
    let total := if st = .ok then total0 else 0
    let s : State := if long && s.ringHas 6 then s.emit (.dmaWrite 3 e.bufAddr.toNat (val.take e.bufLen.toNat)) else s
    let r := s.mgmt.ring
    let res := if st = .retryLater then leBytes 8 hint else if st = .ok then slice val 0 8 else zeros 8
    let bs := leBytes 4 id.toNat ++ leBytes 2 (st.code + phase r.cplTail 4096 * 128) ++ leBytes 2 total ++ res
    let s : State := (s.setRing { r with busy := none }).bump Obj.commands
    match s.devWrite (r.base + 0x50000 + r.cplTail % 4096 * 16) bs with
    | none => s
    | some s =>
      let r := s.mgmt.ring
      let s : State := s.setRing { r with cplTail := (r.cplTail + 1) % 2 ^ 32, shadow := true }
      if r.cplTail = r.cplHead then s.pendIrq 1 else s

end State

end Sys2Proof.Machine
end

