-- ==== Sys2Proof/Machine/Dict.lean ====
section
/-! DEFINITION. The dictionary server: requests and their checks, sessions and authority, replies on the three paths and to ring
commands, and change records (chapter 14). -/

namespace Sys2Proof.Machine

/-- A dictionary request: the header of Table 14-4 and its value bytes. OP: 1 READ, 2 WRITE, 3 OPEN, 4 PROVE, 5 CLOSE, 6 DESCRIBE.
A ring command's request is one of the window with a `peer` other than 0 (R626). -/
structure Ask where
  who     : Who
  version : Nat
  op      : Nat
  index   : Nat
  sub     : Nat
  flags   : Nat
  offset  : Nat
  length  : Nat
  rsvd    : Nat
  value   : List Byte
  deriving DecidableEq, Repr

/-- The request body (Table 14-4). -/
def Ask.body (a : Ask) : List Byte :=
  leBytes 1 a.version ++ leBytes 1 a.op ++ leBytes 2 a.who.reqId.toNat ++ leBytes 4 a.who.session.toNat ++ leBytes 2 a.index
    ++ leBytes 1 a.sub ++ leBytes 1 a.flags ++ leBytes 4 a.offset ++ leBytes 4 a.length ++ leBytes 4 a.rsvd ++ a.value

/-- The WRITE of a whole value in one message (R662). -/
def askWrite (w : Who) (key : Nat) (v : List Byte) : Ask := ⟨w, 1, 2, key / 256, key % 256, 1, 0, v.length, 0, v⟩

/-- The path's number: 1 T1S, 2 the window, 3 the links. -/
def pathNum : Path → Nat
  | .t1s => 1 | .window => 2 | .link _ => 3

/-- Who stands for the ring command that was taken last: `peer` is one above CMD_HEAD. -/
def State.ringWho (s : State) : Who := ⟨.window, 0, 0, [], 0, s.mgmt.ring.cmdHead + 1⟩

/-- The ASCII bytes of a short text. -/
def ascii (s : String) : List Byte := s.toList.map (fun c => BitVec.ofNat 8 c.toNat)

namespace State

/-- Set the dictionary server. -/
def setDict (s : State) (d : Dict) : State := { s with mgmt := { s.mgmt with dict := d } }

/-! ## Sessions and authority (R670–R680) -/

/-- The secret of an authority: 2 operator, 3 owner; empty while unset (R675). -/
def secret (s : State) (auth : Nat) : List Byte := s.blob (if auth = 3 then Obj.ownerSecret else Obj.operatorSecret)

/-- The authority of a window request without a session, and of ring commands (R670). -/
def windowAuth (s : State) : Nat := if s.secret 3 = [] then 3 else s.num Obj.epDefaultAuth

/-- The session that a request names on its path. -/
def dsess (s : State) (w : Who) : Option DSess :=
  s.mgmt.dict.sess.find? (fun x => x.path == pathNum w.path && x.num == w.session)

/-- Change the session that a request names. -/
def updSess (s : State) (w : Who) (f : DSess → DSess) : State :=
  let hit (x : DSess) : Bool := x.path == pathNum w.path && x.num == w.session
  s.setDict { s.mgmt.dict with sess := updFirst hit f s.mgmt.dict.sess }

/-- Close a session; its assembly goes with it. -/
def closeSess (s : State) (path : Nat) (num : BitVec 32) : State :=
  let d := s.mgmt.dict
  s.setDict { d with sess := d.sess.filter (fun x => !(x.path == path && x.num == num))
                     asm := d.asm.filter (fun x => !(x.path == path && x.num == num)) }

/-- The TAG of a body under an active session (R678). -/
def macOf (s : State) (x : DSess) (body : List Byte) : List Byte :=
  let k := (hmac384 (s.secret x.auth) (ascii "P9SK" ++ x.nonce ++ leBytes 4 x.num.toNat)).take 32
  (hmac384 k body).take 16

/-- Whether a session's requests carry a TAG and follow R679. -/
def tagged (x : DSess) : Bool := x.path == 1 && x.active && decide (2 ≤ x.auth)

/-- A session takes a request that it performs (R679). -/
def taking (x : DSess) (id : BitVec 16) : DSess :=
  if tagged x then { x with last := some id, reply := [], prev := (x.last, x.reply) } else x

/-- What the authority check decides. -/
inductive Auth where
  | ok (a : Nat)
  | denied
  | badTag
  | again
  | damaged
  deriving DecidableEq, Repr

/-- The authority of a request (R105, R670, R671, R678–R680). OPEN needs none, and PROVE names a pending session (DEDUCED from
R673 and R674, log 30). -/
def authOf (s : State) (a : Ask) : Auth :=
  match a.who.path with
  | .link _ => if a.who.session = 0 then .ok 0 else .damaged
  | .window =>
    if a.who.session = 0 then .ok s.windowAuth
    else match s.dsess a.who with
      | none => .denied
      | some x => if x.active then .ok x.auth else if a.op = 4 then .ok 0 else .denied
  | .t1s =>
    if a.who.session = 0 then (if s.num Obj.t1sOpenRead = 1 ∨ a.op = 3 then .ok 1 else .denied)
    else match s.dsess a.who with
      | none => .denied
      | some x =>
        if !x.active then (if a.op = 4 then .ok 0 else .denied)
        else if !tagged x then .ok x.auth
        else if a.who.mac ≠ s.macOf x a.body then .badTag
        else match x.last with
          | none => .ok x.auth
          | some l =>
            let d := (a.who.reqId - l).toNat
            if d = 0 then .again else if d ≤ 32767 then .ok x.auth else .denied

/-! ## Replies (R660, R672, R678, R679) -/

/-- A reply body (Table 14-5). -/
def replyBody (op : Nat) (reqId : Nat) (st : Status) (hint ty off : Nat) (val : List Byte) (total : Nat) : List Byte :=
  leBytes 1 1 ++ leBytes 1 (op + 128) ++ leBytes 2 reqId ++ leBytes 1 st.code ++ leBytes 1 ty ++ leBytes 2 0
    ++ leBytes 4 (if st = .retryLater then hint else 0) ++ leBytes 4 off ++ leBytes 4 val.length ++ leBytes 4 total ++ val

/-- Send a reply. One with a status other than OK carries no value (R13); `noTag` is for R678's failures. A RETRY_LATER leaves the
session as it was before the request (R12). -/
def reply (s : State) (w : Who) (op : Nat) (st : Status) (hint ty off : Nat) (val0 : List Byte) (total : Nat) (noTag : Bool) : State :=
  let val := if st = .ok then val0 else []
  let s : State := if st = .denied then s.bump Obj.denials else s
  let body := replyBody op w.reqId.toNat st hint ty off val total
  match w.path with
  | .t1s =>
    let x := s.dsess w
    let out := match x with
      | some x => if tagged x && !noTag then body ++ s.macOf x body else body
      | none => body
    let s : State := if noTag then s
      else if st = .retryLater then
        s.updSess w (fun x => if x.last = some w.reqId && x.reply.isEmpty then { x with last := x.prev.1, reply := x.prev.2 } else x)
      else s.updSess w (fun x => if op ≠ 6 ∧ x.last = some w.reqId ∧ x.reply.isEmpty then { x with reply := out } else x)
    (s.bump Obj.t1sFramesTx).emit (.dictReply 1 w.peer out)
  | .window =>
    if w.peer ≠ 0 then (if w.peer = s.mgmt.ring.cmdHead + 1 then s.finishCmd st hint val total else s)
    else
      let d := s.mgmt.dict
      (s.setDict { d with winBusy := false, winDone := (d.winDone + 1) % 2 ^ 32, winBuf := body }).emit (.dictReply 2 0 body)
  | .link p =>
    let us := toUnits body
    let m : Msg :=
      if st = .ok then ⟨.mgmt, cplUnit .mgmt .dictReply w.ltag .ok 0 0 us.length :: us, some w.ltag, none, false, none⟩
      else ⟨.mgmt, [cplUnit .mgmt .done w.ltag st 0 0 (if st = .retryLater then hint else 0)], some w.ltag, none, false, none⟩
    s.updPort p (fun x => { x with ready := x.ready ++ [m] })

/-- A deferred reply to a write (R659). -/
def replyOwed (s : State) (o : Owed) (st : Status) (hint : Nat := 0) : State :=
  s.reply o.who 2 st hint (match objRow (o.key / 256) (o.key % 256) with | some r => r.ty.code | none => 0) 0 [] 0 false

/-! ## Values (R644, R645) -/

/-- Whether bytes are valid UTF-8 (the well-formed sequences of RFC 3629). -/
def utf8Ok : List Byte → Bool
  | [] => true
  | a :: t =>
    let a := a.toNat
    let cont (lo hi : Nat) (b : Byte) : Bool := decide (lo ≤ b.toNat ∧ b.toNat ≤ hi)
    if a < 0x80 then utf8Ok t
    else match t with
      | b :: t1 =>
        if 0xC2 ≤ a ∧ a ≤ 0xDF then cont 0x80 0xBF b && utf8Ok t1
        else match t1 with
          | c :: t2 =>
            if 0xE0 ≤ a ∧ a ≤ 0xEF then
              cont (if a = 0xE0 then 0xA0 else 0x80) (if a = 0xED then 0x9F else 0xBF) b && cont 0x80 0xBF c && utf8Ok t2
            else match t2 with
              | d :: t3 =>
                decide (0xF0 ≤ a ∧ a ≤ 0xF4) && cont (if a = 0xF0 then 0x90 else 0x80) (if a = 0xF4 then 0x8F else 0xBF) b
                  && cont 0x80 0xBF c && cont 0x80 0xBF d && utf8Ok t3
              | [] => false
          | [] => false
      | [] => false

/-- Whether a value has the form that its object's type and length require (R645). -/
def formOk (key : Nat) (r : ORow) (v : List Byte) : Bool :=
  match r.ty with
  | .str => decide (v.length ≤ 64) && utf8Ok v
  | .blob =>
    if key = Obj.ownerSecret ∨ key = Obj.operatorSecret then v.length == 32
    else if key = Obj.updHeader then v.length == 256
    else if key = Obj.updBlock then decide (24 ≤ v.length ∧ v.length ≤ 34816) && v.length == leNat (slice v 4 4)
    else decide (v.length ≤ 65536)
  | t => t.bytes == some v.length

/-- The number that a value stands for, signed types apart. -/
def valNum (r : ORow) (v : List Byte) : Int :=
  let n := leNat v
  match r.ty with
  | .i32 => if 2 ^ 31 ≤ n then (n : Int) - 2 ^ 32 else n
  | .i64 => if 2 ^ 63 ≤ n then (n : Int) - 2 ^ 64 else n
  | _ => n

/-- Whether a value lies in its object's range (R7, R8). -/
def rangeOk (r : ORow) (v : List Byte) : Bool :=
  match r.rng with
  | .any => true
  | .iv lo hi => decide (lo ≤ valNum r v ∧ valNum r v ≤ hi)
  | .mask _ => true
  | .oneOf xs => xs.contains (leNat v)

/-- The number stored for a value: reserved bits are dropped (R7). -/
def stored (r : ORow) (v : List Byte) : Nat :=
  match r.rng with
  | .mask m => leNat v &&& m
  | _ => leNat v

/-- Whether an index is a notice's. -/
def isNotice (idx : Nat) : Bool :=
  [0x3004, 0x3005, 0x5003, 0x6005, 0x6902, 0x7042, 0xA003].contains idx
    || (decide (0x2000 ≤ idx ∧ idx < 0x2400) && idx % 64 == 6)

/-- The writes that SAFE serves (R805). -/
def safeWrite (key : Nat) : Bool :=
  key == Obj.safetyAck || key == Obj.deviceReset || key == Obj.backupAlarmAck || (isNotice (key / 256) && key % 256 == 7)
    || decide (0xC000 ≤ key / 256 ∧ key / 256 ≤ 0xC8FF)

/-- Whether the group that owns an RWL object is locked (Table 14-2). A class commit is one step, so that no write meets one that
runs (log 39). A FREE region is not locked while its first COMMIT waits (R225): what is written then is staged for the next COMMIT
(DESIGN CHOICE, log 145). -/
def groupLocked (s : State) (idx : Nat) : Bool :=
  if 0x4000 ≤ idx ∧ idx ≤ 0x4FFF then (s.region (idx - 0x4000)).st != .free
  else false

/-- A change record is due for a stored object (R651). -/
def change (s : State) (key : Nat) (r : ORow) (v : List Byte) : State :=
  if r.store then s.setDict { s.mgmt.dict with saving := FMap.put s.mgmt.dict.saving key v } else s

/-! ## Serving (R655–R663) -/

/-- The most value bytes that one message of a path carries (Table 14-6, R106). -/
def pathLimit (s : State) (w : Who) : Nat :=
  match w.path with
  | .t1s => (match s.dsess w with
    | some x => if tagged x then 1192 else 1208
    | none => 1208)
  | .window => if w.peer = 0 then 4008 else 65536
  | .link p => 8 * min 512 (s.ports[p].adv.mgmt - 1) - 24

/-- The DESCRIBE record (Table 14-7). -/
def describeRec (s : State) : List Byte :=
  slice (ascii "ATG-P9-12T") 0 16 ++ [0xB1, BitVec.ofNat 8 s.mgmt.power.straps.toNat, BitVec.ofNat 8 s.dev.state.code, 0]
    ++ leBytes 4 (s.num Obj.nodeId) ++ leBytes 4 (if s.mgmt.power.boot then 0 else s.num Obj.fwVersion) ++ zeros 4

/-- A random number of n bytes from the entropy source. -/
def drawBytes : Nat → State → List Byte × State
  | 0, s => ([], s)
  | n + 1, s =>
    let x := drawBytes n s.drawFresh.2
    (unitBytes s.drawFresh.1 ++ x.1, x.2)

/-- OPEN (R673, R675–R677). A session number of 0, or one in use, is drawn again as its successor (log 31). -/
def openSess (s : State) (a : Ask) : State :=
  let p := pathNum a.who.path
  let no (s : State) (st : Status) (hint : Nat) : State := s.reply a.who 3 st hint 0 0 [] 0 false
  if p = 3 then no s .damaged 0
  else if a.sub = 0 ∨ 3 < a.sub then no s .unsupported 0
  else if s.mgmt.dict.locked.contains (p * 4 + a.sub) then no s .retryLater 60000000
  else if 2 ≤ a.sub ∧ s.secret a.sub = [] then no s .denied 0
  else if (if p = 1 then 16 else 4) ≤ (s.mgmt.dict.sess.filter (fun x => x.path == p)).length then no s .capacity 0
  else
    let n0 : BitVec 32 := s.drawFresh.1.setWidth 32
    let s : State := s.drawFresh.2
    let used (n : BitVec 32) : Bool := n == 0 || s.mgmt.dict.sess.any (fun x => x.path == p && x.num == n)
    let n := ((List.range 32).map (fun i => n0 + BitVec.ofNat 32 i)).find? (fun n => !used n)
    let num := n.getD 1
    let x := drawBytes 4 s
    let nonce := x.1
    let s : State := x.2
    let s : State := s.setDict { s.mgmt.dict with
      sess := s.mgmt.dict.sess ++ [⟨p, num, a.sub, nonce, a.sub == 1, s.dev.now, none, [], (none, [])⟩] }
    s.reply a.who 3 .ok 0 0 0 (leBytes 4 num.toNat ++ nonce) 36 false

/-- PROVE (R674, R676). -/
def proveSess (s : State) (a : Ask) : State :=
  let no (s : State) (st : Status) : State := s.reply a.who 4 st 0 0 0 [] 0 false
  match s.dsess a.who with
  | none => no s .denied
  | some x =>
    if x.active then no s .denied
    else
      let want := hmac384 (s.secret x.auth) (ascii "P9PV" ++ x.nonce ++ leBytes 4 x.num.toNat ++ leBytes 1 x.path)
      let k := x.path * 4 + x.auth
      if a.value = want then
        let s : State := s.setDict { s.mgmt.dict with fails := FMap.set 0 s.mgmt.dict.fails k 0 }
        (s.updSess a.who (fun x => { x with active := true, since := s.dev.now })).reply a.who 4 .ok 0 0 0 [] 0 true
      else
        let n := FMap.find 0 s.mgmt.dict.fails k + 1
        let lock := decide (3 ≤ n)
        let s : State := (s.bump Obj.authFailures).setNum Obj.lastAuthFailTime s.time64
        let s : State := s.logEntry 0 2
        let s : State := s.setDict { s.mgmt.dict with
          fails := FMap.set 0 s.mgmt.dict.fails k (if lock then 0 else n)
          locked := if lock then k :: s.mgmt.dict.locked else s.mgmt.dict.locked }
        let s : State := if lock then s.bump Obj.authLockouts else s
        no (s.closeSess x.path x.num) .denied

/-- How an object's write is answered: at once, or later (R659). -/
inductive WAns where
  | now (st : Status) (hint : Nat)
  | later
  deriving DecidableEq, Repr

/-- A whole value is written. -/
def performWrite (wr : State → Owed → ORow → List Byte → WAns × State) (s : State) (a : Ask) (key : Nat) (r : ORow) (v : List Byte) :
    State :=
  let no (s : State) (st : Status) (hint : Nat) : State := s.reply a.who 2 st hint r.ty.code a.offset [] 0 false
  if !formOk key r v then no s .damaged 0
  else if !rangeOk r v then no s .unsupported 0
  else
    let x := wr s ⟨a.who, key⟩ r v
    match x.1 with
    | .now st hint => no (if st = .ok then x.2.change key r v else x.2) st hint
    | .later => if a.who.path = .window ∧ a.who.peer = 0 then x.2.setDict { x.2.mgmt.dict with winBusy := true } else x.2

/-- A write, whole or by segments, once its object and authority are decided (R658, R662). -/
def serveWrite (wr : State → Owed → ORow → List Byte → WAns × State) (s : State) (a : Ask) (auth key : Nat) (r : ORow) : State :=
  let no (s : State) (st : Status) : State := s.reply a.who 2 st 0 r.ty.code a.offset [] 0 false
  if r.acc = .ro ∨ r.acc = .const ∨ auth < r.wa then no s .denied
  else if s.num Obj.ownerLock = 1 ∧ r.store ∧ auth < 3 then no s .denied
  else if s.dev.state = .safe ∧ !safeWrite key then no s .modeConflict
  else if r.acc = .rwl ∧ s.groupLocked a.index then no s .modeConflict
  else if a.value.length ≠ a.length then no s .damaged
  else if r.ty.bytes.isSome then
    if a.offset ≠ 0 ∨ a.flags % 2 = 0 then no s .damaged else performWrite wr s a key r a.value
  else
    let p := if a.who.path = .window ∧ a.who.peer ≠ 0 then 4 else pathNum a.who.path
    let d := s.mgmt.dict
    let rest := d.asm.filter (fun x => !(x.path == p && x.num == a.who.session))
    let old := d.asm.find? (fun x => x.path == p && x.num == a.who.session && x.key == key)
    let have_ : Option (List Byte) := if a.offset = 0 then some [] else match old with
      | some x => if x.bytes.length = a.offset then some x.bytes else none
      | none => none
    match have_ with
    | none => no (s.setDict { d with asm := rest }) .damaged
    | some b =>
      let v := b ++ a.value
      if a.flags % 2 = 1 then performWrite wr (s.setDict { d with asm := rest }) a key r v
      else if 65536 < v.length then no (s.setDict { d with asm := rest }) .damaged
      else no (s.setDict { d with asm := rest ++ [⟨p, a.who.session, key, v⟩] }) .ok

/-- A read, once its authority is decided (R658, R661). -/
def serveRead (rd : State → Who → Nat → Nat → ORow → List Byte × State) (s : State) (a : Ask) (auth key : Nat) (r : ORow) : State :=
  let no (s : State) (st : Status) : State := s.reply a.who 1 st 0 r.ty.code a.offset [] 0 false
  if r.acc = .wo ∨ auth < r.ra then no s .denied
  else
    let x := rd s a.who auth key r
    let total := x.1.length
    if total < a.offset ∨ (a.offset ≠ 0 ∧ r.ty.bytes.isSome) then no s .damaged
    else
      let lim := s.pathLimit a.who
      let n := min (if a.length = 0 then lim else a.length) (min (total - a.offset) lim)
      x.2.reply a.who 1 .ok 0 r.ty.code a.offset ((x.1.drop a.offset).take n) total false

/-- The object's part of R658. -/
def serveObj (rd : State → Who → Nat → Nat → ORow → List Byte × State) (wr : State → Owed → ORow → List Byte → WAns × State)
    (s : State) (a : Ask) (auth : Nat) : State :=
  match objRow a.index a.sub with
  | none => s.reply a.who a.op .unsupported 0 0 a.offset [] 0 false
  | some r =>
    if a.op = 1 then serveRead rd s a auth (okey a.index a.sub) r else serveWrite wr s a auth (okey a.index a.sub) r

/-- Whether the recovery server answers a request (R605, R703, R749). -/
def recoveryServes (a : Ask) : Bool :=
  (match a.who.path with | .link _ => false | _ => true)
    && ((a.op == 1 && decide (0x1000 ≤ a.index ∧ a.index ≤ 0x12FF))
      || ((a.op == 1 || a.op == 2) && decide (0xB800 ≤ a.index ∧ a.index ≤ 0xB8FF)))

/-- A frame of the field network is received, or sent (1100.06, 1100.07). -/
def frameRx (s : State) : State := s.bump Obj.t1sFramesRx
def frameTx (s : State) (o : Out) : State := (s.bump Obj.t1sFramesTx).emit o

/-- Whether the device takes requests and frames: in OFF, BACKUP and RESET it does not. -/
def takesFrames (s : State) : Bool := s.dev.state != .off && s.dev.state != .backup && s.dev.state != .reset

/-- Core L takes a request (R655, R658). -/
def serve (rd : State → Who → Nat → Nat → ORow → List Byte × State) (wr : State → Owed → ORow → List Byte → WAns × State)
    (s : State) (a : Ask) : State :=
  let no (s : State) (st : Status) (hint : Nat) : State := s.reply a.who a.op st hint 0 a.offset [] 0 false
  let rom := s.mgmt.power.boot
  let s : State := if a.who.path = .window ∧ a.who.peer ≠ 0 then s else s.bump (Obj.requests (pathNum a.who.path - 1))
  let s : State := if a.who.path = .t1s then s.bump Obj.t1sFramesRx else s
  if !rom && !s.coreRuns 2 then no s .retryLater 100000
  else if a.version ≠ 1 ∨ a.op = 0 ∨ 6 < a.op ∨ 2 ≤ a.flags ∨ a.rsvd ≠ 0 then no s .damaged 0
  else if pathNum a.who.path = 3 ∧ 3 ≤ a.op ∧ a.op ≤ 5 then no s .damaged 0
  else if a.op = 6 then s.reply a.who 6 .ok 0 0 0 s.describeRec 32 false
  else if rom && !recoveryServes a then no s .unsupported 0
  else match s.authOf a with
    | .damaged => no s .damaged 0
    | .denied => s.reply a.who a.op .denied 0 0 a.offset [] 0 true
    | .badTag => (s.bump Obj.tagFailures).reply a.who a.op .denied 0 0 a.offset [] 0 true
    | .again => match s.dsess a.who with
      | some x =>
        let s : State := (s.updSess a.who (fun x => { x with since := s.dev.now })).bump Obj.replaysAnswered
        if x.reply.isEmpty then s else (s.bump Obj.t1sFramesTx).emit (.dictReply 1 a.who.peer x.reply)
      | none => s
    | .ok auth =>
      let s : State := s.updSess a.who (fun x => { taking x a.who.reqId with since := s.dev.now })
      if a.op = 3 then s.openSess a
      else if a.op = 4 then s.proveSess a
      else if a.op = 5 then
        if a.who.session = 0 then no s .denied 0
        else
          let s : State := s.reply a.who 5 .ok 0 0 0 [] 0 false
          s.closeSess (pathNum a.who.path) a.who.session
      else serveObj rd wr s a auth

/-- An in-band request whose message has n units arrives on port p: its units leave the receive buffer at once, and a tag that
the device still holds discards it (R67). -/
def linkAsk (rd : State → Who → Nat → Nat → ORow → List Byte × State) (wr : State → Owed → ORow → List Byte → WAns × State)
    (s : State) (p : Fin 16) (n : Nat) (a : Ask) : State :=
  let s : State := (s.holdUnits p .mgmt n).returnUnits p .mgmt n
  if s.tagHeld p a.who.ltag then (s.bump (Obj.tagReuseDrops p)).raise 0x1041 p else serve rd wr s a

/-- A request arrives on its path: a GO while the window is busy is discarded (R669). -/
def takeAsk (rd : State → Who → Nat → Nat → ORow → List Byte × State) (wr : State → Owed → ORow → List Byte → WAns × State)
    (s : State) (a : Ask) : State :=
  if s.dev.state = .off ∨ s.dev.state = .backup ∨ s.dev.state = .reset then s
  else match a.who.path with
    | .window =>
      if a.who.peer = 0 ∧ s.mgmt.dict.winBusy then s.bump Obj.windowGoDrops else serve rd wr s a
    | .t1s => serve rd wr s a
    | .link p => if s.ports[p].state ≠ .up then s else linkAsk rd wr s p (2 + (a.body.length + 7) / 8) a

end State

end Sys2Proof.Machine
end

