-- ==== Sys2Proof/Machine/TideOps.lean ====
section
/-! DEFINITION. The Tide engine's operations: the dispatch of jobs, copy passes, switches and releases, the sweeper, clones, lent ranges
and far-slot service (chapter 05). -/

namespace Sys2Proof.Machine

/-- The priority of a job kind (R263). -/
def JobKind.prio : JobKind → Nat
  | .evac => 1 | .cow => 1 | .capEbb => 2 | .relay => 3 | .seal => 3 | .lent => 4 | .flood => 5

namespace State

/-! ## Capacity (R146, R221, R222) -/

/-- 3012 `SLOT_PAGES`: the bays of a slot's DIMM; its size is taken at FILLING (R293). -/
def slotPages (s : State) (n : Nat) : Nat :=
  let x := s.slot n
  if x.st = .empty ∨ x.st = .off ∨ x.st = .training then 0 else s.bayCount (8 + n)

/-- Stacks that are not fenced. -/
def liveStacks (s : State) : Nat := ((List.range 8).filter (fun k => !s.unitFenced k)).length

/-- The reservable near capacity (R221). -/
def nearReservable (s : State) : Nat := min (s.num Obj.nearReservableCap) (s.liveStacks * (2 ^ 20 - metaBays))

/-- The reservable far capacity (R222). -/
def farReservable (s : State) : Nat :=
  (((List.range 48).filter (fun n => (s.slot n).st == .inService && !s.unitFenced (8 + n))).map s.slotPages).sum

/-- The sums of the session limits. -/
def nearLimits (s : State) : Nat := (s.ctl.sessions.map (fun e => if e.2.isOpen then e.2.near else 0)).sum
def farLimits (s : State) : Nat := (s.ctl.sessions.map (fun e => if e.2.isOpen then e.2.far else 0)).sum

/-! ## Jobs that wait for room (R266, R273, R278, R287, R290) -/

/-- Whether a copy lies on a far slot, on a slot that is being evacuated, or on a memory die with such a slot. -/
def onSlot (n : Nat) (c : Copy) : Bool := c.tier == 2 && (copyBays c).any (fun b => b / 2 ^ 24 == 8 + n)
def onEvac (s : State) (c : Copy) : Bool :=
  c.tier == 2 && (copyBays c).any (fun b => decide (8 ≤ b / 2 ^ 24) && (s.slot (b / 2 ^ 24 - 8)).st == .evacuating)
def onEvacDie (s : State) (c : Copy) : Bool :=
  c.tier == 2 && (List.range 6).any (fun i => (s.slot (6 * dieOf 2 c.loc + i)).st == .evacuating)

/-- Pages that have a copy on a far slot. -/
def pagesOn (s : State) (n : Nat) : List Nat :=
  (s.tide.map.filter (fun e => e.2.pstate != .unwritten && (onSlot n (s.copyA e.1) || onSlot n (s.copyB e.1)))).map (·.1)

/-- Whether a page's extent is packed (R216): sealing has switched it. -/
def isPacked (s : State) (p : Nat) : Bool :=
  match s.regionAt (p * 65536) with
  | some (_, r) => r.packed.contains p
  | none => false

/-- Whether a MIRRORED page lacks its second copy (R290). -/
def lone (s : State) (p : Nat) : Bool := (s.pageMode p).mirror && s.roleB p == .none && (s.copyA p).tier != 0

/-- Whether a copy of a page on a slot is moved with its bay: it is packed, and no LOWER copy that could be dropped (R287, R288). -/
def baysMoved (s : State) (n p : Nat) : List Nat :=
  if !s.isPacked p || s.roleB p == .lower then []
  else ([s.copyA p, s.copyB p].flatMap (fun c => if c.tier = 2 then copyBays c else [])).filter (fun b => b / 2 ^ 24 == 8 + n)

/-- A whole page that leaves its memory die to make room there (R287): the first without a job on another slot of the die of slot n. -/
def pushed (s : State) (n : Nat) : Option Nat :=
  let on (c : Copy) : Bool := c.tier == 2 && dieOf 2 c.loc == n / 6 && !onSlot n c
  (s.tide.map.find? (fun e => (e.2.pstate == .resident || e.2.pstate == .shared) && !s.isPacked e.1 && (s.jobOf e.1).isNone
    && (on (s.copyA e.1) || (s.roleB e.1 == .mirror && on (s.copyB e.1))))).map (·.1)

/-- Evacuation moves for what lies on a slot that is being evacuated: whole pages, packed bays, and, where the die lacks free bays for
those, whole pages that leave the die (R287, R288). -/
def refillEvac (s : State) : State :=
  let slots := (List.range 48).filter (fun n => (s.slot n).st == .evacuating)
  s.each slots (fun s n =>
    let s : State := s.each (s.pagesOn n) (fun s p =>
      if (s.jobOf p).isSome then s
      else match s.baysMoved n p with
        | [] => s.queueJob .evac p
        | b :: _ => (s.addJob .evac p (fun j => { j with bay := b + 1 })).2)
    let stuck := s.tide.jobs.any (fun j => j.phase == .queued && j.bay != 0 && (j.bay - 1) / 2 ^ 24 == 8 + n)
    if stuck && s.dieFree 2 (n / 6) == 0 && !s.tide.jobs.any (fun j => j.push) then match s.pushed n with
      | some p => (s.addJob .evac p (fun j => { j with push := true })).2
      | none => s
    else s)

/-- Seal switches for the pages that sealing has still to encode (R131). -/
def refillSeal (s : State) : State :=
  s.each (s.ctl.regions.filter (fun e => e.2.st == .sealing && e.2.slot != 0 && (e.2.mode.comp == 1 || e.2.mode.comp == 2))) (fun s e =>
    let lo := e.2.mode.base / 65536
    let hi := lo + e.2.mode.len / 65536
    let todo := s.tide.map.filter (fun x => decide (lo ≤ x.1 ∧ x.1 < hi) && x.2.pstate != .unwritten && !s.pageFaulted x.1
      && !e.2.packed.contains x.1)
    s.each todo (fun s x => if (s.jobOf x.1).isSome then s else s.queueJob .seal x.1))

/-- The sources of jobs that waited while the queue was full queue them: writes through SHARED entries, evacuation, MIRRORED pages that
lack a copy, records without near holds, evictions that need a re-lay, and sealing (R266). -/
def refill (s : State) : State :=
  let s : State := s.each (s.path.reqs.filter (fun r => r.stage == .tide && r.op.isWrite && (s.entry r.page).pstate == .shared))
    (fun s r => if (s.cowOf r.page).isSome then s else s.queueJob .cow r.page)
  let s : State := s.refillEvac
  let s : State := s.each ((s.tide.map.map (·.1)).filter (fun p => s.lone p && (s.jobOf p).isNone && !s.pageFaulted p))
    (fun s p => s.queueJob .evac p)
  let s : State := s.each ((s.tide.shares.filter (fun e => e.2.down)).map (·.1)) queueDown
  let s : State := s.each (((s.path.blocks.filter (fun e => e.2.due == 1)).map (fun e => e.1 / 16)).eraseDups)
    (fun s p => if (s.jobOf p).isSome then s else s.queueJob .relay p)
  s.refillSeal

/-- Whether the last bay of an evacuating slot is free: it becomes EVACUATED with event 0x2011 (R287). -/
def noteEvacuated (s : State) : State :=
  s.each ((List.range 48).filter (fun n => (s.slot n).st == .evacuating && s.usedBays (8 + n) == 0)) (fun s n =>
    (s.setSlot n { s.slot n with st := .evacuated }).raise 0x2011 n)

/-- End a job. -/
def endJob (s : State) (id : Nat) : State :=
  { s with tide := { s.tide with jobs := s.tide.jobs.filter (fun j => j.id != id) } }

/-- The job that is being carried out on a page (PSTATE COPYING or DRAINING). -/
def activeJob (s : State) (p : Nat) : Option Job := s.tide.jobs.find? (fun j => j.phase != .queued && j.page == p)

/-- PSTATE of what a job moves; a FAULTED page stays so, and a copy-on-write job's state stands in the job. -/
def setJobState (s : State) (j : Job) (st : PState) : State :=
  if j.kind = .cow ∧ (s.entry j.page).pstate = .shared then s
  else s.each (s.jobPages j) (fun s p => if (s.entry p).pstate = .faulted then s else s.setPState p st)

/-- A job ends without its switch: its destination is released and its pages are RESIDENT again (Table 05-4, R246), or FAULTED. -/
def cancelJob (s : State) (j : Job) : State :=
  let ps := s.jobPages j
  let s : State := s.endJob j.id
  if j.phase = .queued then s
  else
    let s : State := s.setJobState j .resident
    ((s.releaseCopy j.dstA).releaseCopy j.dstB).each ps wakePage

/-! ## The directory scan (R236, R335, R336) -/

/-- The snoop that a migration sends for an EXCLUSIVE line (R236–R238). -/
def jobSnoop (s : State) (p l : Nat) : State :=
  let e := s.line l
  if e.st ≠ .exclusive then s
  else if s.num Obj.ownedLineMode = 0 then s.openTxn l (.job p) .read e
  else s.openTxn l (.job p) .recall (emptied e)

/-- The scan at a job's dispatch: EXCLUSIVE lines are snooped, BUSY lines are scanned again later (R336). -/
def jobScan (s : State) (j : Job) : State :=
  s.each (s.jobPages j) (fun s p => (s.censusScan p (s.num Obj.migrationClass)).each (s.heldLines p (p + 1)) (fun s l =>
    if (s.txn l).isSome then s.updJob j.id (fun q => { q with rescan := q.rescan ++ [l] }) else s.jobSnoop p l))

/-! ## Dispatch (R236, R254, R263) -/

/-- Whether an evacuation job moves copy B of its page: copy B alone lies where pages must leave, or a lost mirror copy is made anew (R244,
R287, R290). -/
def movesB (s : State) (j : Job) : Bool :=
  let off (c : Copy) : Bool := if j.push then s.onEvacDie c else s.onEvac c
  j.kind == .evac && j.bay == 0 && (s.lone j.page || (!off (s.copyA j.page) && off (s.copyB j.page)))

/-- A free bay on a unit. -/
def bayOn (s : State) (page : Nat) (u : Option Nat) : Option (Copy × State) :=
  match u with
  | none => none
  | some u => (s.freeBay u).map (fun b => (⟨unitTier u, bayLoc u b, 0, 1024, false, 0⟩, s.takeBay u b page))

/-- The slot of a memory die that an evacuation moves a bay to: the one with the most free bays (R254, R287). -/
def dieSlot (s : State) (die : Nat) : Option Nat := argMax s.freeBays ((List.range 6).map (fun i => 8 + 6 * die + i))

/-- The destination of an evacuation move of a page: on another slot of the same memory die, else on another die, never the die of the
page's other copy (R244, R287, R290). A kept copy whose VDELTA is 15 already is laid out anew with the other (DESIGN CHOICE, log 142). -/
def evacDest (s : State) (j : Job) (m : Mode) : Option (Copy × Copy × State) :=
  let p := j.page
  let src := if j.moveB then s.copyB p else s.copyA p
  let other := if j.moveB then s.copyA p else if s.roleB p = .mirror then s.copyB p else Copy.none
  let tier := (s.copyA p).tier
  let not := if other.tier = 0 then [] else [dieOf other.tier other.loc]
  let put (x : Copy × State) : Copy × Copy × State := if j.moveB then (Copy.none, x.1, x.2) else (x.1, Copy.none, x.2)
  if other.tier ≠ 0 ∧ other.vdelta = 15 then
    (if s.isPacked p then s.packCopies m.region tier p (s.copyA p).len true else s.allocCopies tier p true)
  else if s.isPacked p then (match s.packUnit m.region tier not with
    | none => none
    | some u => (s.packIn m.region u p (s.copyA p).len).map put)
  else if src.tier = 0 then (s.bayOn p (s.pickUnit tier not)).map put
  else
    let die := dieOf src.tier src.loc
    let near := if j.push then none else s.dieSlot die
    (s.bayOn p (match near with | some u => some u | none => s.pickUnit tier (die :: not))).map put

/-- The tier of a job's destination. -/
def jobTier (s : State) (j : Job) (m : Mode) : Nat :=
  match j.kind with
  | .flood => 1
  | .capEbb => 2
  | .lent => 3
  | .cow => s.placeTier m
  | _ => (s.copyA j.page).tier

/-- The granules that a job's destination is given: those of an extent copied unchanged, or what coding the page would give now (DESIGN
CHOICE, log 32). -/
def destLen (s : State) (j : Job) (m : Mode) : Nat :=
  match s.jobForm j m with
  | .same => (s.jobSource j).len
  | .raw => 1024
  | .coded slack => s.codedLen m j.page slack

/-- Whether a job's destination is packed (R216, R217). -/
def destPacked (s : State) (j : Job) : Bool := j.kind == .seal || (s.isPacked j.page && j.kind != .cow)

/-- The destination bays of a job, or none while they cannot be had; an unpinned page leaves the pinned reservation free (R224). -/
def jobDest (s : State) (j : Job) (m : Mode) : Option (Copy × Copy × State) :=
  let p := j.page
  let tier := s.jobTier j m
  let got : Option (Copy × Copy × State) :=
    if j.bay ≠ 0 then (s.bayOn p (s.dieSlot (((j.bay - 1) / 2 ^ 24 - 8) / 6))).map (fun x => (x.1, Copy.none, x.2))
    else match j.kind with
      | .evac => s.evacDest j m
      | .lent => (s.bayOn p (((List.range 64).map (56 + ·)).find? (fun u => decide (0 < s.freeBays u)))).map (fun x => (x.1, Copy.none, x.2))
      | _ => if s.destPacked j then s.packCopies m.region tier p (s.destLen j m) m.mirror else s.allocCopies tier p m.mirror
  match got with
  | none => none
  | some (a, b, t) => if m.tier = 1 ∨ s.nearBays ≤ t.nearBays + s.nearFree then some (a, b, t) else none

/-- A destination with the form that is known at the dispatch: that of the source where the extent is copied unchanged. -/
def shaped (s : State) (j : Job) (m : Mode) (c : Copy) : Copy :=
  if c.tier = 0 ∨ j.bay ≠ 0 ∨ s.jobForm j m ≠ .same then c else { c with comp := (s.jobSource j).comp, len := (s.jobSource j).len }

/-- What the dispatch of a job comes to. -/
inductive Sent where
  | no
  | done (s : State)
  deriving DecidableEq, Repr

/-- A sharer's hold ends by its ebb, or begins by its flood, without a copy pass (R277). -/
def addHold (s : State) (i : Nat) (ps : List Nat) : State :=
  let x := s.share i
  s.setShare i { x with near := x.near ++ ps.filter (fun p => !x.near.contains p) }

/-- A job whose effect needs no copy pass, or that has none left: it ends at its dispatch (R251, R277, R288). A lent placement that finds
no bay in an ACTIVE range is discarded (R261; DESIGN CHOICE, log 31). -/
def quickJob (s : State) (j : Job) (m : Mode) : Option State :=
  let p := j.page
  let e := s.entry p
  let a := s.copyA p
  let b := s.copyB p
  let end_ (s : State) : State := s.endJob j.id
  let shared := e.pstate == .shared
  if j.bay ≠ 0 then
    (if (s.jobPages j).isEmpty || (s.slot ((j.bay - 1) / 2 ^ 24 - 8)).st != .evacuating then some (end_ s) else none)
  else if e.pstate = .unwritten ∨ e.pstate = .faulted then some (end_ s)
  else match j.kind with
    | .flood =>
      if a.tier = 1 then
        (if shared ∧ !(s.share e.share).near.contains p then some (((end_ s).addHold e.share (p :: j.also)).bump Obj.floods) else some (end_ s))
      else none
    | .capEbb =>
      if m.tier = 1 ∨ a.tier ≠ 1 then some (end_ s)
      else if shared ∧ ((s.holders e.share).filter (· != p)) ≠ [] then some (((end_ s).dropNear e.share p).bump Obj.ebbs)
      else if s.roleB p = .lower ∧ !s.copyFenced b then
        let s : State := if shared then s.setShare e.share { s.share e.share with near := [], down := false } else s
        let s : State := (end_ (s.toLower p)).bump Obj.ebbs
        let s : State := s.setEntry p { s.entry p with flooded := false }
        some ((s.happen 0x2002 none 0 true 1).trace 7 17 0 (some (p * 65536)) 0 0 (s.ownNode * 2 ^ 46 + p * 65536) 0)
      else none
    | .cow => if shared then none else some (end_ s)
    | .relay => if a.comp then none else some (end_ s)
    | .seal => if s.isPacked p then some (end_ s) else none
    | .lent =>
      if a.tier ≠ 2 ∨ s.roleB p ≠ .none then some (end_ s)
      else if a.vdelta = 15 ∨ !(List.range 64).any (fun r => decide (0 < s.freeBays (56 + r))) then some (end_ s).dropHint
      else none
    | .evac =>
      if j.push then (if s.onEvacDie a || (s.roleB p == .mirror && s.onEvacDie b) then none else some (end_ s))
      else if s.onEvac b ∧ s.roleB p = .lower then some (((end_ s).setCopies p a Copy.none .none).leave p b)
      else if s.onEvac a ∧ s.roleB p = .lower then some (end_ (s.toLower p))
      else if s.lone p then none
      else if s.isPacked p || !(s.onEvac a || s.onEvac b) then some (end_ s)
      else none

/-- Dispatch a job: destination bays, PSTATE COPYING, and the scan of the page's lines (R236). A copy-on-write and a job on its share
record exclude each other. -/
def sendJob (s : State) (j0 : Job) : Sent :=
  let p := j0.page
  let ps := s.jobPages j0
  let m := s.pageMode p
  let filling (c : Copy) : Bool := j0.bay != 0 && (copyBays c).contains (j0.bay - 1)
  let clash := s.tide.jobs.any (fun k => k.phase != .queued
    && (((k.kind != .cow || j0.kind != .cow) && ps.any (fun q => Job.moves s q k)) || filling k.dstA || filling k.dstB))
  if clash then .no
  else
    let s : State := s.each ps checkEntry
    if ps.any (fun q => (s.entry q).bad) then .done (((s.endJob j0.id).raiseSafety 0x2030 p [3]).each ps wakePage)
    else
      let s : State := s.each ps decideFence
      let j : Job := { j0 with moveB := s.movesB j0, ver := s.nextVer j0 }
      match s.quickJob j m with
      | some s => .done (s.each ps wakePage)
      | none => match s.jobDest j m with
        | none => .no
        | some (a, b, s) =>
          let s : State := if j.kind = .cow then s else s.setJobState j .copying
          let j1 : Job := { j with phase := .copying, dstA := a, dstB := b, started := s.dev.now, todo := List.range 16, first := true }
          let j2 : Job := { j1 with dstA := s.shaped j1 m a, dstB := s.shaped j1 m b }
          .done ((s.updJob j.id (fun _ => j2)).jobScan j2)

/-- Queued jobs in the order of R263. -/
def jobOrder (s : State) : List Job :=
  let q := s.tide.jobs.filter (fun j => j.phase == .queued)
  (List.range 6).flatMap (fun k => q.filter (fun j => j.kind.prio == k))

/-- JOB_DISPATCH: the first job that can be dispatched, in order of priority. -/
def dispatchJob (s : State) : State :=
  let s : State := s.refill
  match s.jobOrder.findSome? (fun j => match s.sendJob j with | .no => none | .done s => some s) with
  | some s => s.noteEvacuated.freeSlots
  | none => s.noteEvacuated

/-! ## Passes (R239, R240, R339) -/

/-- The blocks that the next pass copies: the dirty ones, or a whole bay. -/
def redo (j : Job) : List Nat := if j.bay ≠ 0 ∧ j.dirty ≠ [] then List.range 16 else j.dirty

/-- Whether what a job has coded fits its destination: a whole bay, or the granules of a packed one, which at the end of COPYING must be
filled exactly (DESIGN CHOICE, log 32). -/
def fitsDest (s : State) (j : Job) (len : Nat) (exact : Bool) : Bool :=
  let c := if j.dstA.tier = 0 then j.dstB else j.dstA
  if s.destPacked j then (if exact then len == c.len else decide (len ≤ c.len)) else true

/-- Lay out what a job has coded: the state with the form and length of its destinations, or none where it does not fit (R239, R248). -/
def layOut (s : State) (j : Job) (exact : Bool) : Option State :=
  match s.jobForm j (s.pageMode j.page) with
  | .coded slack =>
    let len := if fitsComp j.blks then (layExtent slack j.blks).length else 1024
    if !s.fitsDest j len exact then none
    else
      let x := s.layJob j slack
      let form (c : Copy) : Copy := if c.tier = 0 then c else { c with comp := x.1, len := x.2.1 }
      some (x.2.2.updJob j.id (fun q => { q with dstA := form q.dstA, dstB := form q.dstB }))
  | _ => some s

/-- Whether a job has lost its source or its destination to a fence (R520). -/
def jobLost (s : State) (j : Job) : Bool :=
  (s.jobPages j).any (fun p => (s.entry p).pstate == .faulted) || s.copyFenced j.dstA || s.copyFenced j.dstB

/-- COPY_PASS_END. A pass ends when its blocks are copied, the last one once every snoop of the job is answered (R339); a job whose page
became FAULTED, or whose destination a fence has reached, ends (R232; DESIGN CHOICE, log 143). -/
def passEnd (s : State) (j : Job) : State :=
  let ps := s.jobPages j
  let waits := s.dir.txns.any (fun e => ps.any (fun p => e.2.who == .job p)) || !j.rescan.isEmpty
  let n := j.passes + 1
  let again := decide (s.num Obj.migDirtyMax < j.dirty.length ∧ n < s.num Obj.migPasses)
  if j.phase ≠ .copying || !j.todo.isEmpty || (!again && waits) then s
  else
    let s : State := s.each ps decideFence
    if s.jobLost j then (s.cancelJob j).refill
    else match s.layOut j (!again) with
      | none => (s.cancelJob j).refill
      | some s =>
        let s : State := if 2 ≤ n then s.bump Obj.extraPasses else s
        let s : State := s.updJob j.id (fun q => { q with passes := n, todo := redo j, dirty := [], first := false })
        if again then s
        else (s.updJob j.id (fun q => { q with phase := .draining, started := s.dev.now })).setJobState j .draining

/-! ## The switch (R242, R229, R244, R248–R250) -/

/-- A copy that is kept in place while VERSION rises (R229). -/
def kept (c : Copy) : Copy := if c.tier = 0 then c else { c with vdelta := c.vdelta + 1 }

/-- Near holds after a job through a sharer's entry, and a further job if the count has changed the wanted tier (R276–R279). -/
def noteHolds (s : State) (j : Job) : State :=
  let e := s.entry j.page
  if e.pstate ≠ .shared then s
  else
    let i := e.share
    let s : State := match j.kind with
      | .flood => s.addHold i (j.page :: j.also)
      | .capEbb => s.setShare i { s.share i with near := (s.share i).near.filter (· != j.page), down := false }
      | _ => s
    let s : State := if j.kind = .capEbb then s.each j.also (fun s q => s.queueJob .flood q) else s
    let up := s.holders i
    let x := s.share i
    if up.isEmpty then (if j.held && x.a.tier == 1 then (s.setShare i { x with down := true }).queueDown i else s)
    else if (!j.held || j.kind == .capEbb) && x.a.tier != 1 then s.queueJob .flood ((up.find? (fun q => (s.pageMode q).tier == 1)).getD (up.headD 0))
    else s

/-- The counters of a job that ended (3003, 5000.08). -/
def countJob (s : State) (k : JobKind) : State :=
  match k with
  | .flood => (s.bump Obj.floods).happen 0x2001 none 0 true 1
  | .capEbb => (s.bump Obj.ebbs).happen 0x2002 none 0 true 1
  | .relay => s.bump Obj.relays
  | .cow => s.bump Obj.cowCopies
  | _ => s

/-- A page takes both destinations of a job, and leaves both its copies. -/
def takeBoth (s : State) (p : Nat) (dA dB : Copy) (v : BitVec 32) : State :=
  ((s.leaveBoth p).setVersion p v).setCopies p dA dB (if dB.tier = 0 then .none else .mirror)

/-- Whether the landing cache holds a block of a page that is newer than its stored form. -/
def newerBlock (s : State) (p : Nat) : Bool := s.path.blocks.any (fun e => e.1 / 16 == p && e.2.dirty)

/-- Every location that names a moved bay names the new one (R287), with the index store's places; the old bay waits for its pins. -/
def moveBay (s : State) (j : Job) : State :=
  let lo := bayLoc ((j.bay - 1) / 2 ^ 24) ((j.bay - 1) % 2 ^ 24)
  let new := j.dstA.loc
  let at_ (loc : Nat) : Nat := if loc / 1024 = lo / 1024 then new + loc % 1024 else loc
  let re (c : Copy) : Copy := if c.tier = 2 then { c with loc := at_ c.loc, cont := at_ (c.cont * 1024) / 1024 } else c
  let key (k : Nat) : Nat := if keyTier k = 2 then gkey 2 (at_ (keyLoc k)) else k
  let unit := unitOf 2 new
  let tails (t : FMap Nat) : FMap Nat := match t.find? (fun e => unitOf 2 e.2 == unitOf 2 lo && bayOf e.2 == bayOf lo) with
    | some e => (fun (u : FMap Nat) => if u.any (fun x => x.1 == unit) then u else FMap.put u unit (at_ e.2)) (t.filter (fun x => x != e))
    | none => t
  { s with
    tide := { s.tide with
      map := s.tide.map.map (fun e => (e.1, { e.2 with a := re e.2.a, b := re e.2.b }))
      shares := s.tide.shares.map (fun e => (e.1, { e.2 with a := re e.2.a, b := re e.2.b }))
      idxStore := s.tide.idxStore.foldl (fun m e => FMap.put m (key e.1) e.2) []
      leaving := s.tide.leaving ++ [⟨j.page, ⟨2, lo, 0, 1024, false, 0⟩, false⟩] }
    ctl := { s.ctl with regions := s.ctl.regions.map (fun e => (e.1, { e.2 with tails := tails e.2.tails })) } }

/-- The entry takes the destination; what is not kept waits for its pins (R229, R242–R244, R250, R262, R273). A flood that decodes blocks
which the landing cache holds newer keeps no LOWER copy, since the stored one is stale (DESIGN CHOICE, log 144). -/
def installJob (s : State) (j : Job) (m : Mode) : State :=
  let p := j.page
  let a := s.copyA p
  let b := s.copyB p
  let role := s.roleB p
  let dA := j.dstA
  let dB := j.dstB
  if j.bay ≠ 0 then s.moveBay j
  else
    let s : State := if j.ver = 0 then s.bump Obj.versionWraps else s
    match j.kind with
    | .cow =>
      let e := s.entry p
      let s : State := if e.pstate = .shared then s.dropShare p else s.leaveBoth p
      s.setEntry p { e with a := dA, b := dB, role := if dB.tier = 0 then .none else .mirror, version := j.ver, pstate := .resident
                            share := 0, under := 0, flooded := false }
    | .lent =>
      let s : State := (s.setVersion p j.ver).setCopies p dA (kept a) .lower
      if (s.lent (dA.loc / 2 ^ 32)).active then s else s.toLower p
    | .evac =>
      if dA.tier ≠ 0 ∧ dB.tier ≠ 0 then s.takeBoth p dA dB j.ver
      else if j.moveB then ((s.setVersion p j.ver).setCopies p (kept a) dB (if m.mirror then .mirror else role)).leave p b (role == .mirror)
      else ((s.setVersion p j.ver).setCopies p dA (if role = .mirror then kept b else b) role).leave p a
    | .flood =>
      let lower := if a.tier = 3 then b else a
      let stale := s.jobForm j m == .raw && s.newerBlock p
      let s : State :=
        if m.mirror ∨ lower.vdelta = 15 ∨ stale then s.takeBoth p dA dB j.ver
        else ((if a.tier = 3 then s.leave p a else s).setVersion p j.ver).setCopies p dA (kept lower) .lower
      s.setEntry p { s.entry p with flooded := true }
    | .seal => (s.takeBoth p dA dB j.ver).markPacked m.region p
    | .capEbb =>
      let s : State := s.takeBoth p dA dB j.ver
      s.setEntry p { s.entry p with flooded := false }
    | .relay => s.takeBoth p dA dB j.ver

/-- What the landing cache holds of a page after a switch: a coded or decoded extent contains it; of a re-lay that stays compressed, the
blocks that it took in leave once the extent's writes are accepted (R37, R201). -/
def settleBlocks (s : State) (j : Job) (m : Mode) : State :=
  match s.jobForm j m with
  | .same => s
  | _ =>
    if j.kind = .relay ∧ j.dstA.comp then
      { s with path := { s.path with blocks := s.path.blocks.map (fun e =>
        if e.1 / 16 = j.page ∧ e.2.due = 1 then (e.1, { e.2 with st := .evicting, dirty := false, due := 0 }) else e) } }
    else s.dropBlocks j.page

/-- MIGRATION_SWITCH: once no request is pinned to the source and the last blocks are copied, the entry takes the destination (R241,
R242). A job that has lost its source or destination, or whose content has outgrown a packed place, ends without it (DESIGN CHOICE, log
143). -/
def switchJob (s : State) (j : Job) : State :=
  let ps := s.jobPages j
  let p := j.page
  if j.phase ≠ .draining || !j.todo.isEmpty || ps.any s.pinned then s
  else if !j.dirty.isEmpty then s.updJob j.id (fun q => { q with todo := redo j, dirty := [] })
  else
    let s : State := s.each ps decideFence
    if s.jobLost j then (s.cancelJob j).refill
    else match (if j.blks.any (·.fresh) then s.layOut j false else some s) with
      | none => (s.cancelJob j).refill
      | some s =>
        let m := s.pageMode p
        let j : Job := (s.tide.jobs.find? (fun q => q.id == j.id)).getD j
        let hold := (s.dev.now - j.started) / 2
        let s : State := ((s.installJob j m).settleBlocks j m).endJob j.id
        let s : State := s.setJobState { j with bay := 0 } .resident
        let s : State := if j.bay = 0 then s else s.each ps (fun s q => s.setPState q .resident)
        let s : State := (((s.noteHolds j).countJob j.kind).atLeast Obj.drainHoldMax hold).noteNear
        let s : State := s.trace 7 17 0 (some (p * 65536)) 0 0 (s.ownNode * 2 ^ 46 + p * 65536) hold
        (s.each ps wakePage).refill.noteEvacuated.freeSlots

/-! ## Source release (R243) -/

/-- Whether a request still uses granules of a copy. -/
def usesCopy (s : State) (c : Copy) : Bool :=
  let ks := c.keys
  s.path.reqs.any (fun r => r.need.any ks.contains) || s.tide.lentRds.any (fun x => x.keys.any ks.contains)
    || s.dram.chans.any (fun e => (e.2.wait ++ e.2.rq ++ e.2.flight).any (fun a => a.owner.isSome && (Acc.allKeys a).any ks.contains))

/-- Free copies that were left behind. -/
def freeLeft (s : State) (go : List Left) : State :=
  if go.isEmpty then s
  else
    let s : State := { s with tide := { s.tide with leaving := s.tide.leaving.filter (fun e => !go.contains e) } }
    (s.each go (fun s e => s.releaseCopy e.copy)).noteEvacuated.freeSlots

/-- SOURCE_RELEASE: the copies that a page has left behind and no request uses are freed. -/
def releaseSources (s : State) (p : Nat) : State :=
  s.freeLeft (s.tide.leaving.filter (fun e => e.page == p && !s.usesCopy e.copy))

/-! ## The sweeper (R257–R260) -/

/-- Near bays in use, in bay order, as unit × 2^24 + bay. -/
def nearUsed (s : State) : List Nat := (s.tide.bays.filter (fun e => decide (e.1 / 2 ^ 24 < 8))).map (·.1)

/-- Pages whose copy A lies in a near bay. -/
def pagesIn (s : State) (bay : Nat) : List Nat :=
  (s.tide.map.filter (fun e => e.2.pstate != .unwritten && (copyBays (s.copyA e.1)).headD 0 == bay && (s.copyA e.1).tier == 1)).map (·.1)

/-- The tier policies that the sweeper takes at each round: PREFER_FAR, then AUTO as well, then PREFER_NEAR as well (R258; a round is
a full sweep that leaves the ebbing on; DESIGN CHOICE, log 34). -/
def sweepTakes (round tier : Nat) : Bool := tier == 4 || (tier == 0 && decide (1 ≤ round)) || (tier == 3 && decide (2 ≤ round))

/-- Visit one page: its entry is checked, ACC decays, and it may become a capacity ebb. -/
def visitPage (s : State) (p : Nat) : State :=
  let s : State := s.checkEntry p
  let e := s.entry p
  if e.bad then s.raiseSafety 0x2030 p [3]
  else if s.pageFaulted p then s.decideFence p
  else
    let m := s.pageMode p
    let acc := s.decayed e
    let s : State := s.setEntry p { e with acc := acc, epoch := s.epochNow % 256 }
    let fit := e.pstate == .resident || e.pstate == .shared
    if s.tide.ebbing && fit && sweepTakes s.tide.fewCands m.tier && m.len != 0 && decide (acc ≤ s.num Obj.ebbThreshold) then s.queueJob .capEbb p
    else s

/-- SWEEPER_VISIT: the next near bay in use; while the job queue is full the ebbs' source waits (R266). -/
def sweep (s : State) : State :=
  let s : State := s.noteEbbing
  let bays := s.nearUsed
  if s.tide.ebbing ∧ 4096 ≤ s.queuedJobs then s
  else match bays.find? (fun b => decide (s.tide.sweepAt ≤ b)) with
    | some b => s.each (s.pagesIn b) visitPage |> fun s => { s with tide := { s.tide with sweepAt := b + 1 } }
    | none =>
      let round := if s.tide.ebbing then min 2 (s.tide.fewCands + 1) else 0
      let s : State := { s with tide := { s.tide with fewCands := round } }
      match bays with
      | b :: _ => s.each (s.pagesIn b) visitPage |> fun s => { s with tide := { s.tide with sweepAt := b + 1 } }
      | [] => { s with tide := { s.tide with sweepAt := 0 } }

/-- MIG_OVERLOAD_MS (R267). -/
def overloadMs (s : State) : State :=
  let run := if s.tide.dropped then s.tide.ovlRun + 1 else 0
  ({ s with tide := { s.tide with ovlRun := run, dropped := false } }).evalNotice 0x3004 run false 0x2001

/-! ## Clones (R268–R272) -/

/-- Free share records (3002.07). -/
def sharesFree (s : State) : Nat := 65536 - s.tide.shares.length

/-- The region that holds a whole range of pages. -/
def rangeRegion (s : State) (off pages : Nat) : Option Region :=
  match s.regionAt off with
  | some (_, r) => if off + pages * 65536 ≤ r.mode.base + r.mode.len then some r else none
  | none => none

/-- SNP_INV for every tracked copy of a page's lines (R271, R341). -/
def invPage (s : State) (p : Nat) (who : TxnFor) : State :=
  let s : State := s.censusScan p (s.lineMode (p * 512)).cls
  s.each (s.heldLines p (p + 1)) (fun s l =>
    let e := s.line l
    if (s.txn l).isSome ∨ (e.st ≠ .exclusive ∧ e.st ≠ .shared) then s else s.openTxn l who .inv (emptied e))

/-- Whether a clone's ranges are legal (R269). -/
def cloneOk (s : State) : Bool :=
  let a := s.num Obj.cloneSrcOffset
  let b := s.num Obj.cloneDstOffset
  let n := s.num Obj.clonePages
  a % 65536 == 0 && b % 65536 == 0 && (decide (a + n * 65536 ≤ b) || decide (b + n * 65536 ≤ a))
    && (match s.rangeRegion a n, s.rangeRegion b n with
      | some x, some y => (x.st == .open || x.st == .sealed) && y.st == .open && x.mode.format == y.mode.format
          && x.mode.comp == y.mode.comp && x.mode.realm == y.mode.realm && x.mode.mirror == y.mode.mirror
      | _, _ => false)

/-- Share records that a clone needs: one for each source page that is stored and not yet shared (R270). -/
def cloneNeeds (s : State) : Nat :=
  let lo := s.num Obj.cloneSrcOffset / 65536
  let hi := lo + s.num Obj.clonePages
  (s.tide.map.filter (fun e => decide (lo ≤ e.1 ∧ e.1 < hi) && e.2.pstate != .unwritten && e.2.pstate != .shared && e.2.pstate != .faulted)).length

/-- START on CLONE_ACTION (R268–R270). A start while a clone runs completes with RETRY_LATER (DESIGN CHOICE, log 33). -/
def cloneStart (s : State) (w : Who) : WAns × State :=
  let fail (st : Status) : WAns × State := (.now st 0, s.setNum Obj.cloneStatus st.code)
  if s.tide.clone.isSome then (.now .retryLater 1000, s)
  else if !s.cloneOk then fail .modeConflict
  else if s.sharesFree < s.cloneNeeds then fail .capacity
  else
    let src := s.num Obj.cloneSrcOffset / 65536
    let dst := s.num Obj.cloneDstOffset / 65536
    let s : State := s.setNum Obj.cloneDone 0
    (.later, ({ s with tide := { s.tide with clone := some ⟨src, dst, s.num Obj.clonePages, w⟩ } }).invPage dst .clone)

/-- What a page held is released: its copies, or its reference to a share record (Table 05-4); VERSION stays, so that no tweak is used
twice (R204). -/
def emptyPage (s : State) (p : Nat) : State :=
  let e := s.entry p
  let s : State := s.dropBlocks p
  if e.pstate = .shared then s.dropShare p else (s.leaveBoth p).setEntry p { TEntry.unwritten with version := e.version }

/-- A record whose count of near holds has risen from 0 is wanted near (R277). -/
def noteRise (s : State) (i : Nat) (before : List Nat) : State :=
  match s.holders i with
  | q :: _ => if before.isEmpty ∧ (s.share i).a.tier ≠ 1 then s.queueJob .flood q else s
  | [] => s

/-- Both entries of a clone's page point to one share record (R271, R272, R276). A source that stores nothing leaves the target
UNWRITTEN, and one that is FAULTED or whose entry fails its check leaves it FAULTED (DESIGN CHOICE, log 33). -/
def shareInto (s : State) (src dst : Nat) : State :=
  let s : State := (s.checkEntry src).decideFence src
  let s : State := if (s.entry src).bad then s.raiseSafety 0x2030 src [3] else s
  let s : State := s.emptyPage dst
  let e := s.entry src
  if e.bad then s.faultPage dst
  else match e.pstate with
    | .unwritten => s
    | .faulted => s.faultPage dst
    | .shared =>
      let before := s.holders e.share
      let x := s.share e.share
      ((s.setShare e.share { x with refs := x.refs + 1 }).setEntry dst { s.entry dst with pstate := .shared, share := e.share }).noteRise
        e.share before
    | _ =>
      let i := ((List.range 65536).find? (fun i => !s.tide.shares.any (fun x => x.1 == i))).getD 0
      let held := if e.flooded ∧ e.a.tier = 1 then [src] else []
      let before := if held.isEmpty ∧ (s.pageMode src).tier ≠ 1 then [] else [src]
      let x : Share := ⟨e.a, e.b, e.role, e.version, 2, held, if e.under = 0 then src else e.under - 1, .resident, false⟩
      let s : State := (s.setShare i x).setEntry src
        { e with a := Copy.none, b := Copy.none, role := .none, pstate := .shared, share := i, under := 0 }
      let s : State := s.setEntry dst { s.entry dst with pstate := .shared, share := i }
      ({ s with tide := { s.tide with cloned := (src, s.dev.now + 1) } }).noteRise i before

/-- Whether the clone step that is due can install: the source has drained, the target's lines are invalidated, no job runs on either
page, and the source's landing cache blocks are written. -/
def cloneReady (s : State) (c : Clone) : Bool :=
  let on (p : Nat) : Bool := p == c.src || p == c.dst
  let st := (s.entry c.src).pstate
  !s.path.reqs.any (fun r => (r.stage == .mem || r.stage == .h8 || r.stage == .h7) && on r.page && r.mode.isSome)
    && !s.path.reqs.any (fun r => r.stage == .tide && r.page == c.src && r.op.isWrite && (st == .unwritten || st == .shared))
    && !s.dir.txns.any (fun e => e.2.who == .clone)
    && !(s.heldLines c.dst (c.dst + 1)).any (fun l => (s.line l).st == .exclusive || (s.line l).st == .shared)
    && !s.tide.jobs.any (fun j => j.phase != .queued && (s.jobPages j).any on) && (s.cowOf c.src).isNone
    && !s.tide.placing.any on
    && !s.path.blocks.any (fun e => (e.1 / 16 == c.src && e.2.dirty) || (on (e.1 / 16) && e.2.st == .installing))
    && !s.path.store.any (fun e => (e.1 / 512 == c.src && !s.storeIdle e.1 e.2 && !e.2.leaving) || (e.1 / 512 == c.dst && e.2.filling))

/-- What the target held that waits in the line store or at step 6 for its home is superseded (R271, R341; DEDUCED, log 12). -/
def dropTarget (s : State) (p : Nat) : State :=
  let s : State := { s with path := { s.path with reqs := s.path.reqs.filter (fun r => !(r.via == .internal && r.page == p && r.stage == .tide)) } }
  let s : State := s.each ((s.path.store.map (·.1)).filter (fun l => l / 512 == p)) leaveHome
  s.each (s.path.reqs.filter (fun r => r.page == p && r.stage == .tide && (match r.op with | .writeback _ => true | _ => false)))
    (fun s r => s.finishPlain r .ok)

/-- The requests that a clone step held go on: the source's writes first, which are in the clone (R271); a read of the target that was
granted its line before the step's invalidations looks it up again. -/
def wakeClone (s : State) (c : Clone) : State :=
  let s : State := s.wakeAll 6 (fun r => r.stage == .tide && r.page == c.src && r.op.isWrite)
  let s : State := s.wakeAll 6 (fun r => r.stage == .tide && ((r.page == c.src && !r.op.isWrite) || (r.page == c.dst && r.grant == 0)))
  s.wakeAll 5 (fun r => r.page == c.dst && ((r.stage == .tide && r.grant != 0) || r.stage == .line))

/-- CLONE_PAGE_INSTALL: one page, or the end of the clone with event 0x2040. A step that is not ready invalidates what the target's lines
have come to record meanwhile; at its installation the source's lines in the line store begin their writeback, which is in the clone. -/
def clonePage (s : State) : State :=
  match s.tide.clone with
  | none => s
  | some c =>
    if c.left ≠ 0 ∧ !s.cloneReady c then s.invPage c.dst .clone
    else
      let s : State := if c.left = 0 then s
        else (((s.dropTarget c.dst).shareInto c.src c.dst).bump Obj.cloneDone).noteNear.each
          (s.path.store.filter (fun e => e.1 / 512 == c.src && !e.2.leaving)) (fun s e => s.evictStore e.1 e.2 (s.path.gseq + 1) none)
      if c.left ≤ 1 then
        let s : State := ({ s with tide := { s.tide with clone := none } }).setNum Obj.cloneStatus 0
        ((s.wakeClone c).raise 0x2040).replyOwed ⟨c.who, Obj.cloneAction⟩ .ok
      else
        let s : State := { s with tide := { s.tide with clone := some ⟨c.src + 1, c.dst + 1, c.left - 1, c.who⟩ } }
        (s.wakeClone c).invPage (c.dst + 1) .clone

/-! ## Lent ranges (R280–R284) -/

/-- REGISTER (R280). -/
def lentRegister (s : State) (r : Nat) : WAns × State :=
  let len := s.num (Obj.lentLength r)
  let base := s.num (Obj.lentBusBase r)
  let x := s.lent r
  let fin (st : Status) (s : State) : WAns × State := (.now st 0, s.setNum (Obj.lentStatus r) st.code)
  if x ≠ LentRange.free then fin .modeConflict s
  else if len = 0 ∨ 2 ^ 38 < len ∨ len % 65536 ≠ 0 ∨ base % 65536 ≠ 0 then fin .unsupported s
  else fin .ok ((s.setLent r ⟨true, false, false, base, len, 0, none⟩).raise 0x2020 r)

/-- Pages whose copy A lies in a lent range. -/
def lentPagesOf (s : State) (r : Nat) : List Nat :=
  (s.tide.map.filter (fun e => e.2.pstate != .unwritten && (s.copyA e.1).tier == 3 && (s.copyA e.1).loc / 2 ^ 32 == r)).map (·.1)

/-- Every page of a lent range switches to its far copy; jobs that fill the range are cancelled (R283, R284). -/
def leaveLent (s : State) (r : Nat) : State :=
  let js := s.tide.jobs.filter (fun j => j.kind == .lent && j.dstA.tier == 3 && j.dstA.loc / 2 ^ 32 == r && j.phase == .copying)
  let s : State := s.each js cancelJob
  s.each (s.lentPagesOf r) toLower

/-- WITHDRAW (R284): the reply follows when no lent read is outstanding. -/
def lentWithdraw (s : State) (r : Nat) (w : Who) : WAns × State :=
  let x := s.lent r
  if (!x.active && !x.failed) || x.draining then (.now .modeConflict 0, s.setNum (Obj.lentStatus r) Status.modeConflict.code)
  else (.later, (s.setLent r { x with active := false, draining := true, reply := some w }).leaveLent r)

/-- WITHDRAW_COMPLETE. -/
def withdrawDone (s : State) (r : Nat) : State :=
  let x := s.lent r
  let busy := s.tide.lentRds.any (fun q => q.range == r) || !(s.lentPagesOf r).isEmpty
    || s.tide.jobs.any (fun j => j.kind == .lent && j.dstA.tier == 3 && j.dstA.loc / 2 ^ 32 == r)
  if !x.draining || busy then s
  else
    let s : State := s.freeLeft (s.tide.leaving.filter (fun e => e.copy.tier == 3 && e.copy.loc / 2 ^ 32 == r))
    let s : State := (s.setLent r LentRange.free).raise 0x2021 r
    match x.reply with
    | some w => (s.setNum (Obj.lentStatus r) 0).replyOwed ⟨w, Obj.lentAction r⟩ .ok
    | none => s

/-- A lent read ends: it leaves the list. -/
def dropLentRead (s : State) (id : Nat) : State :=
  { s with tide := { s.tide with lentRds := s.tide.lentRds.filter (fun q => q.id != id) } }

/-- The far granules in place of a lent read's (R282, R523). -/
def fromFar (s : State) (x : LentRead) : State :=
  match s.req x.req with
  | none => s
  | some r =>
    let p := r.page
    let a := s.copyA p
    let far := if a.tier = 3 then s.copyB p else a
    let lent : Option Copy := if a.tier = 3 then some a else ((s.tide.leaving.find? (fun e => e.page == p && e.copy.tier == 3)).map (·.copy))
    let swap (k : Nat) : Nat := match lent with
      | some c => match (List.range c.len).find? (fun g => c.key g == k) with
        | some g => far.key g
        | none => k
      | none => k
    let r1 := { r with need := r.need.map (fun k => if x.keys.contains k then swap k else k) }
    (s.updReq r.id (fun _ => r1)).readGrans r1 (x.keys.map swap) .read

/-- The range fails after too many timeouts in a row (R283). -/
def lentFail (s : State) (r : Nat) : State :=
  let x := s.lent r
  let n := x.run + 1
  let s : State := s.setLent r { x with run := n }
  if x.active ∧ s.num Obj.lentFailCount ≤ n then
    ((s.setLent r { x with active := false, failed := true, run := n }).leaveLent r).raise 0x2022 r
  else s

/-! ## Far-slot service (R285–R293) -/

/-- The status of a slot action is its reply's status and 3010.03. -/
def slotFin (s : State) (st : Status) (hint : Nat := 0) : WAns × State := (.now st hint, s.setNum Obj.slotActionStatus st.code)

/-- EVACUATE (R285, R286). The checks are made in the order in which R285 names them (DESIGN CHOICE, log 35). -/
def evacuate (s : State) (n : Nat) : WAns × State :=
  if s.farReservable - s.slotPages n < s.farLimits then s.slotFin .capacity
  else if (List.range 48).any (fun i => i != n && (s.slot i).st == .evacuating) then s.slotFin .retryLater 1000000
  else if (s.slot n).st ≠ .inService then s.slotFin .modeConflict
  else ((s.setSlot n { s.slot n with st := .evacuating }).raise 0x2010 n).refillEvac.noteEvacuated.slotFin .ok

/-- CANCEL (R289). -/
def slotCancel (s : State) (n : Nat) : WAns × State :=
  if (s.slot n).st ≠ .evacuating then s.slotFin .modeConflict
  else
    let ours (j : Job) : Bool := j.push || (j.bay != 0 && (j.bay - 1) / 2 ^ 24 == 8 + n) || ((s.pagesOn n).contains j.page && !s.lone j.page)
    let js := s.tide.jobs.filter (fun j => j.kind == .evac && j.phase != .draining && ours j)
    ((s.each js cancelJob).setSlot n { s.slot n with st := .inService } |>.raise 0x2012 n).slotFin .ok

/-- A page without the copies that lie on a slot: LOWER copies are dropped, a page with its LOWER copy elsewhere switches, a MIRRORED page
keeps its other copy, and a page that has lost both is FAULTED (R290). -/
def offSlot (s : State) (n p : Nat) : State :=
  let s : State := s.decideFence p
  let a := s.copyA p
  let b := s.copyB p
  let s : State := match (s.entry p).pstate, s.roleB p with
    | .faulted, _ => s.setCopies p (if onSlot n a then Copy.none else a) (if onSlot n b then Copy.none else b) .none
    | _, .lower => if onSlot n b then s.setCopies p a Copy.none .none else if onSlot n a then s.setCopies p b Copy.none .none else s
    | _, .mirror => if onSlot n a then s.setCopies p b Copy.none .none else if onSlot n b then s.setCopies p a Copy.none .none else s
    | _, .none => s
  let gone (c : Copy) : Bool := onSlot n c && s.copyA p != c && s.copyB p != c
  let s : State := if gone a then s.releaseCopy a else s
  if gone b then s.releaseCopy b else s

/-- A fenced slot's bays are released without being read (R290): jobs that fill it end, and so do the waits of what was left there. -/
def releaseSlot (s : State) (n : Nat) : State :=
  let s : State := s.each (s.tide.jobs.filter (fun j => onSlot n j.dstA || onSlot n j.dstB)) cancelJob
  let s : State := s.each (s.pagesOn n) (fun s p => s.offSlot n p)
  (s.freeLeft (s.tide.leaving.filter (fun e => onSlot n e.copy))).refill

/-- Put the other DIMM of a channel into self-refresh, or let it resume (R291, R482). -/
def holdOther (s : State) (n : Nat) (on : Bool) : State :=
  let c := 256 + n / 2
  s.setChan c { s.chan c with sr := if on then .held else .no }

/-- POWER_OFF (R290): the slot reads OFF at SLOT_OFF. -/
def powerOff (s : State) (n : Nat) : WAns × State :=
  let x := s.slot n
  if x.st = .evacuated ∨ (x.st = .fenced ∧ x.own) then
    let s : State := if x.st = .fenced then s.releaseSlot n else s
    ((s.holdOther n true).setSlot n { s.slot n with st := .evacuated }).slotFin .ok
  else s.slotFin .modeConflict

end State

end Sys2Proof.Machine
end

