-- ==== Sys2Proof/Machine/RegionOps.lean ====
section
/-! DEFINITION. Regions and sessions: commits, sealing, precompressed ingest, retirement, session limits and retables (chapters 03
and 04). -/

namespace Sys2Proof.Machine

/-- The views permitted for a native format (Table 03-4). -/
def viewPermitted (fmt v : Nat) : Bool :=
  match fmt with
  | 1 => v != 1
  | 2 => v != 2
  | 3 => v == 1 || v == 2 || v == 5 || v == 6
  | 4 => v == 4
  | 5 => v == 3
  | _ => false

/-- Whether a port mask has exactly one bit set. -/
def oneBit (m : BitVec 17) : Bool := ((List.range 17).filter (fun i => m.getLsbD i)).length == 1

/-- Whether a region holds a reservation. -/
def Region.holds (r : Region) : Bool := r.st != .free || r.act != .none

/-- The mode set that counts for a region's reservation: the one being installed, else the one in force. -/
def Region.counts (r : Region) : Mode := if r.act = .commit then r.staged else r.mode

namespace State

/-- A mode set or a state of region k is installed: what was in force before this cycle stays in force for the requests of the same cycle
(R125). -/
def installRegion (s : State) (k : Nat) (r : Region) : State :=
  let o := s.region k
  s.setRegion k { r with was := if o.was.1 = s.dev.now + 1 then o.was else (s.dev.now + 1, o.st, o.mode) }

/-! ## Attributes and checks (R137–R141, R152, R153) -/

/-- The attributes of a region as they are staged. -/
def stagedMode (s : State) (k : Nat) : Mode where
  region := k
  format := s.num (Obj.regionFormat k)
  tier := s.num (Obj.regionTierPolicy k)
  lent := s.num (Obj.regionLentAllowed k) == 1
  comp := s.num (Obj.regionCompression k)
  coh := s.num (Obj.regionCoherence k)
  mirror := s.num (Obj.regionEccMode k) == 1
  viewA := s.num (Obj.regionViewA k)
  viewB := s.num (Obj.regionViewB k)
  atom := s.num (Obj.regionAtomics k) == 1
  cls := s.num (Obj.regionDefaultClass k)
  realm := s.num (Obj.regionRealm k)
  session := s.num (Obj.regionSession k)
  mask := BitVec.ofNat 17 (s.num (Obj.regionPortMask k))
  base := s.num (Obj.regionBase k)
  len := s.num (Obj.regionLength k)
  ingest := s.num (Obj.regionIngestBytes k)
  ro := false

/-- The attribute conflicts of Table 03-6 in ascending order of their codes, each with whether it holds. -/
def modeFaults (s : State) (m : Mode) : List (Nat × Bool) := [
  (0x0202, m.base % 65536 != 0),
  (0x0303, m.len == 0 || m.len % 65536 != 0 || decide (2 ^ 44 < m.base + m.len)),
  (0x0315, decide (m.len < m.ingest)),
  (0x0407, m.comp != 0 && m.format == 0),
  (0x040C, m.viewA != 0 && !viewPermitted m.format m.viewA),
  (0x040D, m.viewB != 0 && !viewPermitted m.format m.viewB),
  (0x0506, m.lent && (m.tier == 1 || m.tier == 2)),
  (0x0507, m.comp == 2 && m.tier == 1),
  (0x060B, m.lent && m.mirror),
  (0x0708, m.comp == 3 && m.coh != 3),
  (0x070F, m.comp != 0 && m.atom),
  (0x0715, (m.comp == 3 && m.ingest == 0) || (m.comp != 3 && m.ingest != 0)),
  (0x0808, m.coh == 2),
  (0x0810, m.coh == 1 && !oneBit m.mask),
  (0x0A0A, !s.realmOn m.realm),
  (0x0C0D, m.viewB != 0 && (m.viewA == 0 || m.viewA == m.viewB)),
  (0x0E0E, !(s.session m.session).isOpen),
  (0x1010, m.mask == 0),
  (0x1515, m.ingest % 64 != 0)]

/-- The first attribute conflict, if any. -/
def modeFault (s : State) (m : Mode) : Option Nat := ((s.modeFaults m).find? (·.2)).map (·.1)

/-- Pages that a mode set reserves (R153). -/
def reservation (m : Mode) : Nat :=
  (if m.comp = 3 then (m.ingest + 65535) / 65536 else m.len / 65536) * (if m.mirror then 2 else 1)

/-- Pages that a session's regions reserve in a tier (3100.04, .05). -/
def sessionUse (s : State) (n : Nat) (near : Bool) : Nat :=
  ((s.ctl.regions.filter (fun e => e.2.holds && e.2.counts.session == n && e.2.near == near)).map (fun e => e.2.pages)).sum

/-- The regions of a session that are not FREE (3100.06). -/
def sessionRegions (s : State) (n : Nat) : Nat :=
  (s.ctl.regions.filter (fun e => e.2.holds && e.2.counts.session == n)).length

/-- The lowest region that is not FREE and overlaps a range, besides region k (0xF002). -/
def overlaps (s : State) (k : Nat) (m : Mode) : Option Nat :=
  (s.ctl.regions.find? (fun e => let o := e.2.counts
    e.1 != k && e.2.holds && decide (o.base < m.base + m.len ∧ m.base < o.base + o.len))).map (·.1)

/-- Whether the rings hold a region or session number of theirs (R614): region 4,095 and session 1,023 while they are not
DISABLED. -/
def ringReserved (s : State) (isRegion : Bool) (n : Nat) : Bool :=
  s.mgmt.ring.st != 0 && n == (if isRegion then 4095 else 1023)

/-- An action on a region is answered, with its reason. -/
def regionAns (s : State) (k : Nat) (st : Status) (reason : Nat) (hint : Nat := 0) : WAns × State :=
  (.now st hint, s.setNum (Obj.regionReason k) reason)

/-! ## Commit (R122–R128, R139–R141, R155, R225) -/

/-- The masters that a recommit of an OPEN region removes. -/
def removed (r : Region) : BitVec 17 := if r.st = .open then r.mode.mask &&& ~~~ r.staged.mask else 0

/-- The part of line l's entry that records removed masters; a relay port stands for every group and pod routed through it (R341), and
while any pod may hold the line, for all of them until they have been invalidated (R311). -/
def removedPart (s : State) (gone : BitVec 17) (l : Nat) (e : DEntry) : DEntry :=
  let via (key : Nat) : Bool := match s.routePort key with
    | some p => gone.getLsbD p.val
    | none => false
  if e.st = .exclusive then
    let out : Bool := if e.ownLocal then gone.getLsbD e.owner.toNat else via (s.routeKey e.owner.toNat)
    if out then e else emptied e
  else
    { e with l0 := e.l0 &&& gone
             l1 := (List.range 64).foldl (fun (a : BitVec 64) g =>
               if e.l1.getLsbD g && via (Obj.groupRoute g) then a ||| (1#64 <<< g) else a) 0
             l2 := if e.bcast
               then (if s.dir.swept.contains l then []
                 else ((List.range 64).filter (fun q => q != s.ownNode / 4096 && via (Obj.podRoute q))).map (BitVec.ofNat 6))
               else e.l2.filter (fun q => via (Obj.podRoute q.toNat))
             bcast := false }

/-- Whether line l's entry records a removed master. -/
def heldBy (s : State) (gone : BitVec 17) (l : Nat) (e : DEntry) : Bool :=
  let x := s.removedPart gone l e
  if e.st = .exclusive then x.st == .exclusive else e.st == .shared && (x.l0 != 0 || x.l1 != 0 || !x.l2.isEmpty)

/-- The entry without the removed masters. -/
def withoutRemoved (s : State) (gone : BitVec 17) (l : Nat) (e : DEntry) : DEntry :=
  if e.st = .exclusive then emptied e
  else
    let x := s.removedPart gone l e
    let y := { e with l0 := e.l0 &&& ~~~ x.l0, l1 := e.l1 &&& ~~~ x.l1, l2 := e.l2.filter (fun q => !x.l2.contains q) }
    if anyHolder y then y else emptied y

/-- The lines of a region that have an entry or a transaction. -/
def regionLines (s : State) (k : Nat) : List Nat :=
  let m := (s.region k).mode
  s.heldLines (m.base / 65536) ((m.base + m.len) / 65536)

/-- The bulk scan of a region's pages (R335). -/
def scanRegion (s : State) (k : Nat) : State :=
  let m := (s.region k).mode
  s.scanPages (m.base / 65536) ((m.base + m.len) / 65536) m.cls

/-- Recall or invalidate one line that a removed master holds, unless it is BUSY (R126, R341). -/
def recallRemoved (s : State) (k l : Nat) : State :=
  let gone := removed (s.region k)
  let e := s.line l
  if (s.txn l).isSome || !s.heldBy gone l e then s
  else if e.st = .exclusive then s.openTxn l (.mask k) .recall (emptied e)
  else
    let x := s.snoopAll l (s.removedPart gone l e) .inv
    let n := x.1
    let s1 : State := x.2
    let s2 : State := s1.happen 0x4001 (some 17) 0 true n
    (s2.setTxn l (some ⟨.mask k, n, false, false, s.withoutRemoved gone l e, [], n⟩)).writeEntry l e

/-- Near bays enough for what PIN_NEAR regions have reserved and not used, once region k has the mode set `m` (R225). -/
def pinRoom (s : State) (k : Nat) (m : Mode) : Bool :=
  let r := s.region k
  let t : State := s.setRegion k { r with st := if r.st = .free then .open else r.st, mode := m }
  decide (t.nearReserved - t.pinnedUsed ≤ t.nearBays)

/-- The mode set of region k is installed (R125). Its pages are no longer ebbed where it is PIN_NEAR now (R259), and the near holds of
records that its pages share follow (R276–R278). -/
def installMode (s : State) (k : Nat) (m : Mode) : State :=
  let r := s.region k
  let mine (p : Nat) : Bool := decide (m.base ≤ p * 65536 ∧ p * 65536 < m.base + m.len)
  let records := ((s.tide.map.filter (fun e => e.2.pstate == .shared && mine e.1)).map (fun e => e.2.share)).eraseDups
  let before := records.map (fun i => (i, s.holders i))
  let s : State := s.installRegion k { r with st := if r.st = .free then .open else r.st, mode := m, act := .none, who := none, staged := Mode.none }
  let ebbs := if m.tier = 1
    then s.tide.jobs.filter (fun j => j.kind == .capEbb && j.phase != .draining && mine j.page && (s.entry j.page).pstate != .shared) else []
  let s : State := s.each ebbs cancelJob
  (s.each before (fun s x => ((s.noteRise x.1 x.2).noteFall x.1 x.2).queueDown x.1)).noteNear

/-- Whether a pending commit still waits: for removed masters' copies (R126) or for near bays (R225). -/
def commitWaits (s : State) (k : Nat) : Bool :=
  let r := s.region k
  let gone := removed r
  (gone != 0 && (s.regionLines k).any (fun l => (s.txn l).isSome || s.heldBy gone l (s.line l))) || !s.pinRoom k r.staged

/-- COMMIT (R122–R128, R139–R141, R155). DESIGN CHOICE: 0xF005 carries the time left alone where no link port brings the write (log 137); the
ring's own region is refused before R150 is looked at (log 138); a recommit gives up the old tier's pages in the step in which it takes
the new ones, though it may still wait for recalls (log 139). -/
def regionCommit (s : State) (k : Nat) (w : Who) : WAns × State :=
  let r := s.region k
  let m := s.stagedMode k
  let near := m.tier == 1
  let moves := r.st == .free || r.near != near
  let pages := if moves ∧ r.st ≠ .sealed then reservation m else r.pages
  let lim := s.session m.session
  let tooMany : Bool := moves && decide ((if near then lim.near else lim.far) < s.sessionUse m.session near + pages)
  if s.ringReserved true k then s.regionAns k .modeConflict 0xF001
  else if r.act ≠ .none ∨ r.st = .sealing then (.now .retryLater 100, s)
  else if s.num Obj.nearFillState ≠ 2 then
    s.regionAns k .retryLater 0xF005 (match w.path with | .link p => s.initHint p | _ => s.initLeft)
  else if r.st = .retiring then s.regionAns k .modeConflict 0xF001
  else match s.modeFault m with
    | some c => s.regionAns k .modeConflict c
    | none => match s.overlaps k m with
      | some j => (s.setNum (Obj.regionConflictWith k) j).regionAns k .modeConflict 0xF002
      | none =>
        if tooMany then s.regionAns k .capacity (if near then 0xF003 else 0xF004)
        else
          let s : State := s.setRegion k { r with act := .commit, who := some w, staged := m, pages := pages, near := near }
          let s : State := { s with dir := { s.dir with swept := [] } }
          let gone := removed (s.region k)
          let s : State := if gone = 0 then s
            else
              let s : State := s.scanRegion k
              s.each (s.regionLines k) (fun s l => s.recallRemoved k l)
          if s.commitWaits k then (.later, s) else (s.installMode k m).regionAns k .ok 0

/-- COMMIT_COMPLETE. Copies that a removed master got under the old mask meanwhile are recalled as well (R126, log 36). -/
def commitComplete (s : State) (k : Nat) : State :=
  let r := s.region k
  if r.act ≠ .commit then s
  else if s.commitWaits k then s.each (s.regionLines k) (fun s l => s.recallRemoved k l)
  else
    let s : State := (s.installMode k r.staged).setNum (Obj.regionReason k) 0
    match r.who with
    | some w => s.replyOwed ⟨w, Obj.regionAction k⟩ .ok
    | none => s

/-! ## Sealing (R129–R132, R154, R181–R183, R340) -/

/-- Recall one line that an owner still holds in a region that is being sealed. -/
def recallSeal (s : State) (k l : Nat) : State :=
  let e := s.line l
  if (s.txn l).isSome ∨ e.st ≠ .exclusive then s else s.openTxn l (.seal k) .recall (emptied e)

/-- Lines that became EXCLUSIVE after SEAL, for requests resolved before it, are recalled as well (R129, R340). -/
def recallAll (s : State) (k : Nat) : State := s.each (s.regionLines k) (fun s l => s.recallSeal k l)

/-- Whether nothing that resolved before SEALING is still on its way: no exclusive holder, no transaction, no write and no request that may
yet be granted a copy (R129). -/
def regionQuiet (s : State) (k : Nat) : Bool :=
  let writes (op : ReqOp) : Bool := op.isWrite || op.isAlu || (match op with | .writeback _ => true | _ => false)
  !((s.regionLines k).any (fun l => (s.txn l).isSome || (s.line l).st == .exclusive))
    && !(s.path.reqs.any (fun r => (match r.mode with | some m => m.region == k && (writes r.op || !m.ro) | none => false) && r.stage != .acked))

/-- The pages of a region that hold content: neither UNWRITTEN nor FAULTED, by a fence of their map entry's stripe or otherwise (R131,
R553). -/
def writtenPages (s : State) (k : Nat) : List Nat :=
  let m := (s.region k).mode
  (s.tide.map.filter (fun e => decide (m.base / 65536 ≤ e.1 ∧ e.1 < (m.base + m.len) / 65536)
    && e.2.pstate != .unwritten && e.2.pstate != .faulted && !s.stripeFaulted e.1)).map (·.1)

/-- Granule i of a region's raw content, as the device reads it. -/
def imageGran (s : State) (k i : Nat) : Gran × State :=
  let m := (s.region k).mode
  let p := m.base / 65536 + i / 1024
  match (s.entry p).pstate with
  | .unwritten => (Gran.zero, s)
  | .faulted => (Gran.bad, s)
  | _ =>
    let x := s.copyGran m p (s.sourceCopy p) (i % 1024)
    (x.1, x.2.2)

/-- Granules from `i` on. -/
def imageRead : Nat → State → Nat → Nat → List Gran × State
  | 0, s, _, _ => ([], s)
  | n + 1, s, k, i =>
    let x := s.imageGran k i
    let y := imageRead n x.2 k (i + 1)
    (x.1 :: y.1, y.2)

/-- Whether an ingest header is intact (check 1 of R193). -/
def headerOk (m : Mode) (h : Gran) : Bool :=
  let b (i n : Nat) : Nat := leNat (slice h.bytes i n)
  !h.poison && b 0 4 == 0x4C474853 && b 4 1 == 1 && b 5 1 == m.format && decide (1 ≤ b 6 1 ∧ b 6 1 ≤ 16) && b 7 1 == 0
    && decide (b 8 4 ≤ m.len / 65536) && b 12 8 == m.ingest && (h.bytes.drop 20).all (· == 0)

/-- Code table slots that are FREE. -/
def slotsFree (s : State) : Nat := 1008 - s.slotsUsed

/-- Reserve n slots for an ingest. -/
def reserveSlots : Nat → State → Nat → List Nat × State
  | 0, s, _ => ([], s)
  | n + 1, s, k => match s.freeSlot with
    | none => ([], s)
    | some t =>
      let y := reserveSlots n (s.setTab t ⟨.reserved, (s.region k).mode.format, k, false, []⟩) k
      (t :: y.1, y.2)

/-- The region of a running retable leaves OPEN: the retable is cancelled at its completion (R185). -/
def noteLeft (s : State) (k : Nat) : State :=
  match s.ctl.retable with
  | some (j, _) => if j = k then { s with ctl := { s.ctl with leftOpen := true } } else s
  | none => s

/-- SEAL (R121–R124, R129, R192). An ingest header that is not intact reserves no slot, since its T is not to be trusted (DEDUCED
from R192, log 37). -/
def regionSeal (s : State) (k : Nat) : WAns × State :=
  let r := s.region k
  if s.ringReserved true k then s.regionAns k .modeConflict 0xF001
  else if r.act ≠ .none then (.now .retryLater 100, s)
  else if r.st ≠ .open then s.regionAns k .modeConflict 0xF001
  else
    let x := if r.mode.comp = 3 then s.imageGran k 0 else (Gran.zero, s)
    let t := if r.mode.comp = 3 ∧ headerOk r.mode x.1 then leNat (slice x.1.bytes 6 1) else 0
    let s : State := x.2
    if s.slotsFree < t then
      let d := s.drawFresh
      d.2.regionAns k .capacity (d.1.toNat % 65536)
    else
      let y := reserveSlots t s k
      let s : State := (y.2.installRegion k { r with st := .sealing, slot := 0, tables := y.1, packed := [], tails := [] }).noteTabs.noteLeft k
      let s : State := s.scanRegion k
      (s.recallAll k).regionAns k .ok 0

/-- The sample pages of a region (R181). -/
def samplePages (m : Mode) (limit : Nat) : List Nat :=
  let n := m.len / 65536
  let lo := m.base / 65536
  if n ≤ limit then (List.range n).map (lo + ·) else (List.range limit).map (fun i => lo + i * n / limit)

/-- The raw blocks of a region's sample (R181); a page that holds nothing adds none. -/
def sampleBlocks (s : State) (k : Nat) : List (List Byte) × State :=
  let m := (s.region k).mode
  let ps := (samplePages m (s.num Obj.samplePages)).filter (fun p => (s.writtenPages k).contains p)
  ps.foldl (fun (a : List (List Byte) × State) p =>
    let x := a.2.pageGrans m p
    (a.1 ++ (List.range 16).map (fun b => granBytes ((x.1.drop (64 * b)).take 64)), x.2)) ([], s)

/-- Build a region's code table over its current contents. -/
def regionTable (s : State) (k : Nat) : List Nat × State :=
  let x := s.sampleBlocks k
  (buildTable (s.region k).mode.format (s.num Obj.escapeLog2) x.1, x.2)

/-- SEAL_TABLE_BUILT (R181–R183): the encode pass begins. -/
def sealTableBuilt (s : State) (k : Nat) : State :=
  let r := s.region k
  if r.st ≠ .sealing ∨ (r.mode.comp ≠ 1 ∧ r.mode.comp ≠ 2) ∨ r.slot ≠ 0 then s
  else if s.regionQuiet k = false then s.recallAll k
  else
    let x := s.regionTable k
    let s : State := x.2.dropEncode k
    match s.freeSlot with
    | some n => ((s.fillSlot n r.mode.format k true x.1).setRegion k { r with slot := n }).freeSlots.refillSeal
    | none =>
      let s : State := (s.setRegion k { r with slot := s.defaultSlotOf r.mode.format }).bump Obj.slotFallbacks
      ((s.raise 0x3003 k).freeSlots).refillSeal

/-- Whether every page of a region has the form that SEALED gives it. -/
def sealDone (s : State) (k : Nat) : Bool :=
  let r := s.region k
  r.mode.comp == 0 || (r.slot != 0 && (s.writtenPages k).all (fun p => r.packed.contains p && (s.jobOf p).isNone))

/-- Stored bytes of one copy of a region (R154). -/
def storedBytes (s : State) (k : Nat) : Nat := 64 * ((s.writtenPages k).map (fun p => (s.copyA p).len)).sum

/-- An entry leaves the directory without snoops. -/
def forget (s : State) (l : Nat) : State := if (s.line l).st = .home then s else s.writeEntry l (emptied (s.line l))

/-- SEALING_COMPLETE (R154, R182, R340). -/
def sealingComplete (s : State) (k : Nat) : State :=
  let r := s.region k
  if r.st ≠ .sealing ∨ s.sealDone k = false then s
  else if s.regionQuiet k = false then s.recallAll k
  else
    let stored := s.storedBytes k
    let p1 := reservation { r.mode with mirror := false }
    let pages := min p1 ((stored + 65535) / 65536) * (if r.mode.mirror then 2 else 1)
    let s : State := s.each (s.regionLines k) forget
    let s : State := (s.dropEncode k).installRegion k { r with st := .sealed, pages := pages }
    let s : State := (s.setNum (Obj.regionStoredBytes k) stored).setNum (Obj.regionSealResult k) 0
    s.freeSlots.noteNear

/-! ## Precompressed ingest (R191–R196) -/

/-- Free the slots that an ingest has reserved. -/
def releaseTables (s : State) (k : Nat) : State :=
  let ts := (s.region k).tables
  ({ s with ctl := { s.ctl with tabs := s.ctl.tabs.filter (fun e => !ts.contains e.1) } }).noteTabs

/-- A page of an image: its stored granules, and whether it is compressed. -/
structure ImgPage where
  comp  : Bool
  grans : List Gran
  deriving DecidableEq, Repr

/-- Whether one block of an image's page passes checks 1 to 12 (Table 04-7); `fmts` holds the tables' FORMAT (check 4). Poison in an index
granule or in a CODED block fails it, since it cannot be checked (DEDUCED from R188, log 38). -/
def imgBlockOk (fmt : Nat) (fmts : List Nat) (tabs : List (List Nat)) (gs : List Gran) (es : List IdxEnt) (b : Nat) : Bool :=
  let e := es.getD b ⟨0, 0, 3, 0⟩
  (idxCheck es gs.length (fun t => fmts[t]? == some fmt) b).isNone
    && (e.kind != 0
      || (let blk := (gs.drop e.off).take e.len
          blk.all (fun g => !g.poison) && (List.range 16).all (fun j =>
            match decodeSub fmt (tabs.getD e.slot []) (slice (blk.flatMap (·.bytes)) (4 * e.len * j) (4 * e.len)) (4 * e.len) with
            | .ok _ => true
            | .error _ => false)))

/-- Whether an image's page passes. -/
def imgPageOk (fmt : Nat) (fmts : List Nat) (tabs : List (List Nat)) (x : ImgPage) : Bool :=
  !x.comp || (let es := idxOf (x.grans.headD Gran.bad).bytes
              !(x.grans.headD Gran.bad).poison && (List.range 16).all (imgBlockOk fmt fmts tabs x.grans es))

/-- The pages of an image from its page directory. -/
def imgPages : List Nat → List Gran → List ImgPage
  | [], _ => []
  | g :: gs, rest => ⟨g != 1024, rest.take g⟩ :: imgPages gs (rest.drop g)

/-- An image that passes R193: its tables and its pages. -/
def readImage (m : Mode) (img : List Gran) : Option (List (List Nat) × List ImgPage) :=
  let h := img.headD Gran.bad
  let b (i n : Nat) : Nat := leNat (slice h.bytes i n)
  if !headerOk m h then none
  else
    let t := b 6 1
    let n := b 8 4
    let d := (n + 31) / 32
    let recs := (List.range t).map (fun i => (img.drop (1 + 3 * i)).take 3)
    let lens := recs.map (fun r => if r.any (·.poison) then none else recordLens (slice (r.flatMap (·.bytes)) 0 192))
    let dir := (img.drop (1 + 3 * t)).take d
    let gs := (List.range n).map (fun i => leNat (slice (dir.flatMap (·.bytes)) (2 * i) 2))
    let pages := imgPages gs (img.drop (1 + 3 * t + d))
    let tabs := lens.filterMap (·.map (·.2))
    let fmts := lens.filterMap (·.map (·.1))
    if tabs.length ≠ t then none
    else if dir.any (·.poison) ∨ gs.any (fun g => !(g == 1 || decide (2 ≤ g ∧ g ≤ 1008) || g == 1024))
        ∨ 64 * (1 + 3 * t + d + gs.sum) ≠ m.ingest then none
    else if pages.all (imgPageOk m.format fmts tabs) then some (tabs, pages) else none

/-- An image's index granule with slots in place of table numbers (R195). -/
def slotIndex (tables : List Nat) (g : Gran) : Gran :=
  ⟨idxBytes ((idxOf g.bytes).map (fun e => if e.kind = 0 then { e with slot := tables.getD e.slot 0 } else e)), false⟩

/-- Lay one page of an image (R195). A page without a bay stays as it was never written (it cannot occur: R196). -/
def layPage (s : State) (k p : Nat) (x : ImgPage) : State :=
  let r := s.region k
  let gs := if x.comp then slotIndex r.tables (x.grans.headD Gran.bad) :: x.grans.drop 1 else x.grans
  match s.packCopies k (if r.mode.tier = 1 then 1 else 2) p gs.length r.mode.mirror with
  | none => s
  | some (a0, b0, s) =>
    let a := { a0 with comp := x.comp }
    let b := if b0.tier = 0 then b0 else { b0 with comp := x.comp }
    let nv := s.nextVersion (s.entry p).version
    let e : TEntry :=
      { TEntry.unwritten with a := a, b := b, role := if r.mode.mirror then .mirror else .none, pstate := .resident
                              version := nv.1, epoch := s.epochNow % 256 }
    let s : State := (nv.2.setEntry p e).markPacked k p
    let s : State := s.writeNow (s.extentWrites p a r.mode gs ++ s.extentWrites p b r.mode gs)
    (s.storeIndex a (gs.headD Gran.bad)).storeIndex b (gs.headD Gran.bad)

/-- Lay an image's pages in order, from granule `at_` of the image and page `p` on; each frame of the image is released once the pages
laid have passed it (R195, R196). -/
def layPages (s : State) (k : Nat) (at_ p : Nat) : List ImgPage → State
  | [] => s
  | x :: xs =>
    let lo := (s.region k).mode.base / 65536
    let next := at_ + x.grans.length
    let passed := ((List.range (next / 1024)).drop (at_ / 1024)).map (lo + ·)
    layPages ((s.layPage k p x).each passed releaseSources) k next (p + 1) xs

/-- The frames of a page are released at once, and it is UNWRITTEN. -/
def clearPage (s : State) (p : Nat) : State := (s.emptyPage p).releaseSources p

/-- INGEST_VALIDATION (R133, R193–R196). The image is read again: one whose header a write of before SEALING has changed since SEAL read
its T passes or fails as it stands now, and fails where it names more tables than SEAL reserved slots for (DESIGN CHOICE, log 146).
The slots are IN_USE once the pages are laid; one that no page names returns to FREE (R178). -/
def ingestValidation (s : State) (k : Nat) : State :=
  let r := s.region k
  if r.st ≠ .sealing ∨ r.mode.comp ≠ 3 ∨ r.slot ≠ 0 then s
  else if s.regionQuiet k = false then s.recallAll k
  else
    let x := imageRead (r.mode.ingest / 64) s k 0
    let s : State := x.2
    match (readImage r.mode x.1).filter (fun y => decide (y.1.length ≤ r.tables.length)) with
    | none =>
      let s : State := (s.releaseTables k).installRegion k { r with st := .open, tables := [] }
      (s.setNum (Obj.regionSealResult k) 9).raise 0x3002 k
    | some (tabs, pages) =>
      let lo := r.mode.base / 65536
      let frames := s.writtenPages k
      let s : State := s.each frames emptyPage
      let put (st : TabSt) (s : State) (y : Nat × List Nat) : State := s.setTab y.1 ⟨st, r.mode.format, k, false, y.2⟩
      let s : State := s.each (List.zip r.tables tabs) (put .reserved)
      let s : State := s.setRegion k { s.region k with slot := 1 }
      let head := 1 + 3 * tabs.length + (pages.length + 31) / 32
      let s : State := (s.layPages k head lo pages).each frames releaseSources
      (s.each (List.zip r.tables tabs) (put .inUse)).freeSlots.noteNear

/-! ## Retirement (R134–R136, R246, R341) -/

/-- An abandoned sealing gives up the slots that it reserved, and its encode slot. -/
def abandonSeal (s : State) (k : Nat) : State :=
  if (s.region k).mode.comp = 3 ∧ (s.region k).slot = 0 then s.releaseTables k else s.dropEncode k

/-- RETIRE (R121–R124, R134). -/
def regionRetire (s : State) (k : Nat) : WAns × State :=
  let r := s.region k
  if s.ringReserved true k then s.regionAns k .modeConflict 0xF001
  else if r.act ≠ .none then (.now .retryLater 100, s)
  else if r.st = .free ∨ r.st = .retiring then s.regionAns k .modeConflict 0xF001
  else
    let s : State := if r.st = .sealing then (s.abandonSeal k).setNum (Obj.regionSealResult k) 6 else s
    let s : State := (s.installRegion k { s.region k with st := .retiring, tables := [] }).noteLeft k
    let lo := r.mode.base / 65536
    let hi := (r.mode.base + r.mode.len) / 65536
    let mine (j : Job) : Bool := decide (lo ≤ j.page ∧ j.page < hi) && j.phase != .draining
    let s : State := s.each (s.tide.jobs.filter mine) cancelJob
    let ps : List Nat := ((s.tide.map.filter (fun (e : Nat × TEntry) => decide (lo ≤ e.1 ∧ e.1 < hi))).map (·.1) ++ (s.regionLines k).map (fun (l : Nat) => l / 512)).eraseDups
    (s.each ps (fun s p => s.invPage p (.retire k))).regionAns k .ok 0

/-- Whether nothing of a region is still in use: no request, transaction, holder or job. -/
def retireQuiet (s : State) (k : Nat) : Bool :=
  let m := (s.region k).mode
  let lo := m.base / 65536
  let hi := (m.base + m.len) / 65536
  !((s.regionLines k).any (fun l => (s.txn l).isSome || (s.line l).st == .exclusive || (s.line l).st == .shared))
    && !(s.path.reqs.any (fun r => match r.mode with | some m => m.region == k && r.stage != .waiting | none => false))
    && !(s.tide.jobs.any (fun j => decide (lo ≤ j.page ∧ j.page < hi)))
    && (match s.tide.clone with
        | some c => !(decide (c.src < hi ∧ lo < c.src + c.left) || decide (c.dst < hi ∧ lo < c.dst + c.left))
        | none => true)

/-- What TRANSACTION_END does for an action that found a line BUSY: it looks at the line again (R336). -/
def rescanRegion (s : State) (l : Nat) : State :=
  match s.ctl.regions.find? (fun e => e.2.st != .free && decide (e.2.mode.base ≤ l * 128 ∧ l * 128 < e.2.mode.base + e.2.mode.len)) with
  | none => s
  | some (k, r) =>
    let e := s.line l
    if r.st = .sealing then s.recallSeal k l
    else if r.st = .retiring then
      if (s.txn l).isSome ∨ (e.st ≠ .exclusive ∧ e.st ≠ .shared) then s else s.openTxn l (.retire k) .inv (emptied e)
    else if r.act = .commit then s.recallRemoved k l
    else s

/-- RETIREMENT_COMPLETE (R135, R520): a line that is held again meanwhile is invalidated; then what the region held is gone, and it is FREE.
A page whose map entry lies in a faulted stripe stays FAULTED. -/
def retirementComplete (s : State) (k : Nat) : State :=
  let r := s.region k
  if r.st ≠ .retiring then s
  else if s.retireQuiet k = false then s.each (s.regionLines k) rescanRegion
  else
    let lo := r.mode.base / 65536
    let hi := (r.mode.base + r.mode.len) / 65536
    let ls := s.regionLines k ++ ((s.path.store.map (·.1)).filter (fun l => decide (lo * 512 ≤ l ∧ l < hi * 512)))
    let s : State := s.each ls (fun s l => (s.dropStore l).writeEntry l (emptied (s.line l)))
    let ps := (s.tide.map.filter (fun e => decide (lo ≤ e.1 ∧ e.1 < hi) && e.2.pstate != .unwritten)).map (·.1)
    let s : State := s.each ps (fun s p => if (s.entry p).pstate = .faulted ∧ s.stripeFaulted p then s else s.clearPage p)
    let gone (p : Nat) : Bool := decide (lo ≤ p ∧ p < hi)
    let s : State := { s with path := { s.path with blocks := s.path.blocks.filter (fun e => !gone (e.1 / 16)) } }
    ((s.dropEncode k).setRegion k Region.free).freeSlots.noteNear

/-! ## Discard (R121, Table 03-3) -/

/-- Put an object back to its default. -/
def toDefault (s : State) (key : Nat) : State := s.setNum key (objDflt key)

/-- DISCARD. -/
def regionDiscard (s : State) (k : Nat) : WAns × State :=
  let r := s.region k
  let all := [Obj.regionBase k, Obj.regionLength k, Obj.regionFormat k, Obj.regionTierPolicy k, Obj.regionLentAllowed k,
    Obj.regionCompression k, Obj.regionCoherence k, Obj.regionDefaultClass k, Obj.regionRealm k, Obj.regionEccMode k,
    Obj.regionViewA k, Obj.regionViewB k, Obj.regionSession k, Obj.regionAtomics k, Obj.regionPortMask k, Obj.regionIngestBytes k]
  if s.ringReserved true k then s.regionAns k .modeConflict 0xF001
  else if r.act ≠ .none then (.now .retryLater 100, s)
  else if r.st = .free then (s.each all toDefault).regionAns k .ok 0
  else if r.st = .open ∨ r.st = .sealed then
    let s : State := (s.setNum (Obj.regionTierPolicy k) r.mode.tier).setNum (Obj.regionLentAllowed k) (if r.mode.lent then 1 else 0)
    let s : State := (s.setNum (Obj.regionDefaultClass k) r.mode.cls).setNum (Obj.regionAtomics k) (if r.mode.atom then 1 else 0)
    (s.setNum (Obj.regionPortMask k) r.mode.mask.toNat).regionAns k .ok 0
  else s.regionAns k .modeConflict 0xF001

/-! ## Sessions (R146–R151) -/

/-- A session action is answered, with its reason. -/
def sessionAns (s : State) (n : Nat) (st : Status) (reason : Nat) (hint : Nat := 0) : WAns × State :=
  (.now st hint, s.setNum (Obj.sessionReason n) reason)

/-- Whether raising a session's limit in a tier breaks R146. -/
def limitBreaks (s : State) (n : Nat) (near : Bool) : Bool :=
  let x := s.session n
  let old := if near then x.near else x.far
  let new := s.num (if near then Obj.sessionNearLimit n else Obj.sessionFarLimit n)
  let sum := if near then s.nearLimits else s.farLimits
  let cap := if near then s.nearReservable else s.farReservable
  decide (old < new ∧ cap < sum - old + new)

/-- The staged limits of a session come into force. -/
def applyLimits (s : State) (n : Nat) : State :=
  s.setSession n ⟨true, s.num (Obj.sessionNearLimit n), s.num (Obj.sessionFarLimit n)⟩

/-- OPEN, RESIZE and CLOSE (R148–R150): actions 1, 2 and 3. -/
def sessionAct (s : State) (n act : Nat) (w : Who) : WAns × State :=
  let x := s.session n
  let below (near : Bool) : Bool :=
    decide (s.num (if near then Obj.sessionNearLimit n else Obj.sessionFarLimit n) < s.sessionUse n near)
  if s.ringReserved false n then s.sessionAns n .modeConflict 0xF001
  else if act ≠ 3 ∧ s.num Obj.nearFillState ≠ 2 then
    s.sessionAns n .retryLater 0xF005 (match w.path with | .link p => s.initHint p | _ => s.initLeft)
  else if x.isOpen = decide (act = 1) then s.sessionAns n .modeConflict 0xF001
  else if act = 3 then
    if s.sessionRegions n ≠ 0 then s.sessionAns n .modeConflict 0xF007
    else (s.setSession n Session.closed).sessionAns n .ok 0
  else if act = 2 ∧ (below true ∨ below false) then s.sessionAns n .capacity 0xF006
  else if s.limitBreaks n true then s.sessionAns n .capacity 0xF003
  else if s.limitBreaks n false then s.sessionAns n .capacity 0xF004
  else (s.applyLimits n).sessionAns n .ok 0

/-- OPEN, RESIZE, CLOSE. -/
def sessionOpen (s : State) (n : Nat) (w : Who) : WAns × State := s.sessionAct n 1 w
def sessionResize (s : State) (n : Nat) (w : Who) : WAns × State := s.sessionAct n 2 w
def sessionClose (s : State) (n : Nat) (w : Who) : WAns × State := s.sessionAct n 3 w

/-! ## Retables (R184, R185) -/

/-- A write to 5002.01 `RETABLE_REGION`. -/
def retable (s : State) (k : Nat) (w : Who) : WAns × State :=
  let r := s.region k
  let no (st : Status) (hint : Nat) : WAns × State := (.now st hint, s.setNum Obj.retableStatus st.code)
  if 4096 ≤ k ∨ r.st ≠ .open ∨ r.mode.comp ≠ 2 then no .modeConflict 0
  else if s.ctl.retable.isSome then no .retryLater 1000
  else if s.freeSlot.isNone then no .capacity 0
  else (.later, { s with ctl := { s.ctl with retable := some (k, w), leftOpen := false } })

/-- RETABLE_COMPLETE (R184, R185). -/
def retableComplete (s : State) : State :=
  match s.ctl.retable with
  | none => s
  | some (k, w) =>
    let left := s.ctl.leftOpen
    let s : State := { s with ctl := { s.ctl with retable := none, leftOpen := false } }
    let fin (s : State) (st : Status) : State :=
      ((s.setNum Obj.retableStatus st.code).raise 0x3005 st.code).replyOwed ⟨w, Obj.retableRegion⟩ st
    let r := s.region k
    if left ∨ r.st ≠ .open ∨ r.mode.comp ≠ 2 then fin s .cancelled
    else
      let x := s.regionTable k
      let s : State := x.2
      match s.freeSlot with
      | none => fin s .capacity
      | some n => fin ((((s.dropEncode k).fillSlot n r.mode.format k true x.1).freeSlots).setNum Obj.retableSlot n) .ok

end State

end Sys2Proof.Machine
end

