-- ==== Sys2Proof/Machine/CtlOps.lean ====
section
/-! DEFINITION. What the directory, the Bollards and Breakwater do besides serving requests: ends of transactions, snoop timeouts,
purges and routes, waiters' timeouts, the stochastic generator, the deadline sweeper, class commits and rate caps (chapters
06, 07, 08). -/

namespace Sys2Proof.Machine

namespace State

/-! ## The directory -/

/-- Lines that a job, a clone or a region's action found BUSY are scanned again (R336). -/
def rescan (s : State) (l : Nat) : State :=
  let mine := s.tide.jobs.filter (fun j => j.phase == .copying && j.rescan.contains l)
  let s : State := s.each mine (fun s j =>
    let s : State := s.updJob j.id (fun x => { x with rescan := x.rescan.filter (· != l) })
    if (s.line l).st = .exclusive then s.jobSnoop j.page l else s)
  let s : State := match s.tide.clone with
    | some c => if c.left ≠ 0 ∧ l / 512 = c.dst then s.invPage c.dst .clone else s
    | none => s
  s.rescanRegion l

/-- TRANSACTION_END (R317, R336). -/
def transactionEnd (s : State) (l : Nat) : State :=
  let s1 := s.endTxn l
  if (s.txn l).isSome ∧ (s1.txn l).isNone then s1.rescan l else s1

/-- SNOOP_TIMEOUT (R325–R328): a port resets fresh; the endpoint is a lost holder and its grants end. -/
def snoopTimeout (s : State) (m : Src) (tag : BitVec 12) : State :=
  if !s.dir.snoops.any (fun x => x.master == m && x.tag == tag) then s
  else
    let late (s : State) : State := { s with dir := { s.dir with late := s.dir.late ++ [(m, tag)] } }
    match m with
    | .port p =>
      if s.ports[p].state ≠ .up ∧ !s.resetNow p then s
      else (((late s).bump Obj.snoopTimeouts).raise 0x4003 p).portReset p 5 true
    | .ep => (((late s).bump Obj.snoopTimeouts).raise 0x4003 16).grantsEnd

/-- PURGE_END (R306, R332): every line still recorded is cleared; a route write that waited applies. -/
def purgeEnd (s : State) (h : Holder) : State :=
  if !s.dir.purges.any (fun p => p.who == h) then s
  else
    let s : State := s.each (s.dir.ents.map (·.1)) (fun s l => s.purgeLine l none)
    match s.dir.purges.find? (fun p => p.who == h) with
    | none => s
    | some p =>
      let s : State := { s with dir := { s.dir with purges := s.dir.purges.erase p } }
      let s : State := if s.dir.purges.any (fun q => purgeBit q.who == purgeBit h) then s else s.clearBit Obj.dirPurgeActive (purgeBit h)
      let s : State := s.raise 0x4005 p.lines
      match p.reply, h with
      | some (w, v), .route pod i =>
        let key := if pod then Obj.podRoute i.toNat else Obj.groupRoute i.toNat
        let s : State := s.setNum key v.toNat
        let s : State := match objRow (key / 256) (key % 256) with
          | some r => s.change key r (leBytes 1 v.toNat)
          | none => s
        s.replyOwed ⟨w, key⟩ .ok
      | _, _ => s

/-- A write to a group route or pod route (R306). Purges of earlier writes to the same route keep their replies. -/
def routeWrite (s : State) (w : Who) (pod : Bool) (i : BitVec 6) (v : BitVec 8) : WAns × State :=
  let h := Holder.route pod i
  let old := s.dir.purges.filter (fun p => p.who == h && p.reply.isSome)
  let s : State := s.holderLost h (some (w, v))
  (.later, { s with dir := { s.dir with
    purges := s.dir.purges.filter (fun p => p.who != h) ++ old ++ s.dir.purges.filter (fun p => p.who == h) } })

/-- A write to `EP_GRANTS` (R329); the device's own clearing in the same cycle comes after it (R657). -/
def epGrantsWrite (s : State) (v0 : Nat) : State :=
  let v := if s.dir.epLost = s.dev.now + 1 then 0 else v0
  let s : State := s.setNum Obj.epGrants v
  if v = 0 then s.holderLost .ep none else s

/-- DIRECTORY_SWEEP: the copies of one set are compared, then the next (R350). -/
def directorySweep (s : State) : State :=
  let ls := ((s.dir.badA ++ s.dir.badB).map (·.1)).filter (fun l => setOf l == s.dir.sweep)
  let s : State := s.each ls compareLine
  { s with dir := { s.dir with sweep := (s.dir.sweep + 1) % 65536 } }

/-! ## Bollards and the stochastic generator -/

/-- BOLLARD_TIMEOUT (R391, R395): a waiter that became ready in this cycle wins. -/
def bollardTimeout (s : State) (b : Nat) (src : Src) (tag : BitVec 12) : State :=
  let hit (w : Waiter) : Bool := w.bol == b && w.src == src && w.tag == tag && w.limit.isSome
  match s.path.waiters.find? hit with
  | none => s
  | some w =>
    if w.ready.isSome then (if w.readyAt = s.dev.now then s.bump Obj.bollardRaceArrivals else s)
    else
      let this (x : Waiter) : Bool := x.req == w.req
      (s.bump Obj.bollardTimeouts).endWaiters this (fun _ => .plain .timeout)

/-- A write to `SR_SEED_MODE` or `SR_SEED` (R381): in mode 1 the state is set to the seed. -/
def srWrite (s : State) (key v : Nat) : State :=
  let s : State := s.setNum key v
  if s.num Obj.srSeedMode = 1 then { s with path := { s.path with sr := BitVec.ofNat 64 (s.num Obj.srSeed) } } else s

/-! ## Breakwater -/

/-- OVERDUE_SWEEP (R424): the flag of each request that the modular test finds overdue. -/
def overdueSweep (s : State) : State :=
  let late (stamp : Nat) : Bool :=
    let d := (s.now16 + 2 ^ 24 - stamp % 2 ^ 24) % 2 ^ 24
    decide (1 ≤ d ∧ d < 2 ^ 23)
  let accs (as : List Acc) : List Acc := as.map (fun a => if late a.stamp then { a with overdue := true } else a)
  let reqs := s.path.reqs.map (fun r => if r.stage != .waiting && late r.stamp then { r with overdue := true } else r)
  let chans := s.dram.chans.map (fun e => (e.1, { e.2 with wait := accs e.2.wait }))
  { s with path := { s.path with reqs := reqs }, dram := { s.dram with chans := chans } }

/-- The staged values of a class (Table 08-5). -/
def stagedClass (s : State) (c : Nat) : ClassVals where
  min := (List.range 16).map (fun p => s.num (Obj.classMinBw c p)) ++ [s.num (Obj.classMinBwEp c)]
  share := s.num (Obj.classShare c)
  burst := s.num (Obj.classBurst c)
  reserve := s.num (Obj.classSlotReserve c)
  limit := s.num (Obj.classSlotLimit c)
  way := s.num (Obj.classWayShare c)
  ddl := s.num (Obj.classDefaultDeadline c)

/-- The first check of Table 08-2 that staged values fail: reason, source and class. -/
def classFault (vs : List ClassVals) : Option (Nat × Nat × Nat) :=
  let sum (f : ClassVals → Nat) : Nat := (vs.map f).sum
  match (List.range 16).find? (fun p => decide (3375 < sum (fun v => v.min.getD p 0))) with
  | some p => some (0x5101, p, 0xFF)
  | none =>
    if 900 < sum (fun v => v.min.getD 16 0) then some (0x5102, 16, 0xFF)
    else if 65024 < sum (·.reserve) then some (0x5103, 0xFF, 0xFF)
    else match (List.range vs.length).find? (fun c => decide ((vs.getD c ClassVals.dflt).limit < (vs.getD c ClassVals.dflt).reserve)) with
      | some c => some (0x5104, 0xFF, c)
      | none => if 16 < sum (·.way) then some (0x5105, 0xFF, 0xFF) else none

/-- Class values come into force; token counts are kept, clipped to the new bursts. The values before them rule the arbitration of this
cycle, so that the next one runs in the next cycle (R431). -/
def installClasses (s : State) (vs : List ClassVals) : State :=
  let cls := (List.range 64).foldl (fun (m : FMap ClassVals) c => FMap.set ClassVals.dflt m c (vs.getD c ClassVals.dflt)) []
  let tokens := s.ctl.water.tokens.map (fun e =>
    (e.1, min e.2 (((vs.getD (e.1 % 64) ClassVals.dflt).burst * 1024 * 40000 : Nat) : Int)))
  { s with ctl := { s.ctl with water := { s.ctl.water with cls := cls, tokens := tokens, ranAt := s.dev.now + 1 } } }

/-- COMMIT on `CLASS_ACTION` (R430, R431). -/
def classCommit (s : State) : WAns × State :=
  let vs := (List.range 64).map s.stagedClass
  match classFault vs with
  | some (r, src, c) =>
    (.now .modeConflict 0, ((s.setNum Obj.classReason r).setNum Obj.classReasonSource src).setNum Obj.classReasonClass c)
  | none =>
    let s : State := ((s.setNum Obj.classReason 0).setNum Obj.classReasonSource 0xFF).setNum Obj.classReasonClass 0xFF
    (.now .ok 0, ((s.installClasses vs).bump Obj.classCommits).raise 0x5002)

/-- The staged values of a class return to some values. -/
def stageClass (s : State) (c : Nat) (v : ClassVals) : State :=
  let s : State := s.each (List.range 16) (fun s p => s.setNum (Obj.classMinBw c p) (v.min.getD p 0))
  let s : State := ((s.setNum (Obj.classMinBwEp c) (v.min.getD 16 0)).setNum (Obj.classShare c) v.share).setNum (Obj.classBurst c) v.burst
  let s : State := (s.setNum (Obj.classSlotReserve c) v.reserve).setNum (Obj.classSlotLimit c) v.limit
  (s.setNum (Obj.classWayShare c) v.way).setNum (Obj.classDefaultDeadline c) v.ddl

/-- DISCARD on `CLASS_ACTION`: every staged value reverts to the value in force. -/
def classDiscard (s : State) : State := s.each (List.range 64) (fun s c => s.stageClass c (s.classOf c))

/-- The stored class settings at a start (R432). Where they fail, the class objects show the defaults too (DEDUCED, log 60). -/
def startClasses (s : State) : State :=
  let vs := (List.range 64).map s.stagedClass
  match classFault vs with
  | none => ((s.installClasses vs).bump Obj.classCommits).raise 0x5002
  | some (r, _, _) =>
    ((s.installClasses []).each (List.range 64) (fun s c => s.stageClass c ClassVals.dflt)).raise 0x5003 r

/-- A rate cap is written (R433–R435): its events follow the effective cap. -/
def capWrite (s : State) (key v : Nat) : State :=
  let eff (s : State) : Nat := min (s.num Obj.thermalCap) (s.num Obj.operatorCap)
  let old := eff s
  let s : State := s.setNum key v
  let new := eff s
  if 1000 ≤ old ∧ new < 1000 then s.raise 0x5004 new
  else if old < 1000 ∧ 1000 ≤ new then s.raise 0x5007 new
  else s

end State

end Sys2Proof.Machine
end

