-- ==== Sys2Proof/Machine/DramOps.lean ====
section
/-! DEFINITION. The upkeep of DRAM: refresh, recalibration, self-refresh, temperature, training, fills, scrubbing, remapping and
repair, realms, far-slot service and lent reads (chapters 05, 09, 10). -/

namespace Sys2Proof.Machine

namespace State

/-! ## Banks, refresh and row-disturb windows (R451, R457, R462) -/

/-- BANK_IDLE_TIMEOUT (R451): the bank is precharged. -/
def bankIdle (s : State) (c bank : Nat) : State :=
  let x := s.chan c
  s.setChan c { x with openRow := x.openRow.filter (fun e => e.1 != bank) }

/-- Whether a channel's unit is in service. -/
def chanServes (s : State) (c : Nat) : Bool := (s.unit (dunitOf c)).st == .inService

/-- REFRESH_DUE (R457): a refresh is owed while a queue holds an entry; otherwise it is issued with those postponed, and the
banks are precharged for it. In self-refresh the DRAM refreshes itself. -/
def refreshDue (s : State) (c : Nat) : State :=
  let x := s.chan c
  if !s.chanServes c || x.sr != .no then s
  else if (x.rq.isEmpty && x.wq.isEmpty && !x.recal) || s.dev.state == .hold then s.setChan c { x with owed := 0, openRow := [] }
  else s.setChan c { x with owed := x.owed + 1 }

/-- RD_WINDOW_END (R462): the tables of one rank's banks are cleared; `rank` counts both DIMM positions. -/
def rdWindowEnd (s : State) (m rank : Nat) : State :=
  let c := 256 + m
  let x := s.chan c
  s.setChan c { x with rd := x.rd.filter (fun e => !(e.1 / 256 * 4 + e.1 / 32 % 4 == rank)), satDone := false }

/-! ## Recalibration (R472–R477) -/

/-- A recalibration is scheduled. -/
def schedRecal (s : State) (c : Nat) : State := if s.chanServes c then s.setChan c { s.chan c with recalDue := true } else s

/-- Whether two channels may not pause at the same time (R474): those of one stack, or the far channels of one memory die. -/
def sameGroup (c d : Nat) : Bool := isFar c == isFar d && (if isFar c then (c - 256) / 3 == (d - 256) / 3 else c / 32 == d / 32)

/-- Pauses begin where nothing is in flight and no other of the group is paused (R474), but not in SAFE (Table 11-8). Every bank
is precharged (R452). -/
def pumpRecal (s : State) : State :=
  if s.dev.state = .safe then s else
  s.each ((s.dram.chans.filter (fun e => e.2.recalDue)).map (·.1)) (fun s c =>
    let x := s.chan c
    if x.recal || !x.flight.isEmpty || x.sr != .no || s.dram.chans.any (fun e => e.2.recal && sameGroup e.1 c) then s
    else s.setChan c { x with recal := true, recalDue := false, openRow := [] })

/-- DRIFT_CHECK (R473). -/
def driftCheck (s : State) (m perMille : Nat) : State :=
  if s.num Obj.farDriftLimit < perMille then s.schedRecal (256 + m) else s

/-- A write of 1 to `STACK_RECAL_NOW` or `CH_RECAL_NOW`. -/
def recalNow (s : State) (u : Nat) : State :=
  if u < 8 then s.each ((List.range 32).map (32 * u + ·)) schedRecal else s.schedRecal (256 + (u - 8))

/-- RECAL_COMPLETE (R477): the pause ends; a failed margin check is repeated, and the third in a row fences the unit. -/
def recalComplete (s : State) (c : Nat) (ok : Bool) (margin : Nat) : State :=
  let x := s.chan c
  let u := dunitOf c
  if !x.recal then s
  else
    let s : State := s.setChan c { x with recal := false }
    let s : State := s.setNum (if u < 8 then Obj.stackEyeMargin u else Obj.chEyeMargin (u - 8)) margin
    if ok then (s.setChan c { s.chan c with recFails := 0 }).bump (if u < 8 then Obj.stackRecals u else Obj.chRecals (u - 8))
    else
      let n := (s.chan c).recFails + 1
      let s : State := (s.setChan c { s.chan c with recFails := n }).raise 0x6004 u
      if 3 ≤ n then (s.raise 0x6003 u).fenceUnit u 7 else s.schedRecal c

/-! ## Self-refresh (R465–R470) -/

/-- SR_ENTRY: a channel that is still idle enters self-refresh; an arrival before the entry command's cycle abandons it (R468), and those
that arrive in that cycle wait for exit, which begins (R469). -/
def srEntry (s : State) (m : Nat) : State :=
  let c := 256 + m
  let x := s.chan c
  if !bit (s.num Obj.idleSrEnable) m || !(s.dev.state == .service || s.dev.state == .degraded) || !s.chanServes c || x.sr != .no || x.recal
    then s
  else if x.wait.all (fun a => a.since / 2 == s.dev.now / 2) && x.rq.isEmpty && x.wq.isEmpty && x.flight.isEmpty then
    ((s.setChan c { x with sr := if x.wait.isEmpty then .idle else .exiting, openRow := [], owed := 0 }).bump (Obj.chSrEntries m)).bump
      (Obj.chSrWaits m) x.wait.length
  else s.bump (Obj.chSrAborts m)

/-- SR_EXIT_COMPLETE: the requests that waited are admitted from now on. -/
def srExit (s : State) (m : Nat) : State :=
  let x := s.chan (256 + m)
  if x.sr = .exiting then s.setChan (256 + m) { x with sr := .no } else s

/-! ## Temperature (R454–R456, R480, R481) -/

/-- A reading decides the refresh rate: fast from above 85 °C until at or below 83 °C. -/
def fastAt (old : Bool) (t : Int) : Bool := if 85000 < t then true else if t ≤ 83000 then false else old

/-- A DIMM's refresh rate changes (R456). -/
def setFast (s : State) (n : Nat) (fast : Bool) : State :=
  let x := s.slot n
  if x.fast = fast then s
  else
    let s : State := s.setSlot n { x with fast := fast }
    let s : State := if fast then s.setBit (Obj.chRefreshFast (n / 2)) (n % 2) else s.clearBit (Obj.chRefreshFast (n / 2)) (n % 2)
    s.raise (if fast then 0x6020 else 0x6021) (0x200 + n)

/-- DIMM_TEMP_POLL: the readings of a DIMM's two sensors, or a sideband transaction that failed. -/
def dimmTemp (s : State) (n : Nat) (t : Option (Int × Int)) : State :=
  let x := s.slot n
  if x.st = .empty ∨ x.st = .off ∨ x.st = .training ∨ x.st = .fenced then s
  else match t with
    | some (a, b) =>
      let hot := fastAt x.hot (max a b)
      (s.setSlot n { x with temp := max a b, fails := 0, hot := hot }).setFast n hot
    | none =>
      let s : State := (s.setSlot n { x with fails := x.fails + 1 }).raise 0x6031 n
      if 3 ≤ x.fails + 1 then s.setFast n true else s

/-- A stack's temperature (R454, R456). -/
def stackTemp (s : State) (k : Nat) (t : Int) : State :=
  let x := s.unit k
  let fast := fastAt x.fast t
  let s : State := s.setUnit k { x with temp := t, fast := fast }
  let s : State := s.setNum (Obj.stackRefreshFast k) (if fast then 1 else 0)
  if x.fast = fast then s else s.raise (if fast then 0x6020 else 0x6021) k

/-! ## Training and the fills (R439, R471, R500–R504, R518) -/

/-- Whether a channel has a DIMM to train. -/
def chanHas (s : State) (m : Nat) : Bool := (s.slot (2 * m)).st == .training || (s.slot (2 * m + 1)).st == .training

/-- The DIMMs that a start finds: an unsupported one is refused and its slot fenced, the others train (R439, R471, R479). -/
def findDimms (s : State) (ds : List (Option Spd)) : State :=
  let s : State := s.each (List.range 48) (fun s n => match ds.getD n none with
    | none => s
    | some x =>
      let s : State := s.setSlot n { FarSlot.empty with st := .training, spd := some x }
      if x.accepted then s else (s.raise 0x6030 n).fenceSlot n 7)
  let s : State := s.each (List.range 8) (fun s k => s.setUnit k { s.unit k with st := .training })
  s.each (List.range 24) (fun s m => if s.chanHas m then s.setUnit (8 + m) { s.unit (8 + m) with st := .training } else s)

/-- The serial number under which a row's repair is kept: its DIMM's, or 0 for a stack (R518). -/
def rowSerial (s : State) (c row : Nat) : BitVec 32 :=
  if isFar c then ((s.slot (2 * (c - 256) + row / 2 ^ 17 / 256)).spd.map (·.serial)).getD 0 else 0

/-- The stored rows of a unit that trains: repairs are made hard in a DIMM within the resources that it declares, which are open;
the others are remap entries again (R518). -/
def applyStored (s : State) (u : Nat) : State :=
  let mine := s.flash.rows.filter (fun e => dunitOf e.chan == u && s.rowSerial e.chan e.row == e.serial)
  s.each mine (fun s e =>
    let fits := decide (8 ≤ u) && e.repaired && s.drawFresh.1.getLsbD 0
    let s : State := if decide (8 ≤ u) && e.repaired then s.drawFresh.2 else s
    if fits then (s.bump Obj.repairsTotal).raise 0x700B u
    else match (List.range 16).find? (fun i => !(s.chan e.chan).remap.any (fun r => r.1 == i)) with
      | some i => (s.setChan e.chan { s.chan e.chan with remap := FMap.put (s.chan e.chan).remap i ⟨.remapped, e.row⟩ }).bump Obj.remapsTotal
      | none => s)

/-- Whether every unit of a range has ended its training. -/
def allTrained (s : State) (us : List Nat) : Bool := us.all (fun u => (s.unit u).st != .training)

/-- The near-tier fill runs once every stack has trained or is fenced (Table 16-5). -/
def beginFill (s : State) : State :=
  if s.dev.state = .init ∧ s.num Obj.nearFillState = 0 ∧ s.allTrained (List.range 8) then s.setNum Obj.nearFillState 1 else s

/-- TRAINING_ATTEMPT_DONE (R471). -/
def trainingDone (s : State) (u : Nat) (ok : Bool) : State :=
  let x := s.unit u
  if x.st ≠ .training then s
  else if ok then
    let s : State := (s.setUnit u { x with st := .inService }).raise 0x6001 u
    let s : State := if u < 8 then s else s.each [2 * (u - 8), 2 * (u - 8) + 1] (fun s n =>
      if (s.slot n).st = .training then s.setSlot n { s.slot n with st := .inService } else s)
    (s.applyStored u).beginFill
  else
    let s : State := (s.setUnit u { x with attempts := x.attempts + 1 }).raise 0x6002 u
    if 3 ≤ x.attempts + 1 then ((s.raise 0x6003 u).fenceUnit u 7).beginFill else s

/-- NEAR_FILL_COMPLETE (R500). -/
def nearFillDone (s : State) : State :=
  if s.num Obj.nearFillState = 1 then (s.setNum Obj.nearFillState 2).raise 0x700E else s

/-- The far slots that the background fill writes. -/
def fillSlots (s : State) : List Nat :=
  (List.range 48).filter (fun n => ((s.slot n).st == .inService || (s.slot n).st == .filling) && decide ((s.slot n).filled < s.bayCount (8 + n)))

/-- Whether the fill of a slot is held back: its requests are admitted only while no other waits at its channel (R502). -/
def fillHeld (s : State) (n : Nat) : Bool :=
  decide ((s.slot n).filled < s.bayCount (8 + n)) && !(s.chan (256 + n / 2)).wait.isEmpty

/-- Requests and jobs that wait for a far bay go on. -/
def wakeFar (s : State) : State := s.wakeAll 6 (fun r => r.stage == .tide)

/-- FAR_BAY_AVAILABLE (R501–R504): the fill, which runs in SERVICE and DEGRADED, has written one more bay of each slot that it
fills and where no other request waits, in rising order (DESIGN CHOICE of the pace, log 40). -/
def farBay (s : State) : State :=
  if s.dev.state = .service ∨ s.dev.state = .degraded then
    (s.each (s.fillSlots.filter (fun n => !s.fillHeld n)) (fun s n => s.setSlot n { s.slot n with filled := (s.slot n).filled + 1 })).wakeFar
  else s

/-- FAR_FILL_COMPLETE (R501). The fill cannot end while a bay is still to be written and other requests wait (R502). -/
def farFillDone (s : State) : State :=
  let ns := (List.range 48).filter (fun n => (s.slot n).st == .inService)
  if (s.dev.state = .service ∨ s.dev.state = .degraded) ∧ s.dram.farDone = false ∧ !ns.any s.fillHeld then
    let s : State := s.each ns (fun s n => s.setSlot n { s.slot n with filled := s.bayCount (8 + n) })
    (({ s with dram := { s.dram with farDone := true } }).raise 0x700F).wakeFar
  else s

/-! ## Scrubbing (R506–R511) -/

/-- The page whose bay holds a granule. -/
def pageAt (s : State) (k : Nat) : Option Nat :=
  let loc := keyLoc k
  match FMap.find 0 s.tide.bays (unitOf (keyTier k) loc * 2 ^ 24 + bayOf loc) with
  | 0 => none
  | p + 1 => some p

/-- V0 as a scrub read expects it. -/
def scrubV0 (s : State) (k : Nat) : Nat := match s.pageAt k with
  | some p => v0Of (s.pageMode p)
  | none => 0

/-- The other copy's granule of a mirrored page. -/
def otherCopy (s : State) (k : Nat) : Option Nat := match s.granOwner k with
  | some (p, c, i) =>
    let other := if c = s.copyA p then s.copyB p else s.copyA p
    if s.roleB p ≠ .mirror ∨ s.copyFenced other then none else some (other.key i)
  | none => none

/-- What one scrub read comes to (R508, R509). -/
def scrubHit (s : State) (h : ScrubHit) : State :=
  let k := gkey h.tier.toNat h.loc.toNat
  let unit := unitOf h.tier.toNat h.loc.toNat
  let skip := s.unitFenced unit || (s.queued k).isSome || (h.tier.toNat == 2 && decide (s.bayLimit unit ≤ bayOf h.loc.toNat))
  if skip then s
  else
    let v0 := s.scrubV0 k
    let o := s.decodeAt k h.errs v0
    let x := s.granOf k o
    let since := x.2.newId.1
    let s : State := x.2.newId.2
    match o with
    | .clean => s
    | .poisoned => s
    | .corrected _ => (s.noteCorrected k).condWrite k x.1 v0 (s.gmeta k).tweak since
    | o => match s.otherCopy k with
      | some kb =>
        let y := s.current kb v0
        if outGood y.2.1 then (((y.2.2.noteBad k o true).bump Obj.mirrorRecoveries).raise 0x7004 k).condWrite k y.1 v0 (s.gmeta k).tweak since
        else (s.noteBad k o false).condWrite k Gran.bad 0 0 since
      | none => (s.noteBad k o false).condWrite k Gran.bad 0 0 since

/-- The granules of a slice: its stack, and the filled bays of its far slots (R506). -/
def sliceSize (s : State) (k : Nat) : Nat :=
  2 ^ 30 + (((List.range 6).map (6 * k + ·)).map (fun n => (s.slot n).filled * 1024)).sum

/-- The far channels that a burst reads: that of the slice's place in its pass, and those of its outcomes. -/
def burstChans (s : State) (k : Nat) (hits : List ScrubHit) : List Nat :=
  let far := (List.range 6).foldl (fun (a : Nat × List Nat) i =>
      let n := 6 * k + i
      let size := (s.slot n).filled * 1024
      (a.1 + size, if a.1 ≤ FMap.find 0 s.dram.scrub k ∧ FMap.find 0 s.dram.scrub k < a.1 + size then [256 + n / 2] else a.2))
    (2 ^ 30, [])
  (far.2 ++ (hits.map (fun h => chanOf (gkey h.tier.toNat h.loc.toNat))).filter isFar).eraseDups

/-- SCRUB_BURST of a slice: 4,096 reads; they end the idle self-refresh of their channels (R507). -/
def scrubBurst (s : State) (k : Nat) (hits : List ScrubHit) : State :=
  if s.dev.state = .service ∨ s.dev.state = .degraded then
    let mine := hits.filter (fun h => dieOf h.tier.toNat h.loc.toNat == k && (h.tier == 1 || h.tier == 2))
    let s : State := s.each (s.burstChans k mine) (fun s c =>
      if (s.chan c).sr = .idle then (s.setChan c { s.chan c with sr := .exiting }).bump (Obj.chSrWaits (c - 256)) else s)
    let s : State := s.each mine scrubHit
    { s with dram := { s.dram with scrub := FMap.set 0 s.dram.scrub k (min (s.sliceSize k) (FMap.find 0 s.dram.scrub k + 4096)) } }
  else s

/-- SCRUB_PERIOD_END (R511). -/
def scrubEnd (s : State) (k : Nat) (complete : Bool) : State :=
  let s : State := { s with dram := { s.dram with scrub := FMap.set 0 s.dram.scrub k 0 } }
  if complete then ((s.bump Obj.scrubPasses).setNum Obj.scrubLastPassEnd s.time64).raise 0x700C k
  else (s.setNum Obj.scrubBehind 1).raiseSafety 0x700D k [7]

/-! ## Remapping and repair (R514, R516, R518) -/

/-- The stored rows without one row. -/
def dropRow (s : State) (c row : Nat) : State :=
  { s with flash := { s.flash with rows := s.flash.rows.filter (fun e => !(e.chan == c && e.row == row)) } }

/-- A row is kept in flash. -/
def keepRow (s : State) (c row : Nat) (repaired : Bool) : State :=
  let s : State := s.dropRow c row
  { s with flash := { s.flash with rows := s.flash.rows ++ [⟨c, s.rowSerial c row, row, repaired⟩] } }

/-- Copy a row to its spare row: what corrects is copied corrected, anything else as poison (R514). -/
def copyRow (s : State) (c row : Nat) : State :=
  let ks := (s.dram.gmeta.filter (fun e => chanOf e.1 == c && s.rowOf e.1 == row && !e.2.errs.isEmpty)).map (·.1)
  s.each ks (fun s k =>
    let v0 := (s.gmeta k).v0
    let o := s.decodeAt k [] v0
    let x := s.granOf k o
    x.2.putGran (if outGood o then ⟨k, x.1, v0, (s.gmeta k).tweak⟩ else ⟨k, Gran.bad, 0, 0⟩))

/-- REMAP_INSTALL_DONE. -/
def remapDone (s : State) (c i : Nat) : State :=
  match (s.chan c).remap.find? (fun e => e.1 == i && e.2.st == .installing) with
  | none => s
  | some (_, r) =>
    let s : State := s.copyRow c r.row
    let s : State := s.setChan c { s.chan c with remap := FMap.put (s.chan c).remap i ⟨.remapped, r.row⟩ }
    ((s.keepRow c r.row false).bump Obj.remapsTotal).raise 0x7008 c

/-- SOFT_REPAIR_DONE: the row is copied back and the entry is free. -/
def repairDone (s : State) (c i : Nat) : State :=
  match (s.chan c).remap.find? (fun e => e.1 == i && e.2.st == .remapped) with
  | none => s
  | some (_, r) =>
    if s.num Obj.pprEnable ≠ 1 then s
    else
      let s : State := s.setChan c { s.chan c with remap := (s.chan c).remap.filter (fun e => e.1 != i) }
      ((s.keepRow c r.row true).bump Obj.repairsTotal).raise 0x700A c

/-! ## Realms (R524–R528) -/

/-- The regions of a realm that are not FREE (8100.05). -/
def realmRegions (s : State) (r : Nat) : Nat := (s.ctl.regions.filter (fun e => e.2.holds && e.2.counts.realm == r)).length

/-- A realm action is answered, with its status. -/
def realmAns (s : State) (r : Nat) (st : Status) : WAns × State := (.now st 0, s.setNum (Obj.realmStatus r) st.code)

/-- 256 bits from the on-die entropy source. -/
def wideDraw (n : Nat) : BitVec 256 :=
  Config.fresh n ++ Config.fresh (n + 1) ++ Config.fresh (n + 2) ++ Config.fresh (n + 3)

/-- The keys that the draws from n on give: the tweak key is drawn again while it equals the data key (R524). The draws of a key that is
thrown away are taken from the 64 that follow. -/
def keyPair (n : Nat) : BitVec 256 × BitVec 256 :=
  let a := wideDraw n
  (a, (((List.range 16).map (fun i => wideDraw (n + 4 + 4 * i))).find? (· != a)).getD (~~~ a))

/-- A realm takes a fresh key pair. -/
def newKeys (s : State) (r : Nat) : State :=
  let n := s.dev.fresh
  let s : State := { s with dev := { s.dev with fresh := n + 68 } }
  ({ s with ctl := { s.ctl with realms := FMap.set 0 s.ctl.realms r 1, keys := FMap.put s.ctl.keys r (keyPair n) } }).bump
    (Obj.realmKeyGeneration r)

/-- ENABLE (R524, R526). -/
def realmEnable (s : State) (r : Nat) : WAns × State :=
  if s.realmOn r then s.realmAns r .modeConflict else (s.newKeys r).realmAns r .ok

/-- DISABLE (R525, R526). -/
def realmDisable (s : State) (r : Nat) : WAns × State :=
  if r = 0 ∨ s.realmRegions r ≠ 0 then s.realmAns r .modeConflict
  else
    let s : State := { s with ctl := { s.ctl with realms := FMap.set 0 s.ctl.realms r 0, keys := FMap.del s.ctl.keys r } }
    let s : State := { s with dram := { s.dram with keyBad := s.dram.keyBad.filter (fun e => e.2 != r) } }
    s.realmAns r .ok

/-- A write to `REALM_MASK` (R527). -/
def realmMaskWrite (s : State) (r v : Nat) : WAns × State :=
  if s.num (Obj.realmMask r) &&& v ≠ s.num (Obj.realmMask r) ∧ s.realmRegions r ≠ 0 then (.now .modeConflict 0, s)
  else (.now .ok 0, s.setLater (Obj.realmMask r) v)

/-- KEY_RELOAD_DONE (R528): a key with a parity fault is reloaded, or no hub copy checks good and the realm's data in that die is
lost. -/
def keyReload (s : State) (k r : Nat) (hubOk : Bool) : State :=
  if !s.realmOn r then s
  else if hubOk then s.raise 0x7013 (k + 256 * r)
  else
    let s : State := { s with dram := { s.dram with keyBad := if s.dram.keyBad.contains (k, r) then s.dram.keyBad else s.dram.keyBad ++ [(k, r)] } }
    s.raiseSafety 0x7013 (k + 256 * r + 2 ^ 31) [6]

/-! ## Far-slot service (R290–R293, R482) -/

/-- SLOT_OFF: the PMIC output is off, and the other DIMM resumes. -/
def slotOffDone (s : State) (n : Nat) : State :=
  if (s.slot n).st = .evacuated ∧ (s.chan (256 + n / 2)).sr = .held then
    (s.holdOther n false).setSlot n { FarSlot.empty with st := .off } |>.raise 0x2013 n
  else s

/-- The status of a failure for which no code is stated: any but OK, by a draw. -/
def openStatus (s : State) : Status × State :=
  let bad : List Status := [.retryLater, .poison, .capacity, .denied, .unmapped, .cancelled, .timeout, .lost, .damaged, .modeConflict, .unsupported]
  (bad.getD (s.drawFresh.1.toNat % 11) .damaged, s.drawFresh.2)

/-- A RETURN fails: the failure is recorded, under a status code that is open. -/
def returnFails (s : State) (n : Nat) : WAns × State :=
  let x := s.openStatus
  (x.2.raise 0x2016 n).slotFin x.1

/-- RETURN (R292, R293, R520): the DIMM is read, powered and trained, and its fill begins; or the slot stays
OFF. -/
def slotReturn (s : State) (n : Nat) (spd : Option Spd) (powerOk trainOk : Bool) : WAns × State :=
  if (s.slot n).st ≠ .off ∨ bit (s.num Obj.fencedChannels) (n / 2) then s.slotFin .modeConflict
  else match spd with
    | some x =>
      if x.accepted && powerOk && trainOk then
        let u := 8 + n / 2
        let s : State := s.setUnit u { s.unit u with st := .inService }
        let s : State := s.setSlot n { FarSlot.empty with st := .filling, spd := some x }
        ((s.applyStored u).raise 0x2014 n).slotFin .ok
      else
        let s : State := if x.accepted then s else s.raise 0x6030 n
        s.returnFails n
    | none => s.returnFails n

/-- SLOT_FILL_COMPLETE (R293, R502): the slot is IN_SERVICE, and its fence, if it had one, ends. -/
def slotFilled (s : State) (n : Nat) : State :=
  if (s.slot n).st = .filling ∧ !s.fillHeld n then
    let s : State := s.setSlot n { s.slot n with st := .inService, filled := s.bayCount (8 + n) }
    (((s.clearBit Obj.fencedSlots n).raise 0x2015 n).toService).wakeFar
  else s

/-- A write to `NEAR_RESERVABLE_CAP` (R151): refused where it would lower the capacity below the sum of the limits. -/
def nearCapWrite (s : State) (v : Nat) : WAns × State :=
  let t : State := s.setNum Obj.nearReservableCap v
  if t.nearReservable < s.nearReservable ∧ t.nearReservable < s.nearLimits then (.now .capacity 0, s) else (.now .ok 0, t)

/-! ## Lent reads (R282, R283, R523) -/

/-- LENT_READ_COMPLETION: `good` says that the check word matches. -/
def lentDone (s : State) (id : Nat) (good : Bool) : State :=
  match s.tide.lentRds.find? (fun x => x.id == id && x.st == .issued) with
  | some x =>
    let s : State := s.dropLentRead id
    if good then
      let s : State := s.setLent x.range { s.lent x.range with run := 0 }
      s.each x.keys (fun s k => s.receive x.req k k ⟨s.memGran k, (s.gmeta k).poison⟩)
    else
      let s : State := ((s.bump Obj.lentCheckFails).raise 0x7011 x.range).recordErr 5 (x.keys.headD 0)
      (s.fromFar x).lentFail x.range
  | none =>
    if s.lentOwed id then
      ({ s with tide := { s.tide with lentGone := s.tide.lentGone.filter (fun g => g.1 != id) } }).bump Obj.lentLateCompletions
    else s

/-- LENT_READ_TIMEOUT (R282, R591). -/
def lentTimeout (s : State) (id : Nat) : State :=
  match s.tide.lentRds.find? (fun x => x.id == id) with
  | some x =>
    let s : State := s.dropLentRead id
    let s : State := if x.st = .issued then { s with tide := { s.tide with lentGone := s.tide.lentGone ++ [(id, s.lentAddr (x.keys.headD 0) / 65536)] } } else s
    ((s.bump Obj.lentTimeouts).fromFar x).lentFail x.range
  | none => s

/-! ## Safety rows (R549, Table 11-7) -/

/-- A write of 1 to `SAFETY_ACK`: what is latched in the same AON cycle is counted after it. -/
def safetyAck (s : State) : State := (s.setNum Obj.alertPending s.latchedNow).raise 0x8050

/-- A write of 1 to `ALERT_TEST`: event 0x8051 on all four paths. -/
def alertTestOn (s : State) : State :=
  let s : State := (((s.raise 0x8051).pendIrq 0).sendLinkEvent 0x8051).logBackup 0x8051 0 false false
  { s with dev := { s.dev with alertTest := true } }

/-- The end of the alert test's 10 ms. -/
def alertTestOff (s : State) : State := { s with dev := { s.dev with alertTest := false } }

end State

end Sys2Proof.Machine
end

