-- ==== Sys2Proof/Machine/EpOps.lean ====
section
/-! DEFINITION. What the host does at the endpoint: TLPs, doors, configuration requests, address translation, DMA, function-level
reset and PERST_N, and the BAR0 registers (chapter 12). -/

namespace Sys2Proof.Machine

namespace State

/-- Set the endpoint. -/
def setEp (s : State) (e : Ep) : State := { s with ep := e }

/-! ## Interrupt level (R585) -/

/-- Whether INTA is asserted. -/
def inta (s : State) : Bool := !s.ep.msixEn && !s.ep.intDis && s.ep.intxCause != 0

/-- Change the endpoint; a change of the INTA level is sent. -/
def withInta (s : State) (f : State → State) : State :=
  let t := f s
  if t.inta = s.inta then t else t.emit (.inta t.inta)

/-- A write-one-to-clear of INTX_CAUSE: a bit that a cause has set in the same cycle stays set (R585). -/
def intxClear (s : State) (v : U64) : State :=
  let kept : U64 := if s.ep.intxSet.1 = s.dev.now + 1 then s.ep.intxSet.2 else 0
  if s.decodes then s.withInta (fun s => s.setEp { s.ep with intxCause := s.ep.intxCause &&& ~~~ (v &&& ~~~ kept) }) else s

/-! ## Memory TLPs (R571–R577) -/

/-- A TLP that E1 does not decode: a non-posted one completes with Unsupported Request, unless a reset or the link is the cause
(PRESUMED from PCI Express, log 41). -/
def notDecoded (s : State) (id : Nat) (posted : Bool) : State :=
  if posted || s.ep.flr || s.ep.perst || !s.ep.linkUp then s else s.sendCpl id 1 false []

/-- A memory read TLP to BAR2. -/
def readTlp (s : State) (t : Tlp) : State :=
  if !s.decodes then s.notDecoded t.id false
  else (s.bump Obj.epReadTlps).enterTlp t.id .read t.ro (s.readLines (s.bar2Addr t.off.toNat) t.len)

/-- A memory write TLP to BAR2. -/
def writeTlp (s : State) (t : Tlp) (be : List Bool) (data : List Byte) : State :=
  if !s.decodes then s.notDecoded t.id true
  else
    let s : State := s.bump Obj.epWriteTlps
    let s : State := if t.ep then ((s.bump Obj.epPoisonReceived).emit (.aer .poisonedTlp)).raise 0xC011 else s
    s.enterTlp t.id .write t.ro (writeLines (s.bar2Addr t.off.toNat) be data t.ep)

/-- ATTR of an AtomicOp: the operand size (Table 07-3). -/
def atomAttr (len : Nat) : BitVec 8 := if len = 8 then 3 else 2

/-- A FetchAdd or CAS TLP. -/
def atomicTlp (s : State) (t : Tlp) (op : ReqOp) : State :=
  if !s.decodes then s.notDecoded t.id false
  else s.enterTlp t.id .atomic false [⟨s.bar2Addr t.off.toNat, 0, t.len, op, atomAttr t.len, 0⟩]

/-- A Swap or 128-bit CAS TLP completes with Unsupported Request (Table 12-3). -/
def swapTlp (s : State) (t : Tlp) : State := if !s.decodes then s.notDecoded t.id false else s.sendCpl t.id 1 false []

/-- A read of the FENCE door (R573). -/
def fenceDoor (s : State) (id : Nat) : State :=
  if !s.decodes then s.notDecoded id false else s.enterTlp id .fence false [⟨0, 0, 8, .fence, 0, 0⟩]

/-! ## Bollard doors (R578–R580) -/

/-- A CONTROL write: Bollard, operation, timeout code and the IRQ bit. -/
def doorLaunch (s : State) (d : Fin 56) (bol : Nat) (k : BolOp) (t : Nat) (irq : Bool) : State :=
  if !s.decodes then s
  else
    let x := s.door d.val
    if x.busy then (s.bump Obj.doorBusyDrops).raise 0xC016 d.val
    else
      let s : State := s.setDoor d.val { x with busy := true, irq := irq }
      s.enter ⟨.ep, BitVec.ofNat 12 d.val, 0, 0, false, BitVec.ofNat 8 t, BitVec.ofNat 64 bol, none⟩ (.bol k x.operand) 0 (.door d)

/-- A bad BAR0 access (R567). -/
def badBar0 (s : State) : State := if s.decodes then (s.bump Obj.bar0BadAccesses).raise 0xC017 else s

/-- A bad BAR0 read or write: a read returns all ones (R567). -/
def badAccess (s : State) (isWrite : Bool) : State :=
  let t := s.badBar0
  if s.decodes && !isWrite then t.emit .onesRead else t

/-- A Bollard operation by its opcode. -/
def bolOfOpc : Nat → Option BolOp
  | 0x20 => some .add | 0x21 => some .signal | 0x22 => some .reset | 0x23 => some .waitGe | 0x24 => some .arrive | 0x25 => some .cancel
  | _ => none

/-- A write to a BAR0 register that only holds its value, or to a door's CONTROL (Table 12-6). -/
def bar0Write (s : State) (r : Bar0Reg) (v : U64) : State :=
  if !s.decodes then s
  else match r with
    | .ringBase => if s.mgmt.ring.st ≠ 0 then s.badBar0 else s.setEp { s.ep with ringBase := v }
    | .shadowAddr => s.setEp { s.ep with shadow := v }
    | .doorOperand d => s.setDoor d.val { s.door d.val with operand := v }
    | .doorControl d => match bolOfOpc (bits v.toNat 21 16) with
      | some k => s.doorLaunch d (bits v.toNat 13 0) k (bits v.toNat 26 22) (bit v.toNat 27)
      | none => s.badBar0
    | .msixTable i => s.setEp { s.ep with msix := FMap.set 0 s.ep.msix i.val v }

/-! ## Loss of bus mastering (R587) -/

/-- Withdraw a range without a reply. -/
def dropLent (s : State) (r : Nat) : State :=
  let x := s.lent r
  if x.active then (s.setLent r { x with active := false, draining := true, reply := none }).leaveLent r else s

/-- The channels in state `a` go to state `b`. -/
def dmaTurn (s : State) (a b : Nat) : State :=
  s.each ((List.range 4).filter (fun ch => s.num (Obj.dmaState ch) == a)) (fun s ch => s.setNum (Obj.dmaState ch) b)

/-- Bus mastering in D0 ends. -/
def busLost (s : State) : State := ((s.dmaTurn 0 3).each (s.tide.lents.map (·.1)) dropLent).raise 0xC018

/-- Change the endpoint; the end of bus mastering in D0 has its effect, and its start lets stopped channels go on. -/
def withBus (s : State) (f : State → State) : State :=
  let t := f s
  if s.mastering && !t.mastering then t.busLost else if t.mastering && !s.mastering then t.dmaTurn 3 0 else t

/-! ## Configuration requests (R566, R597–R599) -/

/-- D0 is reached: WAKE_N ends. -/
def toD0 (s : State) : State := if s.ep.wake then (s.setEp { s.ep with wake := false }).emit (.wakeN false) else s

/-- The effect of a configuration write. D1 and D2 are not supported, and a timeout outside R591's range is not taken. -/
def configWrite (s : State) (op : CfgOp) : State :=
  match op with
  | .read => s
  | .other => s
  | .dState d =>
    if d = 1 ∨ d = 2 ∨ d.toNat = s.ep.dState then s
    else
      let s : State := s.withBus (fun s => s.setEp { s.ep with dState := d.toNat })
      let s : State := s.raise 0xC004 d.toNat
      if d = 0 then s.toD0 else s
  | .busMaster b => s.withBus (fun s => s.setEp { s.ep with busMaster := b })
  | .memEnable b => s.setEp { s.ep with memEnable := b }
  | .intDisable b => s.withInta (fun s => s.setEp { s.ep with intDis := b })
  | .msixEnable b => s.withInta (fun s => s.setEp { s.ep with msixEn := b })
  | .atsEnable b =>
    let rds := if b then s.tide.lentRds else s.tide.lentRds.map (fun x => if x.st = .translating then { x with st := .formed } else x)
    { s with ep := { s.ep with atsEn := b, atc := [] }, tide := { s.tide with lentRds := rds } }
  | .pmeEn b => s.setEp { s.ep with pmeEn := b }
  | .cplTimeout us => if 50 ≤ us ∧ us ≤ 4000000 then s.setEp { s.ep with timeoutUs := us } else s
  | .rcb128 b => s.setEp { s.ep with rcb128 := b }

/-- CONFIG_REQUEST: retried until the endpoint is ready (R566). -/
def configRequest (s : State) (id : Nat) (op : CfgOp) : State :=
  if s.ep.perst || !s.ep.linkUp then s
  else if !s.ep.ready || s.ep.flr then s.emit (.cfgCpl id true)
  else (s.configWrite op).emit (.cfgCpl id false)

/-! ## Address translation (R588–R590) -/

/-- INVALIDATE_REQUEST. -/
def invalidate (s : State) (base len : Nat) : State :=
  let hit (p : Nat) : Bool := decide (base < p * 65536 + 65536 ∧ p * 65536 < base + len)
  let gone := s.ep.atc.filter hit
  let reads := (s.tide.lentRds.filter (fun x => x.st == .issued && gone.contains (s.lentAddr (x.keys.headD 0) / 65536))).map (·.id)
    ++ (s.tide.lentGone.filter (fun g => gone.contains g.2)).map (·.1)
  let was := if s.ep.atcWas.1 = s.dev.now + 1 then s.ep.atcWas.2 else s.ep.atc
  s.setEp { s.ep with
    atc := s.ep.atc.filter (fun p => !hit p), atcWas := (s.dev.now + 1, was), inval := s.ep.inval ++ [⟨s.dev.now, reads⟩] }

/-- INVALIDATION_COMPLETE: the first invalidation whose requests have all ended. -/
def invalidated (s : State) : State :=
  let open_ (id : Nat) : Bool := s.tide.lentRds.any (fun x => x.id == id && x.st == .issued) || s.lentOwed id
  match s.ep.inval.find? (fun x => !x.reads.any open_) with
  | none => s
  | some x =>
    let s : State := s.setEp { s.ep with inval := s.ep.inval.erase x }
    ((s.bump Obj.atsInvalidations).atLeast Obj.atsInvalTimeMax ((s.dev.now - x.since) / 2)).emit .invalidated

/-- ATS_TRANSLATION_COMPLETE. -/
def translated (s : State) (id : Nat) (ok : Bool) : State :=
  match s.tide.lentRds.find? (fun x => x.id == id && x.st == .translating) with
  | none => s
  | some x =>
    if ok then
      let page := s.lentAddr (x.keys.headD 0) / 65536
      let atc := s.ep.atc.filter (· != page) ++ [page]
      let s : State := s.setEp { s.ep with atc := atc.drop (atc.length - 1024) }
      { s with tide := { s.tide with lentRds := updFirst (fun (q : LentRead) => q.id == id) (fun q => { q with st := .formed }) s.tide.lentRds } }
    else (((s.dropLentRead id).bump Obj.atsDenials).fromFar x).lentFail x.range

/-! ## DMA (R591–R593) -/

/-- A channel halts with a status. -/
def haltDma (s : State) (ch : Nat) (st : Status) : State :=
  ((s.setNum (Obj.dmaState ch) 2).setNum (Obj.dmaHaltStatus ch) st.code).raise 0xC014 ch |>.pendIrq 5

/-- DMA_COMPLETION. A lent read's is used or dropped by R282; any that nothing waits for is late. The requests of the other channels
are not tracked: a completion there is one that was awaited (log 42). -/
def dmaCompletion (s : State) (ch id : Nat) (ep : Bool) : State :=
  let known := ch != 0 || s.tide.lentRds.any (fun x => x.id == id && x.st == .issued) || s.lentOwed id
  if !known then (s.bump Obj.lateCompletions).raise 0xC013 ch
  else
    let s : State := if ep then (s.haltDma ch .poison).raise 0x7016 ch else s
    if ch = 0 then
      if ep then match s.tide.lentRds.find? (fun x => x.id == id) with
        | some x => (s.dropLentRead id).fromFar x
        | none => s.lentDone id true
      else s.lentDone id true
    else s

/-- COMPLETION_TIMEOUT: a tag is free again; TRACE and RING halt. A lent read is still served by R282. -/
def cplTimeout (s : State) (ch id : Nat) : State :=
  let known := ch != 0 || s.tide.lentRds.any (fun x => x.id == id && x.st == .issued) || s.lentOwed id
  if !known then s
  else
    let s : State := (s.bump Obj.cplTimeouts).raise 0xC012 ch
    if ch = 0 then { s with tide := { s.tide with
      lentRds := updFirst (fun (q : LentRead) => q.id == id) (fun q => { q with st := .expired }) s.tide.lentRds
      lentGone := s.tide.lentGone.filter (fun g => g.1 != id) } }
    else if 2 ≤ ch then s.haltDma ch .timeout
    else s

/-- A write to `DMA_RESTART`: a halted channel is IDLE, or STOPPED where R587 stops it. -/
def dmaRestart (s : State) (v : Nat) : State :=
  s.each ((List.range 4).filter (fun ch => bit v ch && s.halted ch)) (fun s ch => s.setNum (Obj.dmaState ch) (if s.mastering then 0 else 3))

/-! ## Function-level reset, PERST_N and the link (R594–R598) -/

/-- The effects of a function-level reset (Table 12-11). -/
def resetFunction (s : State) : State :=
  let e := s.ep
  let s : State := s.bump Obj.flrCount
  let s : State := s.withBus (fun s => s.withInta (fun s => s.setEp { Ep.reset with
    linkUp := e.linkUp, perst := e.perst, flr := true, ready := false, pmeEn := e.pmeEn, wake := e.wake, ringBase := e.ringBase
    shadow := e.shadow, descGen := e.descGen
    tlps := e.tlps.map (fun t => if t.kind = .write then t else { t with ended := true }) }))
  let s : State := s.each (List.range 4) (fun s ch => (s.setNum (Obj.dmaState ch) 0).setNum (Obj.dmaHaltStatus ch) 0)
  let posted (r : Req) : Bool := match r.via with
    | .tlp t _ => s.ep.tlps.any (fun x => x.serial == t && x.kind == .write)
    | _ => false
  let gone := s.path.reqs.filter (fun r => r.stage == .waiting && r.hdr.src == .ep && r.via != .internal && !posted r)
  let s : State := s.each gone (fun s r => s.dropReq r.id)
  let s : State := s.cancelWaiters (fun w => w.src == .ep)
  let s : State := s.grantsEnd
  let s : State := s.each s.tide.lentRds (fun s x => (s.dropLentRead x.id).fromFar x)
  { s with tide := { s.tide with lentGone := [] } }

/-- FUNCTION_LEVEL_RESET. -/
def flrStart (s : State) : State :=
  if s.ep.ready && !s.ep.flr && !s.ep.perst then
    let t := s.resetFunction.toD0
    if s.ep.dState = 0 then t else t.raise 0xC004 0
  else s

/-- FLR_COMPLETE. -/
def flrDone (s : State) : State :=
  if s.ep.flr && !s.ep.perst then (s.setEp { s.ep with flr := false, ready := true }).raise 0xC003 else s

/-- PERST_N_ASSERT: as a function-level reset, and the link is down. From D3hot the function goes to D3cold (PRESUMED, log 43), with
WAKE_N as it is (R599). -/
def perstOn (s : State) : State :=
  if s.ep.perst then s
  else
    let cold := s.ep.dState == 3
    let up := s.ep.linkUp
    let s : State := s.resetFunction
    let s : State := s.setEp { s.ep with perst := true, linkUp := false, dState := if cold then 4 else s.ep.dState }
    let s : State := if cold then s.raise 0xC004 4 else s
    let s : State := ((s.setNum Obj.epLinkRate 0).setNum Obj.epLinkWidth 0).raise 0xC005
    if up then s.raise 0xC002 else s

/-- PERST_N_DEASSERT: the endpoint is ready again by R566. -/
def perstOff (s : State) : State :=
  if !s.ep.perst then s
  else
    let s : State := if s.ep.dState = 4 then s.raise 0xC004 0 else s
    (s.setEp { s.ep with perst := false, flr := false, dState := 0 }).toD0

/-- ENDPOINT_READY. -/
def epReady (s : State) : State :=
  if s.ep.perst || s.ep.flr || s.dev.state == .off || s.dev.state == .backup || s.dev.state == .reset then s
  else s.setEp { s.ep with ready := true }

/-- PCIE_LINK_UP. -/
def pcieUp (s : State) (width rate : Nat) : State :=
  if s.ep.perst || s.dev.state == .off || s.dev.state == .backup || s.dev.state == .reset then s
  else ((s.setNum Obj.epLinkRate rate).setNum Obj.epLinkWidth width).setEp { s.ep with linkUp := true } |>.raise 0xC001 (width + 256 * rate)

/-- PCIE_LINK_DOWN: completions that were owed have no link to travel on. -/
def pcieDown (s : State) : State :=
  if !s.ep.linkUp then s
  else
    let e := s.ep
    let tlps := e.tlps.map (fun t => if t.kind = .write then t else { t with ended := true })
    ((s.setNum Obj.epLinkRate 0).setNum Obj.epLinkWidth 0).setEp { e with linkUp := false, tlps := tlps } |>.raise 0xC002

/-! ## The snoop queue (R582) -/

/-- A write to SNOOP_ANSWER. -/
def sqAnswer (s : State) (tag : BitVec 12) : State :=
  if !s.decodes then s
  else s.snoopAnswer .ep tag false none

/-- A write to SQ_HEAD. -/
def sqHead (s : State) (v : Nat) : State := if s.decodes then s.setEp { s.ep with sqHead := v } else s

end State

end Sys2Proof.Machine
end

