-- ==== Sys2Proof/Machine/MgmtOps.lean ====
section
/-! DEFINITION. The management complex: host rings, management cores, the power and thermal loops, and the battery-backed log
(chapter 13). -/

namespace Sys2Proof.Machine

namespace State

/-! ## Binding (R614–R619) -/

/-- RING_STATUS (Table 13-5). -/
def ringStatus (s : State) : Nat :=
  let r := s.mgmt.ring
  r.st + r.side * 8 + r.reason * 256 + r.bit * 65536

/-- The base of the ring region as RING_BASE names it. -/
def ringBase (s : State) : Nat := s.ep.ringBase.toNat % 2 ^ 44

/-- Binding is REFUSED with a reason. -/
def ringRefuse (s : State) (reason : Nat) : State :=
  let s : State := s.setRing { s.mgmt.ring with st := 4, reason := reason }
  s.raise 0x9012 s.ringStatus

/-- Stage the attributes of region 4,095 (R615); every other one keeps its default. -/
def stageRing (s : State) : State :=
  let k := 4095
  let s : State := s.each ((List.range 0x0F).map (fun i => okey (0x4000 + k) (2 + i)) ++ [Obj.regionIngestBytes k]) toDefault
  let vs := [(Obj.regionBase k, s.ringBase), (Obj.regionLength k, 0x200000), (Obj.regionFormat k, 0), (Obj.regionCompression k, 0),
    (Obj.regionTierPolicy k, 1), (Obj.regionCoherence k, 3), (Obj.regionRealm k, 0), (Obj.regionPortMask k, 0x10000),
    (Obj.regionSession k, 1023), (Obj.regionDefaultClass k, s.num Obj.epControlClass)]
  s.each vs (fun s (e : Nat × Nat) => s.setNum e.1 e.2)

/-- Binding succeeds. -/
def ringBound (s : State) : State := (s.setRing { s.mgmt.ring with st := 2, base := s.num (Obj.regionBase 4095) }).raise 0x9010

/-- Core L opens session 1,023 and commits region 4,095. The actions run with the rings' own reservation of both set aside
(R614). A session that cannot be opened is recorded as a failed commit (DEDUCED, log 44). -/
def ringStart (s : State) : State :=
  if 2 ^ 44 < s.ringBase + 0x200000 then s.ringRefuse 4
  else
    let r := s.mgmt.ring
    let fail (s : State) (key : Nat) : State :=
      ((s.setSession 1023 Session.closed).setRing { r with st := 1 } |>.setNum Obj.ringCommitReason (s.num key)).ringRefuse 3
    let s : State := s.setRing { r with st := 0 }
    let s : State := ((s.setNum (Obj.sessionNearLimit 1023) 32).setNum (Obj.sessionFarLimit 1023) 0)
    let a := s.sessionOpen 1023 s.ringWho
    match a.1 with
    | .now .ok _ =>
      let s : State := a.2.stageRing
      let c := s.regionCommit 4095 s.ringWho
      match c.1 with
      | .now .ok _ => (c.2.setRing { r with st := 1 }).ringBound
      | .now _ _ => fail c.2 (Obj.regionReason 4095)
      | .later => c.2.setRing { r with st := 1 }
    | _ => fail a.2 (Obj.sessionReason 1023)

/-- ENABLE (R615): before the near-tier fill has completed the ring stays in BINDING. The indices start at 0 (log 45). -/
def ringEnable (s : State) : State :=
  if s.mgmt.ring.st ≠ 0 then s.badBar0
  else
    let s : State := s.setRing { Ring.reset with st := 1, bells := s.mgmt.ring.bells }
    if s.num Obj.nearFillState ≠ 2 then s
    else if (s.session 1023).isOpen ∨ (s.region 4095).st ≠ .free then s.ringRefuse 2
    else s.ringStart

/-- RING_BIND_COMPLETE (R616). -/
def ringBindDone (s : State) : State :=
  let r := s.region 4095
  if s.mgmt.ring.st ≠ 1 ∨ s.num Obj.nearFillState ≠ 2 then s
  else if !(s.session 1023).isOpen then s.ringStart
  else if r.st = .open ∧ r.act = .none then s.ringBound
  else s

/-- DISABLE (R618). The session closes at once, while its region retires (log 46). -/
def ringDisable (s : State) : State :=
  if s.mgmt.ring.st = 0 then s.badBar0
  else
    let s : State := s.setRing { Ring.reset with bells := s.mgmt.ring.bells }
    let r := s.region 4095
    let s : State := if r.act = .commit ∧ r.st = .free then s.setRegion 4095 Region.free
      else (s.regionRetire 4095).2
    (s.setSession 1023 Session.closed).raise 0x9013

/-! ## Feature negotiation (R628–R630, Table 13-9) -/

/-- The device's offer and its mandatory set. -/
def deviceFeatures : BitVec 128 := 0x3FF
def deviceMandatory : BitVec 128 := 1

/-- Write ring bytes as the endpoint master; a write that cannot be performed leaves the pool as it was. -/
def ringPut (s : State) (off : Nat) (bs : List Byte) : State := (s.devWrite (s.mgmt.ring.base + off) bs).getD s

/-- OFFER. -/
def ringOffer (s : State) : State :=
  let r := s.mgmt.ring
  if !(r.st = 2 ∨ (r.st = 4 ∧ r.reason = 1)) then s.badBar0
  else
    let s : State := s.ringPut 32 (leBytes 16 deviceFeatures.toNat ++ leBytes 16 deviceMandatory.toNat)
    let hf : BitVec 128 := BitVec.ofNat 128 (leNat (s.devRead r.base 16))
    let hm : BitVec 128 := BitVec.ofNat 128 (leNat (s.devRead (r.base + 16) 16))
    let agreed := hf &&& deviceFeatures
    let miss (i : Nat) : Bool := (deviceMandatory ||| hm).getLsbD i && !agreed.getLsbD i
    match (List.range 128).find? miss with
    | some i =>
      let s : State := s.setRing { r with st := 4, reason := 1, bit := i, side := if deviceMandatory.getLsbD i then 1 else 0 }
      s.raise 0x9012 s.ringStatus
    | none =>
      let s : State := s.ringPut 64 (leBytes 16 agreed.toNat ++ leBytes 4 2)
      (s.setRing { r with st := 3, side := 0, reason := 0, bit := 0, agreed := agreed }).raise 0x9011 (agreed.toNat % 2 ^ 32)

/-! ## Doorbells (R620–R622, R624) -/

/-- A HEAD write frees entries, or is a bad access (R621). -/
def ringHead (s : State) (r : HeadReg) (v : Nat) : State :=
  let x := s.mgmt.ring
  match r with
  | .cpl => if 4096 < ringUse x.cplTail v then s.badBar0 else s.setRing { x with cplHead := v }
  | .evt => if 16384 < ringUse x.evtTail v then s.badBar0 else s.setRing { x with evtHead := v }
  | .log => if 16384 < ringUse x.logTail v then s.badBar0 else s.setRing { x with logHead := v }

/-- A doorbell takes effect. -/
def ringBell (s : State) (b : Bell) : State :=
  match b with
  | .enable => s.ringEnable
  | .offer => s.ringOffer
  | .disable => s.ringDisable
  | .cmdTail v => s.setRing { s.mgmt.ring with cmdTail := v }
  | .head r v => s.ringHead r v

/-- The write TLPs of the endpoint that are in flight. -/
def writesInFlight (s : State) : List Nat := (s.ep.tlps.filter (fun t => t.kind == .write)).map (·.serial)

/-- Doorbells whose earlier write TLPs are performed take effect, in order. -/
def pumpBells : Nat → State → State
  | 0, s => s
  | n + 1, s =>
    match s.mgmt.ring.bells with
    | [] => s
    | (ws, b) :: rest =>
      if ws.any (fun w => s.writesInFlight.contains w) then s
      else pumpBells n ((s.setRing { s.mgmt.ring with bells := rest }).ringBell b)

/-- A doorbell is written: it takes effect after every earlier write TLP (R620). -/
def bell (s : State) (b : Bell) : State :=
  if !s.decodes then s else s.setRing { s.mgmt.ring with bells := s.mgmt.ring.bells ++ [(s.writesInFlight, b)] }

/-- SHADOW_WRITE (R624). -/
def shadowWrite (s : State) : State :=
  let r := s.mgmt.ring
  if !s.ringHas 4 || !r.shadow || s.ep.shadow = 0 || !s.dmaOn || s.halted 3 then s
  else
    let bs := leBytes 4 r.cmdHead ++ leBytes 4 r.cplTail ++ leBytes 4 r.evtTail ++ leBytes 4 r.logTail ++ zeros 16
    ((s.setRing { r with shadow := false }).bump Obj.shadowWrites).emit (.dmaWrite 3 s.ep.shadow.toNat bs)

/-! ## Commands (R626, Table 13-7) -/

/-- Whether Core L can take a command: there is one, the last one's completion is written, and the completion ring has room. One
that uses the host buffer waits for DMA (R587). -/
def cmdReady (s : State) (e : CmdEntry) : Bool :=
  let r := s.mgmt.ring
  r.st == 3 && r.busy.isNone && r.cmdHead != r.cmdTail && s.coreRuns 2 && decide (ringUse r.cplTail r.cplHead < 4096)
    && (e.bufLen == 0 || (s.dmaOn && !s.halted 3))

/-- Core L takes the command at CMD_HEAD; one whose feature is not agreed completes with UNSUPPORTED. -/
def ringCmd (s : State) (e : CmdEntry) (feature : Nat) (f : State → State) : State :=
  if !s.cmdReady e then s
  else
    let r := s.mgmt.ring
    let s : State := s.setRing { r with busy := some (e.cmdId, e), cmdHead := (r.cmdHead + 1) % 2 ^ 32, shadow := true }
    if !s.ringHas feature then s.finishCmd .unsupported 0 [] 0 else f s

/-- NOP; it needs no feature but RINGS_V1. -/
def cmdNop (s : State) (e : CmdEntry) : State := s.ringCmd e 0 (fun s => s.finishCmd .ok 0 [] 0)

/-- BACKUP_LOG_DUMP: each valid entry becomes a log entry (log 47). -/
def cmdDump (s : State) (e : CmdEntry) : State :=
  s.ringCmd e 2 (fun s =>
    let s : State := s.each s.aon.blog (fun s x =>
      if 1024 ≤ s.mgmt.logq.length then s.bump Obj.logDropped
      else { s with mgmt := { s.mgmt with logq := s.mgmt.logq ++ [⟨x.time, x.code, 4, s.mgmt.logSeq⟩], logSeq := s.mgmt.logSeq + 1 } })
    s.finishCmd .ok 0 [] 0)

/-- Whether the dictionary commands reach an index (Table 13-9, bit 7). -/
def cmdReach (s : State) (index : Nat) : Bool :=
  s.ringHas 7 || decide (0x1000 ≤ index ∧ index ≤ 0x12FF) || decide (0xB000 ≤ index ∧ index ≤ 0xB8FF)

/-- The value that a write command carries: inline, or in the host buffer. -/
def cmdValue (e : CmdEntry) : List Byte := if e.valueLen = 0xFF then e.buf else e.value.take e.valueLen.toNat

/-! ## Cores (R606–R613, R641) -/

/-- A core's number. -/
def coreNum : CoreId → Nat
  | .coreM => 0 | .coreP => 1 | .coreL => 2 | .coreC => 3

/-- A core is set FAILED. -/
def failCore (s : State) (c : Nat) : State := s.setNum (Obj.coreState c) 4

/-- What the loss of Core C's service means: training attempts in progress have failed (Table 13-3). -/
def coreGone (s : State) (c : Nat) : State :=
  if c = 3 then s.each ((List.range 32).filter (fun u => (s.unit u).st == .training)) (fun s u => s.trainingDone u false) else s

/-- A core that runs is restarted with a cause of B000.09 and its event; the fourth restart within 60 s sets it FAILED (R613).
Every restart is counted and written to the battery-backed log (R637). -/
def restartCore (s : State) (c cause event : Nat) : State :=
  let recent := s.mgmt.restarts.filter (fun x => x.1 == c && decide (s.dev.now < x.2 + 60 * cyclesS))
  let s : State := { s with mgmt := { s.mgmt with restarts := s.mgmt.restarts.filter (fun x => x.1 != c) ++ recent ++ [(c, s.dev.now)] } }
  let s : State := ((s.bump (Obj.coreRestarts c)).setNum (Obj.coreLastCause c) cause).setNum (Obj.coreState c) 3
  let s : State := if event = 0 then s else s.raise event c
  let s : State := (s.logBackup event c false false).coreGone c
  if 3 ≤ recent.length then (s.failCore c).raise 0x9006 c else s

/-- WATCHDOG_KICK. -/
def kick (s : State) (c : Nat) : State :=
  { s with mgmt := { s.mgmt with kicks := FMap.set 0 s.mgmt.kicks c (s.aonCycle + 1) } }

/-- A core starts to run. -/
def coreStarted (s : State) (c : Nat) : State := (s.setNum (Obj.coreState c) 2).raise 0x9001 c

/-- CORE_RESTART_DONE (R610, R611): Core M reloads the others, so their restarts wait while it does not run (Table 13-3). -/
def coreRestarted (s : State) (c : Nat) (digestOk : Bool) : State :=
  if s.num (Obj.coreState c) ≠ 3 ∨ (c ≠ 0 ∧ !s.coreRuns 0) then s
  else if digestOk then s.coreStarted c
  else (s.failCore c).setNum (Obj.coreLastCause c) 6

/-- A write to `CORE_RESTART`; a core that is not FAILED gives MODE_CONFLICT (DESIGN CHOICE, log 48). -/
def coreRestart (s : State) (c : Nat) : WAns × State :=
  if 3 < c then (.now .unsupported 0, s)
  else if s.num (Obj.coreState c) ≠ 4 then (.now .modeConflict 0, s)
  else
    let s : State := (s.bump (Obj.coreRestarts c)).setNum (Obj.coreLastCause c) 4
    (.now .ok 0, ((s.setNum (Obj.coreState c) 3).raise 0x9007 c).logBackup 0x9007 c false false)

/-! ## Power and thermal loops (R632–R636, R753–R755) -/

/-- The highest of some readings. -/
def highest (xs : List Int) : Int :=
  match xs with
  | [] => 0
  | x :: t => t.foldl max x

/-- CORE_P_LOOP. The mean of R632 is that of the readings taken so far, at most 1,000, and the cap that moves is the one in force
(log 49). In an AON cycle with a thermal fallback the lower value takes effect (R636). -/
def corePLoop (s : State) (x : Sensors) : State :=
  if !s.coreRuns 1 then s
  else
    let tj := highest x.tj
    let w0 := s.mgmt.watts ++ [x.power]
    let watts := w0.drop (w0.length - 1000)
    let pw := watts.foldl (· + ·) 0 / watts.length
    let p1 := x.power
    let dimms := (s.tide.slots.filter (fun e => e.2.st != .empty && e.2.st != .off)).map (fun e => e.2.temp)
    let hot := decide (100000 ≤ tj) || (x.stackT ++ dimms).any (fun t => decide (95000 < t))
    let old := s.num Obj.thermalCap
    let cap0 := if hot ∨ 1180000 < pw ∨ 1500000 < p1 then max (old - 50) 100
      else if tj < 97000 ∧ pw < 1150000 ∧ p1 < 1400000 then min (old + 10) 1000
      else old
    let cap := if s.mgmt.fallback = s.aonCycle + 1 then min cap0 old else cap0
    let s : State := { s with mgmt := { s.mgmt with watts := watts } }
    let s : State := s.capWrite Obj.thermalCap cap
    let s : State := ((s.setNum Obj.loopCap cap).setNum Obj.loopTjMax (levelNat tj)).setNum Obj.loopPower1s pw
    let s : State := ((s.setNum Obj.loopPower1ms p1).setNum Obj.pkgPower1ms p1).setNum Obj.pkgPower1s pw
    let s : State := s.each x.tj.zipIdx (fun s (e : Int × Nat) => s.setNum (Obj.tjSensor e.2) (levelNat e.1))
    let s : State := s.each x.stackT.zipIdx (fun s (e : Int × Nat) => s.stackTemp e.2 e.1)
    s.evalNotice 0xA003 tj false 0xB040

/-- AON_JUNCTION_CHECK: the trip at 110 °C, THERMTRIP_N at 120 °C, and the fallback at 100 °C while Core P does not run. -/
def junctionCheck (s : State) (tj : List Int) : State :=
  let top := highest tj
  let s : State := if 110000 ≤ top ∧ s.dev.state ≠ .safe ∧ s.dev.state ≠ .reset ∧ s.dev.state ≠ .backup ∧ s.dev.state ≠ .off then
      ((s.bump Obj.thermalTrips).raise 0xB041).enterSafe 6 7
    else s
  let s : State := if 120000 ≤ top ∧ !s.mgmt.power.thermtrip then
      ({ s with mgmt := { s.mgmt with power := { s.mgmt.power with thermtrip := true } } }).emit (.thermtrip true)
    else s
  if 100000 ≤ top ∧ !s.coreRuns 1 then
    let s : State := { s with mgmt := { s.mgmt with fallback := s.aonCycle + 1 } }
    ((s.capWrite Obj.thermalCap (min (s.num Obj.thermalCap) 500)).raise 0x9020).bump Obj.aonFallbacks
  else s

/-! ## The battery-backed log (R637–R639, Table 13-10) -/

/-- One entry's 32 bytes. -/
def blogBytes (x : BLog) : List Byte :=
  let b := leBytes 8 x.time ++ leBytes 2 x.code ++ leBytes 1 x.state
    ++ leBytes 1 ((if x.safety then 1 else 0) + (if x.backup then 2 else 0)) ++ leBytes 4 x.detail ++ leBytes 4 x.seq ++ zeros 8
  b ++ leBytes 4 (crc32c b).toNat

/-- 5.01 `BACKUP_LOG`: the entries in storage order; entry SEQ n lies at place (n − 1) mod 128. -/
def blogImage (s : State) : List Byte :=
  (List.range 128).flatMap (fun i => match s.aon.blog.find? (fun x => (x.seq - 1) % 128 == i) with
    | some x => blogBytes x
    | none => zeros 32)

/-- A write to `BACKUP_LOG_CLEAR`. -/
def blogClear (s : State) (v : Nat) : WAns × State :=
  if v ≠ 0xA5 then (.now .unsupported 0, s)
  else
    let s : State := { s with aon := { s.aon with blog := [], blogSeq := 0 } }
    (.now .ok 0, (s.logBackup 0x9021 0 false false).raise 0x9021)

end State

end Sys2Proof.Machine
end

