-- ==== Sys2Proof/Machine/UpdOps.lean ====
section
/-! DEFINITION. In-service update: containers and blocks, image verification, activation, trial and rollback, the choice of the bank
at a start, and the relay along a chain (chapter 15). -/

namespace Sys2Proof.Machine

/-! ## Images (R691–R693, Table 15-1) -/

/-- A little-endian number in bytes. -/
def numAt (b : List Byte) (i n : Nat) : Nat := leNat (slice b i n)

/-- LENGTH of an image, and VERSION. -/
def imgLen (b : List Byte) : Nat := numAt b 8 4
def imgVersion (b : List Byte) : Nat := numAt b 4 4

/-- The image digest (R692). -/
def imgDigest (b : List Byte) : List Byte := sha384 (slice b 0 (imgLen b - 256))

/-- The used entries of the section directory: type, offset and size. The sixteen entries have twelve bytes each, as their fields
have; Table 15-1's byte range would hold eight each (DEDUCED, log 50). -/
def imgSections (b : List Byte) : List (Nat × Nat × Nat) :=
  ((List.range 16).map (fun i => (numAt b (32 + 12 * i) 2, numAt b (36 + 12 * i) 4, numAt b (40 + 12 * i) 4))).filter (fun e => e.1 != 0)

/-- Whether two sections overlap. -/
def secOverlap (x y : Nat × Nat × Nat) : Bool := decide (x.2.1 < y.2.1 + y.2.2 ∧ y.2.1 < x.2.1 + x.2.2)

/-- Whether the sections of a directory are well placed (R707, check 1). -/
def sectionsOk (len : Nat) : List (Nat × Nat × Nat) → Bool
  | [] => true
  | e :: es =>
    decide (4096 ≤ e.2.1 ∧ e.2.1 + e.2.2 ≤ len - 256) && decide (e.1 ≤ 4 → e.2.2 ≤ 262144)
      && es.all (fun f => f.1 != e.1 && !secOverlap e f) && sectionsOk len es

/-- Check 1 of R707 on an image whose length should be `want`. -/
def imageFormed (b : List Byte) (want : Nat) : Bool :=
  let len := imgLen b
  slice b 0 4 == ([0x50, 0x39, 0x49, 0x4D] : List Byte) && slice b 12 16 == slice (ascii "ATG-P9-12T") 0 16 && numAt b 28 1 == 0xB1
    && len == want && decide (4352 ≤ len) && slice b (len - 256) 4 == ([0x59, 0x53, 0x49, 0x47] : List Byte)
    && sectionsOk len (imgSections b)

/-- The default code tables that an image carries (section 0x12): each record's format and lengths. -/
def imgTables (b : List Byte) : List (Nat × List Nat) :=
  match (imgSections b).find? (fun e => e.1 == 0x12) with
  | none => []
  | some e => (List.range (e.2.2 / 192)).filterMap (fun i => recordLens (slice b (e.2.1 + 192 * i) 192))

/-! ## Containers and blocks (R696–R698) -/

/-- CONTAINER_ID, TARGET_LENGTH, BLOCK_COUNT and KIND of a container header. -/
def hdrId (h : List Byte) : Nat := numAt h 136 8
def hdrLen (h : List Byte) : Nat := numAt h 28 4
def hdrCount (h : List Byte) : Nat := numAt h 32 4
def hdrFull (h : List Byte) : Bool := numAt h 5 1 == 0

/-- Check 1 of R697. -/
def headerFormed (h : List Byte) : Bool :=
  slice h 0 4 == ([0x59, 0x55, 0x43, 0x4C] : List Byte) && numAt h 4 1 == 1 && decide (numAt h 5 1 ≤ 1) && numAt h 6 2 == 0
    && numAt h 25 3 == 0 && numAt h 144 108 == 0 && numAt h 252 4 == (crc32c (slice h 0 252)).toNat && hdrId h != 0
    && decide (hdrLen h ≤ 67108864) && hdrCount h == (hdrLen h + 32767) / 32768

/-- Check 2 of R697. -/
def headerPart (h : List Byte) : Bool := slice h 8 16 == slice (ascii "ATG-P9-12T") 0 16 && numAt h 24 1 == 0xB1

/-- Carry out the operations of a block over a base image (Table 15-3): the bytes that they make, or none where an operation is not
of the table's form, reads beyond the base image, or copies without one. -/
def blockOps (base : Option (List Byte)) : Nat → List Byte → Option (List Byte)
  | 0, rest => if rest.isEmpty then some [] else none
  | n + 1, rest =>
    let ty := numAt rest 0 1
    let fill := numAt rest 1 1
    let olen := numAt rest 2 2
    let body := rest.drop 4
    let pad := (olen + 3) / 4 * 4
    if rest.length < 4 ∨ olen = 0 ∨ 32768 < olen then none
    else if ty = 1 then match base with
      | none => none
      | some b =>
        let src := numAt body 0 4
        if fill ≠ 0 ∨ body.length < 4 ∨ imgLen b < src + olen then none
        else (blockOps base n (body.drop 4)).map (fun t => slice b src olen ++ t)
    else if ty = 2 then
      if fill ≠ 0 ∨ body.length < pad then none else (blockOps base n (body.drop pad)).map (fun t => body.take olen ++ t)
    else if ty = 3 then (blockOps base n body).map (fun t => List.replicate olen (BitVec.ofNat 8 fill) ++ t)
    else none

/-- The target bytes of a block, or none where R698 finds it damaged. -/
def blockBytes (h : List Byte) (base : Option (List Byte)) (b : List Byte) : Option (List Byte) :=
  let len := b.length
  let no := numAt b 0 4
  let share := min 32768 (hdrLen h - 32768 * no)
  if numAt b 4 4 ≠ len ∨ numAt b (len - 4) 4 ≠ (crc32c (b.take (len - 4))).toNat ∨ numAt b 14 2 ≠ 0
      ∨ numAt b 8 4 ≠ hdrId h % 2 ^ 32 ∨ hdrCount h ≤ no then none
  else match blockOps (if hdrFull h then none else base) (numAt b 12 2) ((b.drop 16).take (len - 20)) with
    | some t => if t.length = share then some t else none
    | none => none

namespace State

/-! ## Banks and records -/

/-- An image bank. -/
def bank (s : State) (i : Nat) : Bank := if i = 0 then s.flash.bank0 else s.flash.bank1

/-- Set an image bank. -/
def setBank (s : State) (i : Nat) (b : Bank) : State :=
  { s with flash := if i = 0 then { s.flash with bank0 := b } else { s.flash with bank1 := b } }

/-- Whether no image is active: the ROM recovery server runs for want of one (R605, R703). -/
def noImage (s : State) : Bool := s.mgmt.power.boot && s.mgmt.power.held.isNone

/-- The bank that an update writes: the spare bank, or bank 0 with no image active (R690, R703). -/
def spareBank (s : State) : Nat := if s.noImage then 0 else 1 - min 1 (s.num Obj.activeBank)

/-- The base image. -/
def baseImage (s : State) : Option (List Byte) := if s.noImage then none else some (s.bank (s.num Obj.activeBank)).bytes

/-- Set the update. -/
def setUpd (s : State) (u : Upd) : State := { s with mgmt := { s.mgmt with upd := u } }

/-- Append an update record; SEQ increases by one. -/
def putRec (s : State) (r : URec) : State :=
  let seq := match s.flash.recs.getLast? with | some x => x.seq + 1 | none => 1
  { s with flash := { s.flash with recs := s.flash.recs ++ [{ r with seq := seq }] } }

/-- A boot record of a kind, naming the target and prior banks and their digests. -/
def bootRec (s : State) (kind target prior runs deadline : Nat) : State :=
  s.putRec ⟨0, kind, target, prior, runs, 0, deadline, imgDigest (s.bank target).bytes,
    if prior = 255 then zeros 48 else imgDigest (s.bank prior).bytes, []⟩

/-- The trial clock, in seconds (R719). -/
def trialClock (s : State) : Nat := s.dev.now / cyclesS - s.mgmt.power.trialBase

/-- Whether a root-key slot is VALID (R694). -/
def slotValid (s : State) (i : Nat) : Bool :=
  (if h : i < 4 then Config.rootProvisioned ⟨i, h⟩ else false) && !s.flash.revoked.contains i

/-- 803.01 `ROOT_SLOT_STATE`. -/
def rootStates (s : State) : Nat :=
  ((List.range 4).map (fun i => (if s.flash.revoked.contains i then 2 else if s.slotValid i then 1 else 0) * 4 ^ i)).sum

/-- The public-key engine's verdict on an image, and a verification counted (R695). -/
def imageSigned (s : State) (b : List Byte) (digest : List Byte) : Nat × State :=
  let t := imgLen b - 256
  let slot := numAt b (t + 4) 1
  if !s.slotValid slot then (6, s)
  else
    let key := if h : slot < 4 then Config.rootKey ⟨slot, h⟩ else []
    (pkeVerify (numAt key 0 48) (numAt key 48 48) (numAt b (t + 8) 48) (numAt b (t + 56) 48) digest, s.bump Obj.pkeVerifications)

/-- The result of verifying an image (R707): the code of `UPD_VERIFY_RESULT`. -/
def verifyImage (s : State) (b : List Byte) (len : Nat) (digest : List Byte) : Nat × State :=
  if !imageFormed b len then (8, s)
  else if imgDigest b ≠ digest then (7, s)
  else s.imageSigned b digest

/-! ## Answers -/

/-- An update action is answered, with its status and its reason. -/
def updAns (s : State) (st : Status) (reason : Nat) (hint : Nat := 0) : WAns × State :=
  (.now st hint, (s.setNum Obj.updLastStatus st.code).setNum Obj.updReason reason)

/-- The answer that an action owes. -/
def updReply (s : State) (st : Status) (reason : Nat) : State :=
  let o := s.mgmt.upd.owed
  let s : State := (s.setUpd { s.mgmt.upd with owed := none }).updAns st reason |>.2
  match o with
  | some o => s.replyOwed o st
  | none => s

/-- An action that Table 15-9 does not permit now (R725). -/
def updBad (s : State) : WAns × State := s.updAns .modeConflict 0xA105

/-- `UPD_STATE`. -/
def updSt (s : State) : Nat := s.num Obj.updState

/-- The blockers of Table 15-7 in its order: bit, whether it holds, status, hint and reason. -/
def blockerRows (s : State) : List (Nat × Bool × Status × Nat × Nat) := [
  (3, s.dev.state == .safe, .modeConflict, 0, 0xA104),
  (2, s.num Obj.ownerLock == 1, .denied, 0, 0xA103),
  (1, decide (s.num Obj.vbatMv < s.num Obj.vbatLowMv), .modeConflict, 0, 0xA102),
  (0, s.tide.slots.any (fun e => e.2.st == .evacuating), .retryLater, 1000000, 0xA101),
  (4, !s.coreRuns 0 && !s.mgmt.power.boot, .retryLater, 100000, 0xA10A)]

/-- 800.0C `UPD_BLOCKERS`. -/
def blockers (s : State) : Nat := ((s.blockerRows.filter (fun x => x.2.1)).map (fun x => 2 ^ x.1)).sum

/-- The refusal of the first blocker that holds (R709). -/
def blocked (s : State) : Option (WAns × State) :=
  match s.blockerRows.find? (fun x => x.2.1) with
  | some (_, _, st, hint, reason) => some ((s.raise 0xA00A).updAns st reason hint)
  | none => none

/-! ## The relay's sending side (R704–R706, Table 15-6) -/

/-- Set the relay. -/
def setRelay (s : State) (r : Relay) : State := { s with mgmt := { s.mgmt with relay := r } }

/-- Whether a device relays: a head, or a member with a next device (R705). -/
def relays (s : State) : Bool := s.num Obj.relayRole == 1 || (s.num Obj.relayRole == 2 && s.num Obj.relayNext != 255)

/-- Send the container header after a START that succeeds (R705). -/
def relayHead (s : State) (h : List Byte) : State := if s.relays then s.frameTx (.relay 1 0 (hdrId h) 0 0 0 h) else s

/-- Send one block in fragments of 1,200 bytes. -/
def sendBlock (s : State) (k : Nat) : State :=
  let b := FMap.find [] s.mgmt.upd.blocks k
  let n := (b.length + 1199) / 1200
  s.each (List.range n) (fun s i =>
    s.frameTx (.relay 2 0 (s.num Obj.updContainerId) k i n ((b.drop (1200 * i)).take 1200)))

/-- Send the blocks that are written, at most 4 unacknowledged. -/
def pumpRelay : Nat → State → State
  | 0, s => s
  | n + 1, s =>
    let r := s.mgmt.relay
    if !s.relays || r.paused || 4 ≤ r.sent.length || (FMap.find [] s.mgmt.upd.blocks r.next).isEmpty then s
    else pumpRelay n ((s.sendBlock r.next).setRelay { r with sent := r.sent ++ [r.next], next := r.next + 1 })

/-- Send what can be sent. -/
def relayOn (s : State) : State := pumpRelay 4 s

/-- The ACK to the previous device: the status of the last action and BLOCK_NEXT. -/
def relayAck (s : State) : State :=
  s.frameTx (.relay 3 (s.num Obj.updLastStatus) (s.num Obj.updContainerId) (s.num Obj.updBlockNext) 0 0 [])

/-! ## Download (R699–R701) -/

/-- A PROGRESS record of the download. -/
def progress (s : State) (header : List Byte) : State :=
  s.putRec ⟨0, 1, s.spareBank, 255, 0, s.num Obj.updBlockNext, 0, slice header 88 48, zeros 48, header⟩

/-- The objects of a container in progress; `next` is BLOCK_NEXT. -/
def showHeader (s : State) (h : List Byte) (next : Nat) : State :=
  let s : State := ((s.setNum Obj.updContainerId (hdrId h)).setNum Obj.updBlockNext next).setNum Obj.updBlockCount (hdrCount h)
  (s.setNum Obj.updTargetVersion (numAt h 36 4)).setBlob Obj.updTargetDigest (slice h 88 48)

/-- A block that is being written is given up: its status is open (log 51). -/
def dropBlock (s : State) : State :=
  if s.mgmt.upd.block.isNone then s
  else
    let x := (s.setUpd { s.mgmt.upd with block := none }).openStatus
    x.2.updReply x.1 0

/-- START on a container header (R697, R699, R709). The progress record is complete in the same step (log 52). -/
def updStart (s : State) (h : List Byte) : WAns × State :=
  let st := s.updSt
  if !(st ≤ 2 ∨ st = 4) then s.updBad
  else match s.blocked with
    | some x => x
    | none =>
      if !headerFormed h then s.updAns .damaged 0xA108
      else if !headerPart h then s.updAns .unsupported 0xA107
      else if !hdrFull h ∧ (s.noImage ∨ slice h 40 48 ≠ s.blob Obj.imageDigest) then s.updAns .damaged 0xA106
      else if st = 1 ∧ hdrId h = s.num Obj.updContainerId then ((s.raise 0xA001 1).relayHead h).updAns .ok 0
      else
        let s : State := s.dropBlock
        let s : State := (s.setBank s.spareBank ⟨3, [], false⟩).showHeader h 0
        let s : State := (s.setUpd { Upd.reset with header := h }).setNum Obj.updState 1
        let s : State := (s.progress h).raise 0xA001
        let s : State := ((s.setRelay Relay.reset).setNum Obj.relayNextBlock 0)
        (s.relayHead h).updAns .ok 0

/-- A block write (R698, R700). `o` is the reply it owes; none for a block from the relay. -/
def updBlockWrite (s : State) (o : Option Owed) (b : List Byte) : WAns × State :=
  let u := s.mgmt.upd
  let no := numAt b 0 4
  let next := s.num Obj.updBlockNext
  if s.updSt ≠ 1 then s.updBad
  else match blockBytes u.header s.baseImage b with
    | none => ((s.bump Obj.blocksDamaged).raise 0xA002).updAns .damaged 0
    | some _ =>
      if no < next then s.updAns .ok 0
      else if next < no then s.updAns .modeConflict 0
      else if u.block.isSome then s.updAns .retryLater 0 25000
      else (.later, s.setUpd { u with block := some b, owed := o })

/-- BLOCK_WRITTEN (R700, R701): Core M has rebuilt the block and recorded it. -/
def blockWritten (s : State) : State :=
  let u := s.mgmt.upd
  match u.block with
  | none => s
  | some b =>
    if !(s.coreRuns 0 || s.mgmt.power.boot) then s
    else
      let i := s.spareBank
      let k := numAt b 0 4
      let x := s.bank i
      let s : State := s.setBank i { x with bytes := x.bytes.take (32768 * k) ++ (blockBytes u.header s.baseImage b).getD [] }
      let s : State := s.setNum Obj.updBlockNext (k + 1)
      let s : State := s.progress u.header
      let fromRelay := u.owed.isNone
      let s : State := s.setUpd { u with block := none, blocks := if s.relays then FMap.put u.blocks k b else [] }
      let s : State := if k + 1 = s.num Obj.updBlockCount then (s.setNum Obj.updState 2).raise 0xA003 else s
      let s : State := s.updReply .ok 0
      let s : State := if fromRelay then s.relayAck else s
      s.relayOn

/-- ABORT (R725, Table 15-9). -/
def updAbort (s : State) : WAns × State :=
  let st := s.updSt
  if !(st = 1 ∨ st = 2 ∨ st = 4) then s.updBad
  else
    let s : State := s.dropBlock
    let s : State := s.putRec ⟨0, 1, s.spareBank, 255, 0, 0, 0, zeros 48, zeros 48, []⟩
    let s : State := (s.setUpd Upd.reset).setRelay Relay.reset
    let s : State := ((s.setNum Obj.updState 0).setNum Obj.updContainerId 0).setNum Obj.updBlockNext 0
    s.updAns .ok 0

/-! ## Verification (R707) -/

/-- VERIFY. -/
def updVerify (s : State) (o : Owed) : WAns × State :=
  let st := s.updSt
  if !(st = 2 ∨ st = 4) then s.updBad
  else (.later, (s.setUpd { s.mgmt.upd with owed := some o }).setNum Obj.updState 3)

/-- VERIFY_COMPLETE. -/
def verifyDone (s : State) : State :=
  if s.updSt ≠ 3 ∨ !(s.coreRuns 0 || s.mgmt.power.boot) then s
  else
    let h := s.mgmt.upd.header
    let i := s.spareBank
    let x := s.verifyImage (s.bank i).bytes (hdrLen h) (slice h 88 48)
    let s : State := x.2.setNum Obj.updVerifyResult x.1
    if x.1 = 1 then (((s.setBank i { s.bank i with st := 1 }).setNum Obj.updState 4).raise 0xA004).updReply .ok 0
    else (((s.setBank i { s.bank i with st := 2 }).setNum Obj.updState 0).raise 0xA005 x.1).updReply .damaged 0

/-! ## Activation (R711, R717, R718) -/

/-- The device description table is rebuilt: its GENERATION goes up (R583). -/
def rebuildDesc (s : State) : State := { s with ep := { s.ep with descGen := (s.ep.descGen + 1) % 2 ^ 32 } }

/-- The objects of the running image take a bank's image, and so does the device description table. -/
def latchImage (s : State) (i : Nat) : State :=
  let b := (s.bank i).bytes
  (((s.setNum Obj.fwVersion (imgVersion b)).setBlob Obj.imageDigest (imgDigest b)).setNum Obj.activeBank i).rebuildDesc

/-- The default code tables of an image that differ from those in force (R177, R693). -/
def newTables (s : State) (b : Bank) : List (Nat × List Nat) :=
  if b.factory then (List.range 6).filterMap (fun i =>
    if s.num (Obj.defaultSlot i) = i + 1 then none else some (i + 1, Config.factoryLengths (i + 1)))
  else (imgTables b.bytes).filter (fun t => (s.tab (s.defaultSlotOf t.1)).lens != t.2)

/-- `DEFAULT_SLOT` of a format names another slot; the slot that it named before takes a state, and serves what a region's encoder starts
in this cycle (R179). Slots 1 to 6 never change. -/
def nameDefault (s : State) (fmt n : Nat) (old : TabSt) : State :=
  let m := s.defaultSlotOf fmt
  let s : State := s.each (s.ctl.regions.filter (fun e => e.2.mode.format == fmt)) (fun s e => s.keepSlot e.1)
  let s : State := if 16 ≤ m then s.setTab m { s.tab m with st := old } else s
  let s : State := if 16 ≤ n then s.setTab n { s.tab n with st := .dflt } else s
  s.setNum (Obj.defaultSlot (fmt - 1)) n

/-- Each new default table goes into a free slot, and `DEFAULT_SLOT` names it (R177); the factory table of a format is in its own
slot. -/
def loadTables (s : State) (b : Bank) (old : TabSt) : State :=
  s.each (s.newTables b) (fun s t =>
    if b.factory then s.nameDefault t.1 t.1 old
    else match s.freeSlot with
      | some n => (s.fillSlot n t.1 0xFFFF false t.2).nameDefault t.1 n old
      | none => s)

/-- Core C, Core P, Core L and Core M are loaded from the bank in turn; a FAILED core stays in reset. -/
def reloadCores (s : State) : State :=
  s.each ([3, 1, 2, 0].filter (fun c => s.num (Obj.coreState c) != 4)) (fun s c => s.coreStarted c)

/-- The bank that the trial falls back to; none after an activation with no image active. -/
def priorBank (s : State) : Nat := if s.noImage then 255 else s.num Obj.activeBank

/-- ACTIVATE (R709, R711). -/
def updActivate (s : State) (o : Owed) : WAns × State :=
  if s.updSt ≠ 4 then s.updBad
  else match s.blocked with
    | some x => x
    | none =>
      if s.slotsFree < (s.newTables (s.bank s.spareBank)).length then s.updAns .capacity 0xA109
      else (.later, ((s.setUpd { s.mgmt.upd with owed := some o, committed := false }).setNum Obj.updState 5).raise 0xA006)

/-- Steps 1 and 2 of R711: PREPARED and COMMITTED are appended, and the image's values are latched. -/
def commitImage (s : State) : State :=
  let t := s.spareBank
  let prior := s.priorBank
  let runs := if s.noImage then 0 else 1
  let s : State := s.bootRec 2 t prior 0 0
  let s : State := s.bootRec 3 t prior runs (s.trialClock + 600)
  let s : State := { s with mgmt := { s.mgmt with power := { s.mgmt.power with trialLost := false } } }
  let s : State := s.setUpd { s.mgmt.upd with committed := true, slots := (List.range 6).map (fun i => s.num (Obj.defaultSlot i)) }
  (s.setNum Obj.updTrialRuns runs).latchImage t

/-- ACTIVATION_COMPLETE: the steps of R711 that remain, and the trial begins. An activation through the recovery server ends in a device
reset, which is the caller's (R720). -/
def activationDone (s : State) : State :=
  if s.updSt ≠ 5 ∨ !(s.coreRuns 0 || s.mgmt.power.boot) then s
  else
    let s : State := if s.mgmt.upd.committed then s else s.commitImage
    if s.mgmt.power.boot then s.updReply .ok 0
    else
      let fmts := (s.newTables (s.bank (s.num Obj.activeBank))).map (·.1)
      let s : State := s.loadTables (s.bank (s.num Obj.activeBank)) .reserved
      let s : State := (s.each fmts (fun s f => s.raise 0x3007 (s.defaultSlotOf f))).reloadCores
      let s : State := ((s.setNum Obj.updState 6).raise 0xA007).bump Obj.activations
      s.updReply .ok 0

/-- What the loss of Core M or of the device's state means for an activation or a rollback that is under way: whether its deciding
record was complete is open (R718, R726). -/
def recordDrawn (s : State) : Bool × State := (s.drawFresh.1.getLsbD 0, s.drawFresh.2)

/-- Core M restarts (R718). -/
def updCoreM (s : State) : State :=
  if s.updSt = 5 ∧ !s.mgmt.upd.committed then
    let x := s.recordDrawn
    if x.1 then x.2.commitImage
    else
      let y := ((x.2.setNum Obj.updState 2).raise 0xA00B).openStatus
      y.2.updReply y.1 0
  else s

/-! ## Causes of a core restart (R606–R609, R641) -/

/-- A restart's cause arises in a core that runs. -/
def coreFault (s : State) (c cause event : Nat) : State :=
  if !s.coreRuns c then s
  else
    let s : State := s.restartCore c cause event
    if c = 0 then s.updCoreM else s

/-- WATCHDOG_EXPIRY: a kick in the same AON cycle wins (R608). -/
def watchdog (s : State) (c : Nat) : State :=
  if FMap.find 0 s.mgmt.kicks c = s.aonCycle + 1 then s else s.coreFault c 1 0x9002

/-- A write to `LOCKSTEP_INJECT`: the core's outputs differ in the next cycle (R641). -/
def lockstepInject (s : State) (c : Nat) : WAns × State :=
  if 3 < c then (.now .unsupported 0, s)
  else (.now .ok 0, { s with mgmt := { s.mgmt with inject := s.mgmt.inject ++ [(c, s.dev.now)] } })

/-- The mismatches that were injected in an earlier cycle (R606, R641). -/
def mismatches (s : State) : State :=
  let due := s.mgmt.inject.filter (fun (e : Nat × Nat) => e.2 != s.dev.now)
  let s : State := { s with mgmt := { s.mgmt with inject := s.mgmt.inject.filter (fun (e : Nat × Nat) => e.2 == s.dev.now) } }
  s.each due (fun s (e : Nat × Nat) => (s.raise 0x9030 e.1).coreFault e.1 2 0x9003)

/-! ## Trial, confirmation and rollback (R717, R721–R724) -/

/-- The slots that were named in `DEFAULT_SLOT` before the activation are released. -/
def releaseDefaults (s : State) : State :=
  (s.each (s.mgmt.upd.slots.filter (fun n => decide (16 ≤ n) && (s.tab n).st == .reserved)) (fun s n =>
    s.setTab n { s.tab n with st := .inUse })).freeSlots

/-- A rollback that the deadline started in this AON cycle gives way to a CONFIRM (R722). -/
def confirmWins (s : State) : Bool := s.updSt == 7 && s.mgmt.upd.cause == 1 && s.mgmt.upd.since / 8 == s.aonCycle

/-- CONFIRM (R721); it is refused in SAFE (R709). -/
def updConfirm (s : State) : WAns × State :=
  if s.updSt ≠ 6 ∧ !s.confirmWins then s.updBad
  else if s.dev.state = .safe then s.updAns .modeConflict 0xA104
  else
    let a := s.num Obj.activeBank
    let s : State := s.bootRec 4 a (1 - min 1 a) 0 0
    let s : State := s.releaseDefaults
    let s : State := ((s.setUpd Upd.reset).setNum Obj.updState 0).setNum Obj.updTrialRuns 0
    ((s.raise 0xA008).bump Obj.confirms).updAns .ok 0

/-- A rollback starts with a cause of event 0xA009. -/
def rollbackOn (s : State) (o : Option Owed) (cause : Nat) : State :=
  (s.setUpd { s.mgmt.upd with owed := o, cause := cause, since := s.dev.now }).setNum Obj.updState 7

/-- ROLLBACK (R723). -/
def updRollback (s : State) (o : Owed) : WAns × State :=
  if s.updSt ≠ 6 then s.updBad else (.later, s.rollbackOn (some o) 3)

/-- TRIAL_DEADLINE_EXPIRY (R722). -/
def trialExpired (s : State) : State := if s.updSt = 6 then s.rollbackOn none 1 else s

/-- The prior bank of the trial, by its record. -/
def trialPrior (s : State) : Nat :=
  match (s.flash.recs.filter (fun r => r.kind == 3)).getLast? with
  | some r => r.prior
  | none => 255

/-- ROLLBACK_COMPLETE (R723, R724): the prior image is taken back, or it fails verification and the trial's image stays. Slots that the
trial has kept RESERVED are named again (R717); after a start in the trial none is, and the prior image's tables are loaded anew. -/
def rollbackDone (s : State) : State :=
  if s.updSt ≠ 7 ∨ !s.coreRuns 0 then s
  else
    let cause := s.mgmt.upd.cause
    let p := s.trialPrior
    let b := (s.bank p).bytes
    let x : Nat × State := if p = 255 then (8, s) else s.verifyImage b (imgLen b) (imgDigest b)
    let s : State := x.2
    let a := s.num Obj.activeBank
    if x.1 ≠ 1 then
      let s : State := ((s.bootRec 4 a p 0 0).releaseDefaults.setNum Obj.updState 0).setNum Obj.updTrialRuns 0
      let s : State := s.raise 0xA00E
      let y := s.openStatus
      let s : State := y.2.updReply y.1 0xA10B
      s.setUpd Upd.reset
    else
      let s : State := (s.bootRec 5 p a 0 0).latchImage p
      let s : State := if s.mgmt.upd.slots.isEmpty then s.loadTables (s.bank p) .inUse
        else s.each s.mgmt.upd.slots.zipIdx (fun s (e : Nat × Nat) =>
          if s.num (Obj.defaultSlot e.2) = e.1 then s else s.nameDefault (e.2 + 1) e.1 .inUse)
      let s : State := s.freeSlots.reloadCores
      let s : State := ((s.setNum Obj.updState 0).setNum Obj.updTrialRuns 0).raise 0xA009 cause
      let s : State := (s.bump Obj.rollbacks).updReply .ok 0
      s.setUpd Upd.reset

/-- A write to `ROOT_SLOT_REVOKE` (R694). -/
def rootRevoke (s : State) (i : Nat) : WAns × State :=
  let b := (s.bank (s.num Obj.activeBank)).bytes
  let signed := !s.noImage && numAt b (imgLen b - 252) 1 == i
  let last := (List.range 4).filter s.slotValid == [i]
  if 3 < i then (.now .unsupported 0, s)
  else if signed ∨ last then (.now .modeConflict 0, s)
  else
    let gone := if i ∈ s.flash.revoked then s.flash.revoked else s.flash.revoked ++ [i]
    (.now .ok 0, { s with flash := { s.flash with revoked := gone } }.raise 0xA00D i)

/-! ## The bank at a start (R720, R726) -/

/-- The ruling boot record. -/
def rulingRec (s : State) : Option URec := (s.flash.recs.filter (fun r => decide (2 ≤ r.kind))).getLast?

/-- The ROLLED_BACK record that ends a trial's COMMITTED record. -/
def rolledBack (r : URec) : URec :=
  { r with kind := 5, target := r.prior, prior := r.target, tdigest := r.pdigest, pdigest := r.tdigest }

/-- The bank that R720 selects, the cause of event 0xA009 (0: no rollback), and the state with what it appends. -/
def selectBank (s : State) (x : BootView) : Nat × Nat × State :=
  match s.rulingRec with
  | none => (if x.bank0Ok then 0 else 1, 0, s)
  | some r =>
    if r.kind = 2 then (r.prior, 0, s)
    else if r.kind = 3 then
      let cause := if 3 ≤ r.runs then 2 else if s.mgmt.power.trialLost then 4 else if r.deadline ≤ s.trialClock then 1 else 0
      if r.prior ≠ 255 ∧ cause ≠ 0 then (r.prior, cause, s.putRec (rolledBack r))
      else (r.target, 0, s.putRec { r with runs := r.runs + 1 })
    else (r.target, 0, s)

/-- The bank that a start boots, if one verifies: the selected one, or else the other (R720). -/
def bootBank (s : State) (x : BootView) : Option Nat × State :=
  let ok (i : Nat) : Bool := if i = 0 then x.bank0Ok else x.bank1Ok
  let c := s.selectBank x
  let i := min 1 c.1
  let s : State := c.2.2
  let s : State := if c.2.1 = 0 then s else s.raise 0xA009 c.2.1
  let s : State := s.bump Obj.pkeVerifications
  if ok i then (some i, s)
  else
    let s : State := s.bump Obj.pkeVerifications
    if !ok (1 - i) then (none, s)
    else match s.rulingRec with
      | some r =>
        if r.kind = 3 ∧ r.prior = 1 - i then
          (some (1 - i), (s.putRec (rolledBack r)).raise 0xA009 5)
        else (some (1 - i), s)
      | none => (some (1 - i), s)

/-- The update state that the ruling records give (Table 15-10). A PREPARED record keeps the download that it followed. -/
def rebuildUpd (s : State) (i : Nat) : State :=
  let last := (s.flash.recs.filter (fun r => r.kind == 1)).getLast?
  let ruling := s.rulingRec
  let live := match last, ruling with
    | some p, some b => decide (b.seq < p.seq) || b.kind == 2
    | some _, none => true
    | none, _ => false
  let s : State := match last with
    | some p => if live && !p.header.isEmpty then
        let s : State := (s.showHeader p.header p.next).setUpd { s.mgmt.upd with header := p.header }
        s.setNum Obj.updState (if p.next = hdrCount p.header then 2 else 1)
      else s
    | none => s
  match ruling with
  | some r => if r.kind = 3 ∧ r.target = i then (s.setNum Obj.updState 6).setNum Obj.updTrialRuns r.runs else s
  | none => s

/-- 800.0B `UPD_TRIAL_LEFT`. -/
def trialLeft (s : State) : Nat :=
  if s.updSt ≠ 6 then 0
  else match (s.flash.recs.filter (fun r => r.kind == 3)).getLast? with
    | some r => r.deadline - s.trialClock
    | none => 0

/-! ## The relay's receiving side (R704–R706) -/

/-- Whether a relay frame comes from the previous device (R704). -/
def fromPrev (s : State) (f : RelayFrame) : Bool :=
  f.magicOk && s.num Obj.relayRole == 2 && s.num Obj.relayPrev != 255 && f.slot.toNat == s.num Obj.relayPrev

/-- RELAY_HEADER: it acts as START. -/
def relayHeader (s : State) (f : RelayFrame) : State :=
  if !s.takesFrames then s
  else if !s.fromPrev f then s.frameRx
  else (s.frameRx.updStart f.body).2.relayAck

/-- RELAY_DATA: a fragment is taken; a complete block acts as a block write. -/
def relayData (s : State) (f : RelayFrame) : State :=
  if !s.takesFrames then s
  else if !s.fromPrev f ∨ f.containerId.toNat ≠ s.num Obj.updContainerId then s.frameRx
  else
    let s : State := s.frameRx
    let r := s.mgmt.relay
    let blk := f.word.toNat
    let n := f.frags.toNat
    let old := if r.began ∧ r.blk = blk then r.frags else []
    let frags := FMap.put old f.frag.toNat f.body
    if (List.range n).all (fun i => frags.any (fun e => e.1 == i)) then
      let s : State := s.setRelay { r with frags := [], began := false }
      let x := s.updBlockWrite none ((List.range n).flatMap (fun i => FMap.find [] frags i))
      match x.1 with
      | .later => x.2
      | .now _ _ => x.2.relayAck
    else s.setRelay { r with blk := blk, frags := frags, began := true }

/-- RELAY_ACK from the next device: blocks below its BLOCK_NEXT are acknowledged, and a pause ends (R705, R706). -/
def relayAcked (s : State) (f : RelayFrame) : State :=
  if !s.takesFrames then s
  else if !f.magicOk ∨ !s.relays ∨ f.slot.toNat ≠ s.num Obj.relayNext ∨ f.containerId.toNat ≠ s.num Obj.updContainerId then s.frameRx
  else
    let s : State := s.frameRx
    let r := s.mgmt.relay
    let n := f.word.toNat
    let old := s.num Obj.relayNextBlock
    let s : State := (s.setNum Obj.relayNextBlock n).bump Obj.relayForwarded (n - old)
    let next := if r.paused then n else max r.next n
    let s : State := s.setRelay { r with
      sent := if r.paused then [] else r.sent.filter (fun k => decide (n ≤ k))
      resend := if r.paused then [] else r.resend.filter (fun e => decide (n ≤ e.1))
      paused := false, next := next }
    s.relayOn

/-- RELAY_ACK_TIMEOUT of one block. -/
def relayTimeout (s : State) (k : Nat) : State :=
  let r := s.mgmt.relay
  if !r.sent.contains k ∨ r.paused then s
  else if 20 ≤ FMap.find 0 r.resend k then (s.setRelay { r with paused := true }).raise 0xA00C
  else
    let s : State := s.setRelay { r with resend := FMap.put r.resend k (FMap.find 0 r.resend k + 1) }
    (s.bump Obj.relayResends).sendBlock k

/-- RELAY_ACK_TICK. -/
def relayTick (s : State) : State := if s.num Obj.relayRole = 2 ∧ s.updSt = 1 then s.relayAck else s

end State

end Sys2Proof.Machine
end

