-- ==== Sys2Proof/Machine/PowerOps.lean ====
section
/-! DEFINITION. Resets and what they keep, the start, HOLD, the pins and their filters, and the backup domain (chapter 16). -/

namespace Sys2Proof.Machine

namespace State

/-- Set power and pins. -/
def setPower (s : State) (p : Power) : State := { s with mgmt := { s.mgmt with power := p } }

/-- Store the value of an object by its type. An unset secret is empty (R675). -/
def storeObj (s : State) (key : Nat) (r : ORow) (v : List Byte) : State :=
  let secret := key == Obj.ownerSecret || key == Obj.operatorSecret
  if r.ty.bytes.isNone then s.setBlob key (if secret && v.all (· == 0) then [] else v) else s.setNum key (stored r v)

/-! ## Device reset (R735–R737) -/

/-- The objects that the backup domain keeps: validity of the RTC, VBAT, the TAMPER_N latch, the alarms, the clock resets, the
marks of its alarms, and the trim of the RTC. -/
def keptObjs : List Nat :=
  [Obj.rtcValid, Obj.vbatMv, Obj.tamperState, Obj.backupAlarms, Obj.clockResets, Obj.vbatLowMv, Obj.backupTempLimit, Obj.rtcTrim]

/-- Everything volatile takes its default, or what State.reset gives it; the backup domain, the flash and the fuses stay, and so do the
pins, whose chatter latch is cleared for MEMHOLD_N (R736, R743). Change records that are not complete are lost (DESIGN CHOICE, log
53). -/
def volatileReset (s : State) : State :=
  let p := s.mgmt.power
  let u : State := { State.reset with
    pending := s.pending
    out := s.out
    flash := s.flash
    dev := { s.dev with alertTest := false }
    objs := { vals := State.reset.objs.vals.foldl (fun m e => FMap.put m e.1 e.2) (s.objs.vals.filter (fun e => keptObjs.contains e.1))
              blobs := [], force := [] }
    ep := { Ep.reset with perst := s.ep.perst }
    aon := { State.reset.aon with blog := s.aon.blog, blogSeq := s.aon.blogSeq }
    mgmt := { Mgmt.reset with power := { Power.reset with
      kind := p.kind, main := p.main, vbat := p.vbat, hold := p.hold, tamper := p.tamper, tampChg := p.tampChg
      thermtrip := p.thermtrip, trialBase := p.trialBase, trialLost := p.trialLost, causes := p.causes } } }
  if p.hold then u.setNum Obj.memholdState 1 else u

/-- What a reset or a loss of power makes of an activation or a rollback under way (Table 15-10): whether its deciding record was
complete is open. -/
def cutUpdate (s : State) : State :=
  if s.updSt = 5 ∧ !s.mgmt.upd.committed then
    let x := s.recordDrawn
    if x.1 then x.2.commitImage else x.2
  else if s.updSt = 7 then
    let x := s.recordDrawn
    if x.1 ∧ s.trialPrior ≠ 255 then x.2.bootRec 5 s.trialPrior (s.num Obj.activeBank) 0 0 else x.2
  else s

/-- A device reset of a kind (Table 16-4). -/
def deviceReset (s : State) (kind : Nat) : State :=
  let s : State := (s.cutUpdate.setDevState .reset).volatileReset
  let s : State := s.setPower { s.mgmt.power with kind := kind }
  { s.setNum Obj.lastResetKind kind with dev := { s.dev with startAt := s.dev.now } }

/-- Whether main power is there and the device runs or resets. -/
def powered (s : State) : Bool := s.dev.state != .off && s.dev.state != .backup

/-- A reset of a kind that main power makes possible. -/
def resetFor (s : State) (kind : Nat) : State := if s.powered then s.deviceReset kind else s

/-- The RTC runs from zero. -/
def rtcZero (s : State) : State := s.rtcSet 0

/-- The trial clock runs from zero. -/
def trialZero (s : State) : State := s.setPower { s.mgmt.power with trialBase := s.dev.now / cyclesS }

/-- POWER_ON: PWRGOOD rises; the reset under way is one of kind POWER_ON. -/
def powerOn (s : State) : State :=
  if s.powered ∧ s.mgmt.power.kind ≠ 0 then s
  else
    let s : State := if s.dev.state = .off then s.rtcZero.trialZero else s
    let s : State := s.setPower { s.mgmt.power with main := true }
    s.deviceReset 1

/-- A write to `DEVICE_RESET`. -/
def deviceResetWrite (s : State) (v : Nat) : WAns × State :=
  if v ≠ 0xA5 then (.now .unsupported 0, s) else (.now .ok 0, s.setPower { s.mgmt.power with due := true })

/-- COMMAND_RESET: the reset that a write to `DEVICE_RESET` has made due. -/
def commandReset (s : State) : State := if s.mgmt.power.due then s.resetFor 3 else s

/-- THERMTRIP_N is released when PWRGOOD falls. -/
def tripOff (s : State) : State :=
  if s.mgmt.power.thermtrip then (s.setPower { s.mgmt.power with thermtrip := false }).emit (.thermtrip false) else s

/-- PWRGOOD_FALL. -/
def pwrgoodFall (s : State) : State := if s.powered then s.tripOff.resetFor 5 else s

/-- RAIL_FAULT (R732): the record is made after the reset that it causes, so that it can be read (DEDUCED, log 54). -/
def railFault (s : State) (rail : Nat) : State :=
  if !s.powered then s
  else ((s.resetFor 5).bump Obj.railFaults |>.setNum Obj.lastRailFault rail).raise 0xB050 rail

/-- CLOCK_LOSS (R734): the monitor logs the reset in the backup domain, with the code of a start after a reset (log 54). -/
def clockLoss (s : State) : State :=
  if !s.powered then s
  else (s.bump Obj.clockResets |>.logBackup 0xB002 4 false false).resetFor 4

/-! ## The start (R738–R741, R652) -/

/-- One object of the journal: a value outside its range gives way to the default and is counted (R652). -/
def loadObj (s : State) (key : Nat) (v : List Byte) : State :=
  match objRow (key / 256) (key % 256) with
  | none => s
  | some r =>
    if !rangeOk r v then s.bump Obj.configRejects
    else
      let s : State := s.storeObj key r v
      if r.app = .boot then s.setForced key (stored r v) else s

/-- The configuration area is loaded; after a CONFIG_RESET it is empty (R652, R654). -/
def loadConfig (s : State) : State :=
  let s : State := { s with objs := { s.objs with
    vals := s.objs.vals.filter (fun e => !([Obj.vbatLowMv, Obj.backupTempLimit, Obj.rtcTrim].contains e.1)) } }
  let wipe := s.flash.wipe
  let s : State := if wipe then { s with flash := { s.flash with journal := [], wipe := false } } else s
  let s : State := s.setNum Obj.configLoadStatus (if wipe then 2 else 0)
  s.each s.flash.journal (fun s e => s.loadObj e.1 e.2)

/-- The generator of stochastic rounding and those of the near controllers are loaded, from the entropy source or from the seed
(R381, R459). -/
def loadGenerators (s : State) : State :=
  let s : State :=
    if s.num Obj.srSeedMode = 1 then { s with path := { s.path with sr := BitVec.ofNat 64 (s.num Obj.srSeed) } }
    else { s.drawFresh.2 with path := { s.path with sr := s.drawFresh.1 } }
  s.each (List.range 8) (fun s k => s.drawFresh.2.setChan (32 * k) { s.chan (32 * k) with lfsr := s.drawFresh.1.setWidth 32 })

/-- RESET_RELEASE: straps are sampled, the generators are loaded and the device enters BOOT. For any kind but POWER_ON the start is
counted from here. -/
def resetRelease (s : State) (straps : BitVec 3) : State :=
  let k := s.mgmt.power.kind
  if s.dev.state ≠ .reset ∨ k = 0 then s
  else
    let s : State := { s with dev := { s.dev with startAt := if k = 1 then s.dev.startAt else s.dev.now } }
    let s : State := (s.setPower { s.mgmt.power with straps := straps }).keepTime loadConfig |>.loadGenerators.setNum Obj.lastResetKind k
    let s : State := s.setDevState .boot
    let s : State := (s.raise 0xB002 k).setNum (Obj.coreState 0) 1
    s.each (List.range 16) (fun s i =>
      if h : i < 16 then
        if s.num (Obj.portEnable i) = 0 then s.updPort ⟨i, h⟩ (fun x => { x with state := .disabled }) else s
      else s)

/-- Whether the level of TAMPER_N, or of MEMHOLD_N, is active: its filtered level, or a latched chatter fault (R742). -/
def tamperLevel (s : State) : Bool := s.num Obj.tamperState != 0
def holdLevel (s : State) : Bool := s.num Obj.memholdState != 0

/-- The end of BOOT: the cores run, realm 0 is enabled, backup alarms are carried over (R752; one event for each bit, log 55), and
training begins with the DIMMs that are found. -/
def finishBoot (s : State) (x : BootView) : State :=
  let s : State := s.setPower { s.mgmt.power with boot := false, held := none }
  let s : State := s.each [0, 3, 1, 2] coreStarted
  let s : State := s.loadTables (s.bank (s.num Obj.activeBank)) .inUse
  let s : State := s.setDevState .init
  let alarms := s.num Obj.backupAlarms
  let s : State := s.each ((List.range 4).filter (bit alarms)) (fun s _ => s.raise 0xB030 alarms)
  (s.newKeys 0).findDimms x.dimms

/-- BOOT_COMPLETE (R602–R605, R720, R749): with no bank that verifies the ROM recovery server runs, and an active TAMPER_N holds
the start. -/
def bootComplete (s : State) (x : BootView) : State :=
  if s.dev.state ≠ .boot ∨ s.mgmt.power.boot then s
  else
    let c := s.bootBank x
    let s : State := c.2
    match c.1 with
    | none => (s.setPower { s.mgmt.power with boot := true }).raise 0x9005
    | some i =>
      let s : State := ((s.setBank i { s.bank i with st := 1 }).latchImage i).rebuildUpd i
      if s.tamperLevel ∧ s.num Obj.tamperAction = 1 then
        (s.setPower { s.mgmt.power with boot := true, held := some x }).raise 0xB020
      else s.finishBoot x

/-- The device enters HOLD (R744): what waits at step 3 is answered (R84), and REQ credits not yet returned fall under R82's rate. -/
def enterHold (s : State) : State :=
  let s : State := ((s.setDevState .hold).bump Obj.holdEntries).holdAnswers
  let s : State := { s with ports := s.ports.map (fun x => { x with owedRet := x.owedRet + x.pendRet.req, pendRet := { x.pendRet with req := 0 } }) }
  s.setPower { s.mgmt.power with holdAt := s.dev.now, phase := .entering }

/-- LEAVE_INIT (R739): the near tier is filled, every stack and channel is trained or fenced, and the class settings are installed. -/
def leaveInit (s : State) : State :=
  if s.dev.state ≠ .init ∨ s.num Obj.nearFillState ≠ 2 ∨ !s.allTrained (List.range 32) then s
  else
    let s : State := s.startClasses
    let s : State := s.setNum Obj.startToService ((s.dev.now - s.dev.startAt) / cyclesUs)
    if s.holdLevel then s.enterHold
    else s.setDevState (if s.anyFence then .degraded else .service)

/-! ## HOLD (R744–R747) -/

/-- Whether everything that was granted is done: no request but those that wait for a grant or at a Bollard, no snoop, no access. -/
def drained (s : State) : Bool :=
  s.path.reqs.all (fun r => r.stage == .waiting || r.stage == .bollard) && s.dir.snoops.isEmpty
    && s.dram.chans.all (fun e => e.2.wait.isEmpty && e.2.rq.isEmpty && e.2.wq.isEmpty && e.2.flight.isEmpty)

/-- Put every far channel in service into self-refresh, or let it leave; a stack's self-refresh shows in the HOLD itself. -/
def selfRefreshAll (s : State) (on : Bool) : State :=
  s.each ((List.range 24).map (256 + ·) |>.filter s.chanServes) (fun s c =>
    s.setChan c { s.chan c with sr := if on then .held else .no, openRow := if on then [] else (s.chan c).openRow })

/-- HOLD_ENTRY_COMPLETE: every stack and channel is in self-refresh; a level that has ended meanwhile begins the exit (R747). -/
def holdEntered (s : State) : State :=
  if s.mgmt.power.phase ≠ .entering ∨ s.dev.state ≠ .hold ∨ !s.drained then s
  else
    let s : State := s.selfRefreshAll true
    let s : State := (s.atLeast Obj.holdEntryMax ((s.dev.now - s.mgmt.power.holdAt) / cyclesUs)).raise 0xB010
    s.setPower { s.mgmt.power with phase := if s.holdLevel then .held else .exiting }

/-- HOLD_REMINDER. -/
def holdReminder (s : State) : State := if s.dev.state = .hold ∧ s.holdLevel then s.raise 0xB011 else s

/-- The exit begins, where HOLD is complete and the level has ended. -/
def holdEnding (s : State) : State :=
  if s.mgmt.power.phase = .held ∧ !s.holdLevel then s.setPower { s.mgmt.power with phase := .exiting } else s

/-- HOLD_EXIT_COMPLETE (R746, R747): each stack and channel has been recalibrated once; a level that is active again begins the next
entry in the following AON cycle. -/
def holdExited (s : State) : State :=
  if s.mgmt.power.phase ≠ .exiting ∨ s.dev.state ≠ .hold then s
  else
    let s : State := s.selfRefreshAll false
    let us := (List.range 32).filter (fun u => (s.unit u).st == .inService)
    let s : State := s.each us (fun s u => s.bump (if u < 8 then Obj.stackRecals u else Obj.chRecals (u - 8)))
    let s : State := s.setPower { s.mgmt.power with phase := .none }
    let s : State := (s.setDevState (if s.anyFence then .degraded else .service)).raise 0xB012
    if s.holdLevel then s.setPower { s.mgmt.power with holdDue := s.aonCycle + 1 } else s

/-! ## Pins (R742, R743, R748, R749) -/

/-- The filtered changes of the last second, with one more now. -/
def edges (s : State) (xs : List Nat) : List Nat := xs.filter (fun t => decide (s.dev.now < t + cyclesS)) ++ [s.dev.now]

/-- The filtered level of MEMHOLD_N changes; more than 16 changes in a second latch a chatter fault. -/
def holdEdge (s : State) (on : Bool) : State :=
  if !s.powered ∨ s.mgmt.power.hold = on then s
  else
    let chg := s.edges s.mgmt.power.holdChg
    let s : State := s.setPower { s.mgmt.power with hold := on, holdChg := chg }
    if s.num Obj.memholdState = 2 then s
    else if 16 < chg.length then (s.setNum Obj.memholdState 2).raise 0xB013
    else s.setNum Obj.memholdState (if on then 1 else 0)

/-- The level of MEMHOLD_N has become active: the device enters HOLD in the next AON cycle (R744). -/
def holdStarts (s : State) : State :=
  if s.holdLevel ∧ (s.dev.state = .service ∨ s.dev.state = .degraded) ∧ s.mgmt.power.holdDue = 0 then
    s.setPower { s.mgmt.power with holdDue := s.aonCycle + 1 }
  else s

/-- MEMHOLD_ACTIVE and MEMHOLD_INACTIVE. A chatter fault that the change latches makes the level active. -/
def memholdOn (s : State) : State := (s.holdEdge true).holdStarts
def memholdOff (s : State) : State := (s.holdEdge false).holdStarts.holdEnding

/-- What an active level of TAMPER_N does while main power is present; the reset follows in the next AON cycle (R748). -/
def tamperAct (s : State) : State :=
  if !s.powered then s
  else
    let s : State := (s.setBit Obj.backupAlarms 1).raise 0xB020
    if s.num Obj.tamperAction = 1 then s.setPower { s.mgmt.power with tampDue := s.aonCycle + 1 } else s

/-- The filtered level of TAMPER_N changes; the filter lies in the backup domain, so that it runs on VBAT as well. -/
def tamperEdge (s : State) (on : Bool) : State :=
  if s.dev.state = .off ∨ s.mgmt.power.tamper = on then s
  else
    let chg := s.edges s.mgmt.power.tampChg
    let was := s.tamperLevel
    let s : State := s.setPower { s.mgmt.power with tamper := on, tampChg := chg }
    let s : State := if s.num Obj.tamperState = 2 then s
      else if 16 < chg.length then (s.setNum Obj.tamperState 2).raise 0xB021
      else s.setNum Obj.tamperState (if on then 1 else 0)
    if s.tamperLevel ∧ !was then s.tamperAct else s

/-- A start that TAMPER_N holds continues once its level is inactive (R749). -/
def tamperFree (s : State) : State :=
  match s.mgmt.power.held with
  | some x => if s.tamperLevel then s else s.finishBoot x
  | none => s

/-- TAMPER_ACTIVE and TAMPER_INACTIVE. -/
def tamperOn (s : State) : State := s.tamperEdge true
def tamperOff (s : State) : State := (s.tamperEdge false).tamperFree

/-- A transition of the device state that an earlier AON cycle decided: the TAMPER reset first, then HOLD, which another state has put an end
to (R744, R748, R757). -/
def aonDue (s : State) : State :=
  let p := s.mgmt.power
  if p.tampDue ≠ 0 ∧ p.tampDue ≤ s.aonCycle then (s.setPower { p with tampDue := 0 }).resetFor 6
  else if p.holdDue ≠ 0 ∧ p.holdDue ≤ s.aonCycle then
    let s : State := s.setPower { p with holdDue := 0 }
    if s.dev.state = .service ∨ s.dev.state = .degraded then s.enterHold else s
  else s

/-- A write to `PIN_CHATTER_ACK` (R743). -/
def chatterAck (s : State) : WAns × State :=
  let p := s.mgmt.power
  let still (xs : List Nat) : Bool := xs.all (fun t => decide (t + cyclesS ≤ s.dev.now))
  let h := s.num Obj.memholdState == 2 && still p.holdChg
  let t := s.num Obj.tamperState == 2 && still p.tampChg
  if !h && !t then (.now .modeConflict 0, s)
  else
    let s : State := if h then s.setNum Obj.memholdState (if p.hold then 1 else 0) else s
    let s : State := if t then s.setNum Obj.tamperState (if p.tamper then 1 else 0) else s
    (.now .ok 0, s.holdEnding.tamperFree)

/-! ## The backup domain (R750–R752) -/

/-- Entry to OFF: the RTC, the trial clock and the log are lost, and with them what else the backup domain held; the next start
finds the alarm of a lost RTC. -/
def goOff (s : State) : State :=
  let s : State := (s.setDevState .off).volatileReset
  let s : State := { s with aon := { s.aon with blog := [], blogSeq := 0 }, objs := { s.objs with vals := State.reset.objs.vals } }
  let s : State := (s.setPower { s.mgmt.power with tamper := false, tampChg := [], trialLost := true, causes := 0 }).rtcZero.trialZero
  s.setNum Obj.backupAlarms 8

/-- MAIN_POWER_LOSS (R750, Table 15-10). -/
def mainLoss (s : State) : State :=
  if !s.powered then s
  else
    let s : State := s.tripOff.cutUpdate
    let s : State := s.setPower { s.mgmt.power with main := false, kind := 0, hold := false }
    if s.mgmt.power.vbat then (s.setDevState .backup).volatileReset else s.goOff

/-- VBAT_LOSS. -/
def vbatLoss (s : State) : State :=
  let s : State := s.setPower { s.mgmt.power with vbat := false }
  if s.dev.state = .backup then s.goOff else s

/-- VBAT_RETURN. -/
def vbatReturn (s : State) : State :=
  let s : State := s.setPower { s.mgmt.power with vbat := true }
  if s.dev.state = .off then s.rtcZero.trialZero.setDevState .backup else s

/-- MAIN_RAILS_RISE: the device is in RESET and waits for PWRGOOD. -/
def railsRise (s : State) : State :=
  if s.powered then s
  else
    let s : State := if s.dev.state = .off then s.rtcZero.trialZero else s
    (s.setPower { s.mgmt.power with main := true, kind := 0 }).setDevState .reset

/-- The causes of the backup alarms as they stand: cell low, tamper, temperature, RTC lost. -/
def alarmCauses (s : State) (mv : Nat) (temp : Int) (tamper : Bool) : Nat :=
  let limit := s.num Obj.backupTempLimit
  (if mv < s.num Obj.vbatLowMv then 1 else 0) + (if tamper then 2 else 0) + (if (limit : Int) < temp then 4 else 0)

/-- BACKUP_SAMPLE (R751): in BACKUP an alarm is latched and logged at its onset, which a cause that holds unlatched when main power is lost has
there; with main power the sample only shows VBAT
(DEDUCED from D000.03, log 56). -/
def backupSample (s : State) (mv : Nat) (temp : Int) (tamper : Bool) : State :=
  if s.dev.state = .off then s
  else
    let now := s.alarmCauses mv temp (tamper || s.tamperLevel)
    let old := s.mgmt.power.causes
    let s : State := (s.setNum Obj.vbatMv mv).setPower { s.mgmt.power with causes := now }
    if s.dev.state = .backup then
      let known := old &&& s.num Obj.backupAlarms
      s.each ((List.range 3).filter (fun i => bit now i && !bit known i)) (fun s i =>
        (s.setBit Obj.backupAlarms i).logBackup 0xB030 (2 ^ i) false true)
    else s

/-- A write to `BACKUP_ALARM_ACK` clears the latches whose cause has ended. -/
def alarmAck (s : State) : State :=
  let c := s.mgmt.power.causes
  let holds (i : Nat) : Bool :=
    if i = 1 then s.tamperLevel else if i = 3 then s.num Obj.rtcValid == 0 else bit c i
  s.each ((List.range 4).filter (fun i => !holds i)) (fun s i => s.clearBit Obj.backupAlarms i)

/-- A write to `RTC_TIME`. -/
def setRtc (s : State) (v : Nat) : State :=
  (s.setNum Obj.rtcValid 1).rtcSet v

/-- ACTIVATION_COMPLETE: one through the recovery server ends in a device reset (R720; of kind COMMAND, log 57). -/
def activated (s : State) : State :=
  let rom := s.mgmt.power.boot && s.updSt == 5
  let s : State := s.activationDone
  if rom then s.deviceReset 3 else s

end State

end Sys2Proof.Machine
end

