-- ==== Sys2Proof/Machine/GaugeOps.lean ====
section
/-! DEFINITION. Tidegauge: counters, trace points, the trace buffer and its stream (chapter 17), and the dictionary's timeouts and the
field network's services (chapter 14). -/

namespace Sys2Proof.Machine

/-- The selectors of Table 17-1. -/
def selectors : List Nat :=
  [0x1001, 0x1002, 0x1003, 0x1004, 0x2001, 0x2002, 0x2003, 0x3001, 0x3002, 0x3003, 0x4001, 0x4002, 0x5001, 0x5002, 0x5003, 0x5004,
   0x6001, 0x6002, 0x6003, 0x7001, 0x7002, 0xC001, 0xD001, 0xD002]

/-- A trace record (Table 17-3). -/
def TRec.bytes (r : TRec) : List Byte :=
  leBytes 8 r.time ++ leBytes 1 r.point ++ leBytes 1 r.src ++ leBytes 1 (r.cls % 64)
    ++ leBytes 1 (r.stat % 16 + (if r.drop then 16 else 0)) ++ leBytes 2 r.tag ++ leBytes 2 0 ++ leBytes 8 r.addr ++ leBytes 4 r.arg
    ++ leBytes 4 r.seq

namespace State

/-- Set Tidegauge. -/
def setGauge (s : State) (g : Gauge) : State := { s with mgmt := { s.mgmt with gauge := g } }

/-! ## Counters (R762–R767) -/

/-- The counters for which a subindex holds a number. -/
def cntListed (s : State) (sub : Nat) : List Nat :=
  (s.objs.vals.filter (fun e => decide (0xC000 ≤ e.1 / 256 ∧ e.1 / 256 ≤ 0xC7FF) && e.1 % 256 == sub)).map (fun e => e.1 / 256 - 0xC000)

/-- A write to `CNT_SNAPSHOT`: every counter is copied. -/
def snapshot (s : State) : State :=
  let s : State := s.each (s.cntListed 5) (fun s j => s.setNum (Obj.cntSnap j) 0)
  let s : State := s.each (s.cntListed 2) (fun s j => s.setNum (Obj.cntSnap j) (s.num (Obj.cntValue j)))
  s.setNum Obj.cntSnapshotTime s.time64

/-- A write to `CNT_CLEAR` or `CNT_CLEAR_ALL`. -/
def clearCounter (s : State) (j : Nat) : State := s.setNum (Obj.cntValue j) 0
def clearCounters (s : State) : State := s.each (s.cntListed 2) clearCounter

/-- A write to `CNT_ENABLE`. -/
def enableCounter (s : State) (j v : Nat) : State :=
  let g := s.mgmt.gauge
  let on := g.on.filter (· != j) ++ (if v = 1 then [j] else [])
  ((s.setNum (Obj.cntEnable j) v).setGauge { g with on := on }).setNum Obj.cntEnabled on.length

/-- A write to `CNT_SELECT`: a selector that Table 17-1 does not list is UNSUPPORTED. -/
def selectCounter (s : State) (j v : Nat) : WAns × State :=
  if selectors.contains v then (.now .ok 0, (s.setNum (Obj.cntSelect j) v).clearCounter j) else (.now .unsupported 0, s)

/-- A write to `CNT_FILTER`. -/
def filterCounter (s : State) (j v : Nat) : State := (s.setNum (Obj.cntFilter j) v).clearCounter j

/-! ## Trace (R768–R775) -/

/-- A write to `TP_CONTROL` of a point, 1 to 9: one that sets EN loads the point's generator from the entropy source. -/
def tpWrite (s : State) (pt v : Nat) : State :=
  let s : State := s.setLater (Obj.tpControl (pt - 1)) v
  if bit v 0 then
    let x : BitVec 16 := s.drawFresh.1.setWidth 16
    let s : State := s.drawFresh.2
    s.setGauge { s.mgmt.gauge with lfsr := FMap.put s.mgmt.gauge.lfsr pt x }
  else s

/-- A write to `TRACE_MODE`: a stopped buffer is released. -/
def traceModeWrite (s : State) (v : Nat) : State :=
  (s.flushTrace.setNum Obj.traceMode v).updGauge (fun g => { g with stopped := false })

/-- Take the oldest unread records. -/
def takeRecs (s : State) (n : Nat) : List TRec × State :=
  let s : State := s.flushTrace
  let g := s.mgmt.gauge
  let rest := g.recs.drop n
  (g.recs.take n, s.setGauge { g with recs := rest, stopped := g.stopped && !rest.isEmpty })

/-! ## Streaming (R776–R778) -/

/-- A write to `STREAM_ENABLE`. -/
def streamEnable (s : State) (v : Nat) : State :=
  let s : State := s.setNum Obj.streamEnable v
  if v = 1 then (s.setNum Obj.streamTail 0).setNum Obj.streamHead 0 else s

/-- A write to `STREAM_BASE` or `STREAM_SIZE`: MODE_CONFLICT while enabled; UNSUPPORTED for a value that R776 excludes. -/
def streamPlace (s : State) (key v : Nat) (ok : Bool) : WAns × State :=
  if s.num Obj.streamEnable = 1 then (.now .modeConflict 0, s)
  else if ok then (.now .ok 0, s.setNum key v)
  else (.now .unsupported 0, s)

/-- A write to `STREAM_HEAD`. -/
def streamHead (s : State) (v : Nat) : WAns × State :=
  if s.num Obj.streamTail < v then (.now .unsupported 0, s) else (.now .ok 0, s.setNum Obj.streamHead v)

/-- STREAM_WRITE: at most 4 KiB of records, within the room and up to the ring's end, go to the host ring. -/
def streamWrite (s : State) : State :=
  let s : State := s.flushTrace
  let tail := s.num Obj.streamTail
  let used := tail - s.num Obj.streamHead
  let size := s.num Obj.streamSize
  if s.num Obj.streamEnable ≠ 1 ∨ !s.dmaOn ∨ s.halted 2 ∨ s.mgmt.gauge.recs.isEmpty ∨ size ≤ used then s
  else
    let n := min 128 (min ((size - used) / 32) ((size - tail % size) / 32))
    let x := s.takeRecs n
    let bs := x.1.flatMap TRec.bytes
    let s : State := x.2.emit (.dmaWrite 2 (s.num Obj.streamBase + tail % size) bs)
    s.setNum Obj.streamTail ((tail + bs.length) % 2 ^ 64)

/-! ## The dictionary's timeouts (R651, R654, R662, R676, R677) -/

/-- SESSION_IDLE_TIMEOUT: a request in the same 500 MHz cycle wins. -/
def idleTimeout (s : State) (p : Path) (n : BitVec 32) : State :=
  match s.mgmt.dict.sess.find? (fun x => x.path == pathNum p && x.num == n) with
  | some x => if x.active && x.since / 4 != s.dev.now / 4 then s.closeSess (pathNum p) n else s
  | none => s

/-- PENDING_SESSION_TIMEOUT. -/
def pendingTimeout (s : State) (p : Path) (n : BitVec 32) : State :=
  match s.mgmt.dict.sess.find? (fun x => x.path == pathNum p && x.num == n) with
  | some x => if x.active then s else s.closeSess (pathNum p) n
  | none => s

/-- ASSEMBLY_TIMEOUT. -/
def assemblyTimeout (s : State) (p : Path) (n : BitVec 32) : State :=
  s.setDict { s.mgmt.dict with asm := s.mgmt.dict.asm.filter (fun x => !(x.path == pathNum p && x.num == n)) }

/-- AUTH_LOCKOUT_END. -/
def lockoutEnd (s : State) (p : Path) (auth : Nat) : State :=
  s.setDict { s.mgmt.dict with locked := s.mgmt.dict.locked.filter (· != pathNum p * 4 + auth) }

/-- CHANGE_RECORD_COMPLETE: the last value written is in the journal. -/
def recordDone (s : State) (key : Nat) : State :=
  match s.mgmt.dict.saving.find? (fun e => e.1 == key) with
  | none => s
  | some e =>
    let s : State := s.setDict { s.mgmt.dict with saving := FMap.del s.mgmt.dict.saving key }
    ({ s with flash := { s.flash with journal := FMap.put s.flash.journal key e.2 } }).bump Obj.configRecords

/-- A write to `CONFIG_RESET`. -/
def configReset (s : State) (v : Nat) : WAns × State :=
  if v ≠ 0xA5 then (.now .unsupported 0, s) else (.now .ok 0, { s with flash := { s.flash with wipe := true } })

/-! ## The field network (R664–R667) -/

/-- The IPv6 link-local address from the MAC address by the modified EUI-64 of RFC 4291 (R665), as a number whose first byte is the
most significant. -/
def linkLocal : BitVec 128 :=
  let m := Config.macAddress
  let hi : BitVec 24 := m.extractLsb' 24 24 ^^^ 0x020000#24
  (0xFE80000000000000#64) ++ hi ++ (0xFFFE#16) ++ m.extractLsb' 0 24

/-- Whether the field network is up. -/
def t1sUp (s : State) : Bool := s.powered && s.dev.state != .reset && s.num Obj.t1sLinkState != 0

/-- NEIGHBOR_SOLICITATION of the device's own address is answered. -/
def solicited (s : State) (peer : Nat) (target : BitVec 128) : State :=
  if !s.t1sUp then s
  else if target == linkLocal then s.frameRx.frameTx (.ndAnswer peer linkLocal) else s.frameRx

/-- ECHO_REQUEST. -/
def echo (s : State) (peer : Nat) (data : List Byte) : State := if s.t1sUp then s.frameRx.frameTx (.echoReply peer data) else s

/-- T1S_LINK_CHANGE: 0 down, 1 up, 2 up as coordinator; only node 0 is the coordinator (R664). -/
def t1sChange (s : State) (st : Nat) : State :=
  let node := s.mgmt.power.straps.toNat
  if !s.powered ∨ s.dev.state = .reset ∨ 2 < st ∨ (st = 2 ∧ node ≠ 0) ∨ (st = 1 ∧ node = 0) then s
  else s.setNum Obj.t1sLinkState st

end State

end Sys2Proof.Machine
end

