-- ==== Sys2Proof/Machine/FlitOps.lean ====
section
/-! DEFINITION. What the link rows do at a port: a flit that arrives, CONTROL messages, timers of the link layer, lane checks,
training and the port objects that act (chapter 02). -/

namespace Sys2Proof

/-- The flit header as a number (Table 02-3). -/
def Flit.word (f : Flit) : Nat :=
  f.kind.toNat + f.seq.toNat * 2 ^ 2 + f.ack.toNat * 2 ^ 12 + f.cvc.toNat * 2 ^ 22 + f.ccnt.toNat * 2 ^ 24

open Machine in
/-- Whether a flit's codewords decoded and its CRC matches (R51, R52). A flit of the reserved KIND is not accepted (log 58). -/
def Flit.sound (f : Flit) : Bool := f.cwOk && f.kind != 3 && crc32c (leBytes 4 f.word ++ ofUnits f.units) == f.crc

end Sys2Proof

namespace Sys2Proof.Machine

/-- What the CONTROL messages that wait for an answer hold of one kind. -/
def Ctl.degradeAt (at_ : BitVec 12) : Ctl → Option Half
  | .degradeReq h a => if a = at_ then some h else none
  | _ => none
def Ctl.isUpshift (at_ : BitVec 12) : Ctl → Bool
  | .upshiftReq a => a == at_
  | _ => false
def Ctl.isReplay : Ctl → Bool
  | .replayReq _ => true
  | _ => false

/-- The dictionary request that a MGMT message carries: the header of Table 14-4 and LENGTH value bytes. A body shorter than 3
units, or one with an OP that its opcode does not carry, is damaged (R671): OP 0 stands for it. -/
def askOfBody (p : Fin 16) (tag : BitVec 12) (opc : Nat) (b : List Byte) : Ask :=
  let n (i k : Nat) : Nat := leNat (slice b i k)
  let fits := decide (24 ≤ b.length) && (if opc = 0x30 then n 1 1 == 1 || n 1 1 == 6 else n 1 1 == 2)
  let op := if fits then n 1 1 else 0
  ⟨⟨.link p, BitVec.ofNat 32 (n 4 4), BitVec.ofNat 16 (n 2 2), [], tag, 0⟩, n 0 1, op, n 8 2, n 10 1, n 11 1, n 12 4, n 16 4, n 20 4,
    if op = 1 then [] else (b.drop 24).take (n 16 4)⟩

namespace State

/-- A message that names a reserved opcode is refused with UNSUPPORTED (R8); R67 holds for it as well. So is an opcode of the other
channel, and one that only the device sends: Table 02-6 has neither in the message's channel (DESIGN CHOICE, log 58). -/
def reservedOpc (s : State) (p : Fin 16) (h : Hdr) (vc : VC) (n : Nat) : State :=
  let s : State := (s.holdUnits p vc n).returnUnits p vc n
  if s.tagHeld p h.tag then (s.bump (Obj.tagReuseDrops p)).raise 0x1041 p
  else s.updPort p (fun x => { x with ready := x.ready ++ [(Cpl.plain .unsupported).msg vc h.tag none none] })

/-- SNP_DATA of a port; as the answer to a group snoop or a pod snoop it is a protocol error (R320). -/
def snpDataIn (s : State) (p : Fin 16) (tag : BitVec 12) (d : List Byte) : State :=
  match s.dir.snoops.find? (fun x => x.master == .port p && x.tag == tag && !x.waitWb) with
  | some x => if x.scope = 0 then s.snoopAnswer (.port p) tag false (some d) else s.protocolError p
  | none => s.snoopAnswer (.port p) tag false (some d)

/-- A whole message of n units is processed; `ask` serves the in-band dictionary (R105). -/
def inMsg (ask : State → Fin 16 → Nat → Ask → State) (s : State) (p : Fin 16) (n : Nat) : InMsg → State
  | .request h op => (s.holdUnits p .req n).arrive p h op 0
  | .reserved h _ => s.reservedOpc p h .req n
  | .mgmt h opc body => if opc = 0x30 ∨ opc = 0x31 then ask s p n (askOfBody p h.tag opc body) else s.reservedOpc p h .mgmt n
  | .snpAck tag wb => ((s.holdUnits p .rsp n).returnUnits p .rsp n).snoopAnswer (.port p) tag wb none
  | .snpData tag d => ((s.holdUnits p .rsp n).returnUnits p .rsp n).snpDataIn p tag d

/-- Process the received units of a port, message by message. A protocol error drops the units that are not yet a message. -/
def takeUnits (ask : State → Fin 16 → Nat → Ask → State) : Nat → State → Fin 16 → State
  | 0, s, _ => s
  | n + 1, s, p =>
    let x := s.ports[p]
    if x.state ≠ .up then s
    else
      let bad : State := (s.updPort p (fun x => { x with rxPart := [] })).protocolError p
      match parseMsg p x.relay x.rxPart with
      | .more => if overrun x p then bad else s
      | .pad rest => takeUnits ask n (s.updPort p (fun x => { x with rxPart := rest })) p
      | .error => bad
      | .msg m k vc rest =>
        if advertised vc < unitsOut x vc + k then bad
        else
          let s : State := inMsg ask (s.updPort p (fun x => { x with rxPart := [] })) p k m
          takeUnits ask n (s.updPort p (fun x => { x with rxPart := rest ++ x.rxPart })) p

/-- A flit in the cycle in which a reset of its port was decided: only a further condition of rung 3 counts, a replay that escalates
to it or a protocol error (R60, R61, R76, R86, R800). -/
def lateFlit (s : State) (p : Fin 16) (f : Flit) : State :=
  let x := s.ports[p]
  if !f.sound ∨ (f.kind = 0 ∧ f.seq ≠ x.rxLast + 1) then
    let down : Bool := match (f.lane.map (·.val)).or x.replayLane with
      | some l => s.canDegrade p x.was.1 x.was.2 l
      | none => false
    if decide (x.replayFails + 1 < s.num (Obj.replayEscCount p)) || down then s else (s.raise 0x1010 p).portReset p 1 false
  else
    let y := { x with rxPart := x.rxPart ++ f.units }
    if f.kind = 0 ∧ ((rxScan p x.relay y.rxPart.length y.rxPart).2 || overrun y p) then s.protocolError p else s

/-- FLIT_RECEIVED (R52–R56, R76, R87): while a replay is awaited, later PAYLOAD flits are discarded without a further request. -/
def flitIn (ask : State → Fin 16 → Nat → Ask → State) (s : State) (p : Fin 16) (f : Flit) : State :=
  let x := s.ports[p]
  if x.state ≠ .up then (if s.resetNow p then s.lateFlit p f else s)
  else if !f.sound then s.replay p f.lane
  else if f.kind = 0 ∧ f.seq ≠ x.rxLast + 1 then (if x.replayWait then s else s.replay p f.lane)
  else
    let s : State := s.updPort p (fun x => { x with retry := freeThrough f.ack x.retry })
    if f.kind ≠ 0 then s
    else
      let vc := VC.ofCode f.cvc.toNat
      let s : State := s.updPort p (fun x => { addCredit x s.dev.now vc f.ccnt.toNat with
        rxLast := f.seq, replayWait := false, replayFails := 0
        replayLane := none, ctrl := x.ctrl.filter (fun c => !c.isReplay), rxPart := x.rxPart ++ f.units })
      takeUnits ask (s.ports[p].rxPart.length + 1) s p

/-- REPLAY_REQ (R87, R88): the flits from the named SEQ on are sent again; one that names no held flit changes nothing. -/
def replayFrom (s : State) (p : Fin 16) (seq : BitVec 10) : State :=
  let x := s.ports[p]
  if x.state ≠ .up then s
  else match freeThrough (seq - 1) x.retry with
    | [] => s.updPort p (fun x => { x with retry := [] })
    | f :: fs =>
      if f.seq ≠ seq then s
      else ((s.updPort p (fun x => { x with retry := f :: fs })).bump (Obj.replayCount p)).resend p (f :: fs)

/-- DEGRADE_REQ: the device answers and switches at the named codeword. -/
def degradeAsked (s : State) (p : Fin 16) (half : Half) (at_ : BitVec 12) : State :=
  let x := s.ports[p]
  if x.state ≠ .up ∨ x.width ≠ 16 then s
  else ((s.updPort p (fun x => { x with switchAt := some (at_, some half), degradeAt := s.dev.now + 1 })).bump
    (Obj.degradeCount p)).sendCtl p (.degradeAck at_)

/-- DEGRADE_ACK of the device's own request. -/
def degradeAcked (s : State) (p : Fin 16) (at_ : BitVec 12) : State :=
  let x := s.ports[p]
  if x.state ≠ .up then s
  else match x.ctrl.findSome? (Ctl.degradeAt at_) with
    | none => s
    | some h => (s.answered p (fun c => (c.degradeAt at_).isSome)).updPort p (fun x => { x with switchAt := some (at_, some h) })

/-- Whether a port may go back to 16 lanes. -/
def mayWiden (s : State) (p : Fin 16) : Bool :=
  s.ports[p].state == .up && s.ports[p].width == 8 && s.num (Obj.portWidthMax p) == 16

/-- UPSHIFT_REQ: the device answers and switches back at the named codeword. -/
def upshiftAsked (s : State) (p : Fin 16) (at_ : BitVec 12) : State :=
  if !s.mayWiden p then s
  else (s.updPort p (fun x => { x with switchAt := some (at_, none) })).sendCtl p (.upshiftAck at_)

/-- UPSHIFT_ACK of the device's own request. -/
def upshiftAcked (s : State) (p : Fin 16) (at_ : BitVec 12) : State :=
  let x := s.ports[p]
  if x.state = .up ∧ x.ctrl.any (Ctl.isUpshift at_) then
    (s.answered p (Ctl.isUpshift at_)).updPort p (fun x => { x with switchAt := some (at_, none) })
  else s

/-- WIDTH_SWITCH (R89, R90, R411): the named codeword is reached; a REPLAY_REQ that still waits is sent again at the new width. -/
def widthSwitch (s : State) (p : Fin 16) : State :=
  let x := s.ports[p]
  if x.state ≠ .up then s
  else match x.switchAt with
    | none => s
    | some (_, some h) =>
      let s : State := s.updPort p (fun x => { x with switchAt := none, degrading := false, soakBad := 0 })
      let s : State := (s.setWidth p 8 h).raise 0x1020 p
      s.each (x.ctrl.filter Ctl.isReplay) (fun s c => s.sendCtl p c)
    | some (_, none) =>
      let s : State := s.updPort p (fun x => { x with switchAt := none, soakBad := 0, laneFault := 0 })
      let s : State := (s.setWidth p 16 .low).raise 0x1021 p
      s.each (x.ctrl.filter Ctl.isReplay) (fun s c => s.sendCtl p c)

/-- PARAM: it is exchanged while a port trains (Table 02-10). -/
def paramIn (s : State) (p : Fin 16) (m : ParamMsg) : State :=
  let x := s.ports[p]
  if (x.state = .training ∨ x.state = .recovering) ∧ !checkerFenced x then s.paramDone p m else s

/-- RESUME (R92–R94): both flags decide, the device's as it sent it. -/
def resumeIn (s : State) (p : Fin 16) (valid : Bool) (seq : BitVec 10) : State :=
  let x := s.ports[p]
  let mine (c : Ctl) : Option Bool := match c with | .resume v _ => some v | _ => none
  if x.state ≠ .recovering then s
  else match x.ctrl.findSome? mine with
    | none => s
    | some v =>
      let s : State := s.updPort p (fun x => { x with ctrl := [] })
      if v && valid && !x.forceFresh then s.resumeReset p seq else (s.freshReset p).portUp p

/-- CONTROL_REPEAT (R57). -/
def repeatCtl (s : State) (p : Fin 16) : State := s.each s.ports[p].ctrl (fun s c => s.sendCtl p c)

/-- ACK_TIMEOUT (Table 02-11). -/
def ackTimeout (s : State) (p : Fin 16) : State :=
  let x := s.ports[p]
  if (x.state = .up ∨ s.resetNow p = true) ∧ x.retry ≠ [] then (s.raise 0x1011 p).portReset p 2 false else s

/-- DEGRADE_TIMEOUT (Table 02-11). -/
def degradeTimeout (s : State) (p : Fin 16) : State :=
  let x := s.ports[p]
  let under : Bool := match x.switchAt with | some (_, some _) => true | _ => x.degrading
  if (x.state = .up ∧ under = true) ∨ (s.resetNow p = true ∧ x.was.2 = true) then (s.raise 0x1022 p).portReset p 3 false else s

/-- LANE_SER_CHECK (Table 02-11, R90): the corrected symbols of each lane in the last 1 ms. -/
def laneSer (s : State) (p : Fin 16) (counts : List Nat) : State :=
  if s.ports[p].state ≠ .up ∧ !s.resetNow p then s
  else
    let s : State := s.each (List.range 16) (fun s i => s.bump (Obj.laneErrors p i) (counts.getD i 0))
    let thr := s.num (Obj.laneSerThreshold p)
    let x := s.ports[p]
    let soak := x.width == 8 && (List.range 16).any (fun i => halfOf i != x.half && decide (thr ≤ 4 * counts.getD i 0))
    let s : State := if soak then s.updPort p (fun x => { x with soakBad := s.dev.now + 1 }) else s
    s.laneFaults p ((List.range 16).filter (fun i => decide (thr < counts.getD i 0)))

/-- LANE_LOCK_LOST (Table 02-11). -/
def laneLost (s : State) (p : Fin 16) (lane : Nat) : State :=
  if s.ports[p].state ≠ .up ∧ !s.resetNow p then s else s.laneFaults p [lane]

/-- UPSHIFT_SOAK_END (R90): the idle half has stayed clean; a lane that was not clean in this very cycle starts the soak anew. -/
def soakEnd (s : State) (p : Fin 16) : State :=
  let x := s.ports[p]
  if !s.mayWiden p ∨ s.num (Obj.autoUpshift p) ≠ 1 ∨ x.switchAt.isSome then s
  else if x.soakBad = s.dev.now + 1 then s
  else
    let at_ := s.drawFresh.1.setWidth 12
    s.drawFresh.2.sendAsk p (.upshiftReq at_)

/-- Whether the device is on: its ports exist and train. -/
def portsLive (s : State) : Bool :=
  match s.dev.state with
  | .off => false | .backup => false | .reset => false | .boot => false
  | _ => true

/-- What the device offers in the PARAM exchange: its width, the credits of Table 02-8, its node ID and its feature word (R71, Table
02-10). -/
def ownParam (s : State) (p : Fin 16) : Ctl :=
  .param (s.num (Obj.portWidthMax p)) ⟨advertised .req, advertised .rsp, advertised .snp, advertised .mgmt⟩
    (BitVec.ofNat 18 s.ownNode) Config.linkFeatures

/-- A training attempt begins (R78, Table 02-10): PARAM is offered. -/
def beginTraining (s : State) (p : Fin 16) : State :=
  let x := s.ports[p]
  if !s.portsLive ∨ checkerFenced x then s
  else if x.state = .down ∨ x.state = .training ∨ x.state = .recovering then
    (s.updPort p (fun x => { x with state := if x.state = .down then .training else x.state, ctrl := [] })).sendAsk p (s.ownParam p)
  else s

/-- LANE_DETECT (R78): a port without a partner is DOWN and raises nothing, and no attempt of it counts; lanes that appear begin
training. -/
def laneDetect (s : State) (p : Fin 16) (lanes : Bool) : State :=
  let x := s.ports[p]
  if lanes then (if x.state = .down then s.beginTraining p else s)
  else if x.state = .training ∧ !checkerFenced x then s.updPort p (fun x => { x with state := .down, ctrl := [] })
  else s

/-- TRAINING_FAILED (R78, R80). -/
def trainingFailed (s : State) (p : Fin 16) : State :=
  let x := s.ports[p]
  if (x.state = .training ∨ x.state = .recovering) ∧ !checkerFenced x then s.trainFail p else s

/-- CREDIT_CARRIER_TIMEOUT (R73): a flit of pad units carries the credits. -/
def carryCredits (s : State) (p : Fin 16) : State :=
  let x := s.ports[p]
  if x.state = .up ∧ (nextCvc x).isSome ∧ x.retry.length < 512 then s.newFlit p [] [] else s

/-- RSP_HOLD_START (R77): a completion waits for RSP credits. -/
def rspHoldOn (s : State) (p : Fin 16) : State :=
  let x := s.ports[p]
  if x.state = .up ∧ rspWaits x s.dev.now ∧ !x.rspHold then
    ((s.updPort p (fun x => { x with rspHold := true })).setBit Obj.portRspHold p).raise 0x5006 p
  else s

/-- A write to `INJECT_FLIT_CRC` (R111). -/
def injectCrc (s : State) (p : Fin 16) (n : Nat) : State := s.updPort p (fun x => { x with inject := n })

/-- A write to `PORT_ENABLE` (R102, Table 02-11). A port that was UP is reset when it is enabled again. -/
def portEnableWrite (s0 : State) (p : Fin 16) (v : Nat) : State :=
  let was := s0.num (Obj.portEnable p)
  let s : State := s0.setNum (Obj.portEnable p) v
  let x := s.ports[p]
  if checkerFenced x then s
  else if v = 0 then
    if x.state = .fenced ∨ x.state = .disabled then s
    else
      let inReset := x.inReset || x.state == .up
      let s : State := s.updPort p (fun x => { x with
        state := .disabled, inReset := inReset, width := 0, ctrl := [], switchAt := none, degrading := false, stalled := false })
      s.raise 0x1002 p
  else if x.state = .disabled then
    if x.fence = .training then s.updPort p (fun x => { x with state := .training, attempts := 0 })
    else if x.inReset then
      (s.updPort p (fun x => { x with state := .up, inReset := false })).portReset p 7 x.forceFresh
    else s.updPort p (fun x => { x with state := .down, attempts := 0 })
  else if x.state = .fenced ∧ was = 0 then
    let s : State := (s.bump (Obj.resetCount p)).setNum (Obj.lastResetCause p) 7
    s.updPort p (fun x => { x with state := .training, attempts := 0 })
  else s

/-- A write to `PORT_WIDTH_MAX` (R90): 8 degrades a port at 16 lanes; lanes 0–7 stay in use (DESIGN CHOICE, log 132). -/
def widthMaxWrite (s0 : State) (p : Fin 16) (v : Nat) : State :=
  let s : State := s0.setNum (Obj.portWidthMax p) v
  let x := s.ports[p]
  if v = 8 ∧ x.state = .up ∧ x.width = 16 ∧ !x.degrading ∧ x.switchAt.isNone then s.degrade p .low else s

end State

end Sys2Proof.Machine
end

