-- ==== Sys2Proof/Machine/LandOps.lean ====
section
/-! DEFINITION. What the landing cache's rows, a first placement's and a line store writeback's do (chapters 01, 04, 05). -/

namespace Sys2Proof.Machine

namespace State

/-- The blocks that a request of a compressed page touches. -/
def blksOf (r : Req) : List Nat := ((r.grans (r.mode.getD Mode.none)).map (· / 64)).eraseDups

/-- Requests in H8 none of whose blocks is being installed, or that never found room, go on with step 7. -/
def pumpH8 (s : State) : State := s.wakeAll 7 (fun r => r.stage == .h8 && !(blksOf r).any s.installing)

/-- LANDING_INSTALL_COMPLETE (R189, R197): all sixteen sub-streams are decoded, and what waits for the block is served in grant
order. -/
def blockInstalled (s : State) (p blk : Nat) : State :=
  let k := p * 16 + blk
  match s.block k with
  | none => s
  | some b =>
    if b.st ≠ .installing then s
    else
      let c := s.copyA p
      let gs := (List.range 64).map (fun i => p * 1024 + 64 * blk + i)
      let idxs := (gs.flatMap (fun g => s.granIdxs b.mode c (g % 1024))).eraseDups
      let x := idxs.foldl (fun (a : List (Nat × Gran) × State) n =>
        let y := a.2.copyGran b.mode p c n
        (a.1 ++ [(c.key n, y.1)], y.2.2)) (([], s) : List (Nat × Gran) × State)
      let y := if c.tier = 0 then (List.replicate 64 Gran.zero, s) else x.2.nativeAll b.mode p c x.1 gs
      let s : State := y.2.setBlock k (some { b with st := .present, grans := y.1 })
      s.wakeAll 7 (fun r => r.stage == .h8 && (blksOf r).contains k)

/-- Whether a request that reads stored granules of a block is on its way. -/
def blockRead (s : State) (p blk : Nat) : Bool :=
  s.path.reqs.any (fun r => r.stage == .mem && (r.grans (r.mode.getD Mode.none)).any (fun g => g / 64 == p * 16 + blk))

/-- Put evicted blocks' granules at their offsets in a page's extents, with the index granule: they enter the write queues in one cycle
(R37, R200). -/
def putBlocks (s : State) (m : Mode) (p : Nat) (es : List IdxEnt) (bs : List JobBlk) : State :=
  let idx : Gran := ⟨idxBytes es, false⟩
  let at_ (c : Copy) : List GW :=
    if c.tier = 0 then []
    else s.granAt p c (v0Of m) 0 idx :: bs.flatMap (fun b =>
      b.grans.zipIdx.map (fun x => s.granAt p c (v0Of m) ((es.getD b.blk ⟨0, 0, 2, 0⟩).off + x.2) x.1))
  let s : State := s.queueNow (at_ (s.copyA p) ++ (if s.roleB p = .mirror then at_ (s.copyB p) else [])) m.cls
  let s : State := s.storeIndex (s.copyA p) idx
  if s.roleB p = .mirror then s.storeIndex (s.copyB p) idx else s

/-- The entry of a block that is placed at an offset. -/
def entryAt (b : JobBlk) (off : Nat) : IdxEnt := ⟨if b.kind = 2 then 0 else off, b.grans.length, b.kind, b.slot⟩

/-- The highest used granule of an extent (R198). -/
def extentTop (es : List IdxEnt) : Nat := es.foldl (fun t e => max t (e.off + e.len)) 1

/-- Place blocks in the slack of an extent of `len` granules, one after another: the entries, and the blocks that find no room. -/
def inSlack (len : Nat) (es : List IdxEnt) (bs : List JobBlk) : List IdxEnt × List JobBlk :=
  bs.foldl (fun a b =>
    if extentTop a.1 + b.grans.length ≤ len then (a.1.set b.blk (entryAt b (extentTop a.1)), a.2) else (a.1, a.2 ++ [b])) (es, [])

/-- Whether a job keeps an eviction of a page's blocks waiting: a re-lay that runs, or a job in DRAINING (R202, R241). -/
def evictWaits (s : State) (p : Nat) : Bool :=
  s.pstateOf p == .draining || (match s.jobOf p with | some j => j.kind == .relay && j.phase != .queued | none => false)

/-- A block waits for the re-lay that it needs (R198). -/
def forRelay (s : State) (p blk : Nat) (b : Block) : State :=
  (s.setBlock (p * 16 + blk) (some { b with st := .present, dirty := true, due := 1 })).queueJob .relay p

/-- R198 for a block as it has been coded: in place, in the slack, or by a re-lay. Blocks of one page that take slack in one cycle take it in
block order (R199): those that have taken it already are placed anew after a lower one, and one that then finds no room needs the
re-lay. An index granule that is lost, or lengths that R162 no longer allows, need it too. -/
def placeBlock (s : State) (p blk : Nat) (b : Block) (nb0 : JobBlk) : State :=
  let m := b.mode
  let c := s.copyA p
  let es := s.indexOf c
  let old := es.getD blk ⟨0, 0, 2, 0⟩
  let sum := (es.map (·.len)).sum - old.len + nb0.grans.length
  let gone (s : State) (k : Nat) : State := match s.block k with
    | some x => s.setBlock k (some { x with st := .evicting, dirty := false, due := 0 })
    | none => s
  if s.indexBad m c || decide (1008 < 1 + sum) then s.forRelay p blk b
  else if nb0.grans.length ≤ old.len then
    let x := s.storeBlk nb0
    (gone (x.2.putBlocks m p (es.set blk (entryAt x.1 old.off)) [x.1]) (p * 16 + blk)).freeSlots
  else
    let now := s.dev.now + 1
    let run := s.path.slack
    let run : SlackRun := if run.page = p ∧ run.cycle = now then run else ⟨p, now, es, []⟩
    let after := run.puts.filter (fun q => decide (blk < q.blk) && (s.block (p * 16 + q.blk)).isSome)
    let fixed := run.puts.filter (fun q => !after.contains q)
    let base := after.foldl (fun (l : List IdxEnt) q => l.set q.blk (run.es.getD q.blk ⟨0, 0, 2, 0⟩)) es
    let y := inSlack c.len base (nb0 :: after)
    if y.2.any (fun q => q.blk == blk) then s.forRelay p blk b
    else
      let x := s.storeBlk nb0
      let kept := after.filter (fun q => !y.2.contains q)
      let s : State := (x.2.bump Obj.slackMoves).putBlocks m p y.1 (x.1 :: kept)
      let s : State := { s with path := { s.path with slack := { run with puts := fixed ++ [x.1] ++ kept } } }
      let s : State := s.each y.2 (fun s q => match s.block (p * 16 + q.blk) with
        | some bk => s.forRelay p q.blk bk
        | none => s)
      (gone s (p * 16 + blk)).freeSlots

/-- LANDING_EVICTION (R37, R190, R198–R202). A clean block is dropped. A dirty one is encoded and placed: as a write of its page, which ends
a lent copy and a LOWER one (R250, R281); while its page drains or a re-lay runs it waits, and so it does while a request reads the block's
old granules. A block of a FAULTED page is lost with it. -/
def blockEvict (s : State) (p blk : Nat) : State :=
  let k := p * 16 + blk
  match s.block k with
  | none => s
  | some b =>
    if b.st ≠ .present ∨ b.due = 1 then s
    else if !b.dirty then (s.setBlock k none).pumpH8
    else
      let s : State := s.decideFence p
      if (s.entry p).pstate = .faulted then (s.setBlock k none).pumpH8
      else if s.evictWaits p then s.setBlock k (some { b with due := 2 })
      else if !(s.copyA p).comp || s.blockRead p blk then s
      else
        let s : State := s.writeResolves p blk
        let x := s.encodeBlk b.mode.format (s.encodeSlot b.mode.region b.mode.format) blk b.grans
        x.2.placeBlock p blk { b with due := 0 } x.1

/-- The evictions that waited for a job of their page go on, in block order (R202). -/
def evictDue (s : State) (p : Nat) : State :=
  s.each (List.range 16) (fun s blk => match s.block (p * 16 + blk) with
    | some b => if b.due = 2 ∧ !s.evictWaits p then (s.setBlock (p * 16 + blk) (some { b with due := 0 })).blockEvict p blk else s
    | none => s)

/-- EVICTION_ACCEPTED (R37): the block leaves H8; one that was written meanwhile stays for its next eviction. -/
def blockGone (s : State) (p blk : Nat) : State :=
  let k := p * 16 + blk
  match s.block k with
  | none => s
  | some b =>
    if b.st ≠ .evicting then s
    else if b.dirty then s.setBlock k (some { b with st := .present })
    else (s.setBlock k none).pumpH8.freeSlots

/-- PLACEMENT_ACCEPTED (R505): the requests that wait for the page resolve. -/
def placed (s : State) (p : Nat) : State :=
  if s.tide.placing.contains p then
    ({ s with tide := { s.tide with placing := s.tide.placing.filter (· != p) } }).wakePage p
  else s

/-- LINE_STORE_WRITEBACK_ACCEPTED (R42, R314): the line leaves the store and becomes UNCACHED once every write of it is accepted. -/
def storeGone (s : State) (l : Nat) : State :=
  match s.storeLine l with
  | none => s
  | some x => if x.leaving && (s.req x.wb).isNone then s.leaveHome l else s

end State

end Sys2Proof.Machine
end

