-- ==== Sys2Proof/Machine/Apply.lean ====
section
/-! DEFINITION. What reading an object returns where it is not simply stored, and what writing an object does (the object tables of
every chapter). -/

namespace Sys2Proof.Machine

/-- A state's code in 3011 and in 3900.01. -/
def SlotSt.code : SlotSt → Nat
  | .empty => 0 | .inService => 1 | .evacuating => 2 | .evacuated => 3 | .off => 4 | .training => 5 | .filling => 6 | .fenced => 7

/-- 5100.01 `SLOT_STATE`. -/
def TabSt.code : TabSt → Nat
  | .free => 0 | .dflt => 1 | .inUse => 2 | .reserved => 3 | .never => 4

/-- A signed number as its object stores it. -/
def i32 (v : Int) : Nat := (v % 2 ^ 32).toNat

/-- A remap entry as Table 10-5 lays it out: a row's number holds ROW, BANK, BG, RANK, SUB and POS at their places (R513). -/
def remapWord (e : Remap) : Nat := if e.st = .free then 0 else e.row + 2 ^ 26

namespace State

/-! ## Reading -/

/-- Objects of a port (Table 02-18). `LANE_STATE` of a lane of the idle half: failed for a lane once found at fault, else retraining with
`AUTO_UPSHIFT` = 1 and standby without (DESIGN CHOICE, log 134). -/
def livePort (s : State) (p : Fin 16) (off sub : Nat) : Option Nat :=
  let x := s.ports[p]
  let low := x.half == .low
  if off = 0 then
    if sub = 1 then some x.state.code
    else if sub = 2 then some x.width
    else if sub = 3 then some (if x.width = 0 then 0 else if x.width = 16 then 1 else if low then 2 else 3)
    else if sub = 4 then some x.node.toNat
    else if sub = 5 then some x.features.toNat
    else if sub = 11 then
      some (s.heldTags p).length
    else none
  else if off = 2 then
    if sub = 5 then some x.credit.req
    else if sub = 6 then some x.credit.rsp
    else if sub = 7 then some x.credit.snp
    else if sub = 8 then some x.credit.mgmt
    else none
  else if off = 5 ∧ 1 ≤ sub then
    let i := sub - 1
    some (if x.width = 0 then 0
      else if x.width = 16 ∨ halfOf i == x.half then 1
      else if x.laneFault.getLsbD i then 4
      else if s.num (Obj.autoUpshift p) = 1 then 3 else 2)
  else none

/-- Bays of every slot that is present. -/
def farInstalled (s : State) : Nat := ((List.range 48).map (fun n => s.bayCount (8 + n))).sum

/-- Objects of the Tide engine (chapter 05). -/
def liveTide (s : State) (idx sub : Nat) : Option Nat :=
  if idx = 0x3000 then
    if sub = 2 then some (8 * metaBays)
    else if sub = 3 then some s.nearReservable
    else if sub = 4 then some s.nearReserved
    else if sub = 5 then some (((List.range 8).map s.usedBays).sum - s.pinnedUsed)
    else if sub = 6 then some s.nearFree
    else if sub = 7 then some s.farInstalled
    else if sub = 8 then some s.farReservable
    else if sub = 9 then some ((s.ctl.regions.filter (fun r => !r.2.near)).map (fun r => r.2.pages)).sum
    else if sub = 10 then some s.farFree
    else if sub = 11 then some (s.tide.map.filter (fun e => e.2.pstate != .unwritten && (s.copyA e.1).tier == 3)).length
    else if sub = 12 then some (s.tide.map.filter (fun e => e.2.pstate != .unwritten)).length
    else none
  else if idx = 0x3002 then (if sub = 7 then some s.sharesFree else none)
  else if idx = 0x3003 then (if sub = 1 then some (s.tide.jobs.filter (fun j => j.phase == .queued)).length else none)
  else if idx = 0x3010 then (if sub = 5 then some (s.usedBays (8 + s.num Obj.slotSelect)) else none)
  else if idx = 0x3011 then (if 1 ≤ sub then some (s.slot (sub - 1)).st.code else none)
  else if idx = 0x3012 then (if 1 ≤ sub then some (s.slotPages (sub - 1)) else none)
  else if 0x3020 ≤ idx ∧ idx < 0x3060 then
    let x := s.lent (idx - 0x3020)
    if sub = 1 then some (if x.draining then 2 else if x.failed then 3 else if x.active then 1 else 0)
    else if sub = 7 then some (s.usedBays (56 + (idx - 0x3020)))
    else none
  else if 0x3100 ≤ idx ∧ idx < 0x3500 then
    let n := idx - 0x3100
    if sub = 1 then some (if (s.session n).isOpen then 1 else 0)
    else if sub = 4 then some (s.sessionUse n true)
    else if sub = 5 then some (s.sessionUse n false)
    else if sub = 6 then some (s.sessionRegions n)
    else none
  else none

/-- The DIMM at a position of a channel. -/
def liveDimm (s : State) (n sub : Nat) : Option Nat :=
  let x := s.slot n
  match x.spd with
  | none => if sub = 3 then some (i32 x.temp) else none
  | some d =>
    if sub = 1 then some (if !d.accepted then 3 else if d.dens32 then 2 else 1)
    else if sub = 2 then some d.ranks.toNat
    else if sub = 3 then some (i32 x.temp)
    else if sub = 5 then some d.serial.toNat
    else if sub = 6 then some (if d.rfm then 1 else 0)
    else none

/-- Objects of the DRAM controllers (chapter 09). -/
def liveDram (s : State) (idx sub : Nat) : Option Nat :=
  if 0x3810 ≤ idx ∧ idx < 0x3818 then
    let x := s.unit (idx - 0x3810)
    if sub = 1 then
      some (match x.st with
        | .fenced => 3
        | .inService => if s.mgmt.power.phase == .held then 2 else 1
        | _ => 0)
    else if sub = 2 then some (i32 x.temp)
    else none
  else if 0x3900 ≤ idx ∧ idx < 0x39C0 then
    let m := (idx - 0x3900) / 8
    let off := (idx - 0x3900) % 8
    if off = 0 then
      if sub = 1 then
        some (match (s.unit (8 + m)).st with
          | .empty => 0
          | .training => 1
          | .fenced => 4
          | .inService => if (s.chan (256 + m)).sr == .no then 2 else 3)
      else none
    else if off = 1 ∨ off = 2 then s.liveDimm (2 * m + (off - 1)) sub
    else none
  else none

/-- Objects of the directory, of H7 and of Breakwater (chapters 06–08). -/
def liveCtl (s : State) (idx sub : Nat) : Option Nat :=
  if idx = 0x6000 then
    if sub = 1 then some (s.dir.ents.filter (fun e => e.2.cached)).length
    else if sub = 2 then some (s.dir.ents.filter (fun e => !e.2.cached)).length
    else if sub = 4 then some (s.ownNode / 4096)
    else if sub = 6 then some s.dir.buckets.length
    else none
  else if idx = 0x6801 then (if sub = 3 then some s.path.sr.toNat else none)
  else if idx = 0x6901 then
    let b := s.num Obj.bollardSelect
    if sub = 2 then some (s.bollard b).toNat
    else if sub = 3 then some (s.path.waiters.filter (fun w => w.bol == b)).length
    else none
  else if 0x7000 ≤ idx ∧ idx < 0x7040 then
    (if sub = 24 then some (s.slots.filter (fun x => x.1 == idx - 0x7000)).length else none)
  else if idx = 0x7041 then (if sub = 1 then some (min (s.num Obj.thermalCap) (s.num Obj.operatorCap)) else none)
  else none

/-- Objects of regions, the codec and data integrity (chapters 03, 04, 10, 11). -/
def liveData (s : State) (idx sub : Nat) : Option Nat :=
  if 0x4000 ≤ idx ∧ idx < 0x5000 then
    let r := s.region (idx - 0x4000)
    if sub = 1 then some r.st.code
    else if sub = 0x14 then some r.live
    else if sub = 0x16 then some r.pages
    else none
  else if idx = 0x5000 then (if sub = 3 then some s.slotsFree else none)
  else if 0x5100 ≤ idx ∧ idx < 0x5500 then
    let x := s.tab (idx - 0x5100)
    if sub = 1 then some x.st.code
    else if sub = 2 then some x.format
    else if sub = 3 then some x.region
    else if sub = 4 then some (if x.enc then 1 else 0)
    else if sub = 5 then some (s.slotBlocks (idx - 0x5100))
    else none
  else if idx = 0x8000 then
    let total := s.farInstalled
    if sub = 15 then some (if total = 0 then 0 else ((List.range 48).map (fun n => (s.slot n).filled)).sum * 1000 / total) else none
  else if idx = 0x8001 then
    if sub = 4 then
      some (((List.range 8).filter (fun k => !s.unitFenced k)).foldl
        (fun m k => min m (FMap.find 0 s.dram.scrub k * 1000 / s.sliceSize k)) 1000)
    else none
  else if idx = 0x8003 then
    (if sub = 2 then some ((s.chan (s.num Obj.remapSelect)).remap.filter (fun e => e.2.st != .free)).length else none)
  else if 0x8100 ≤ idx ∧ idx < 0x8200 then
    if sub = 1 then some (if s.realmOn (idx - 0x8100) then 1 else 0)
    else if sub = 5 then some (s.realmRegions (idx - 0x8100))
    else none
  else if idx = 0x9000 then
    (if sub = 1 then some (if s.dev.state = .safe then 2 else if s.anyFence then 1 else 0) else none)
  else none

/-- Objects of the endpoint, the management complex and Tidegauge (chapters 12–17); `auth` is the reader's authority. -/
def liveMgmt (s : State) (auth idx sub : Nat) : Option Nat :=
  let e := s.ep
  let r := s.mgmt.ring
  let d := s.mgmt.dict
  if idx = 0x1000 then
    if sub = 3 then some Config.serialNumber.toNat
    else if sub = 4 then some Config.vendorId.toNat
    else if sub = 8 then some Config.macAddress.toNat
    else none
  else if idx = 0x1100 then (if sub = 1 then some s.mgmt.power.straps.toNat else none)
  else if idx = 0x1102 then
    (if sub = 5 then some ((if s.secret 3 = [] then 0 else 1) + (if s.secret 2 = [] then 0 else 2)) else none)
  else if idx = 0x1103 then
    if sub = 2 then some (d.sess.filter (fun x => x.path == 1)).length
    else if sub = 3 then some (d.sess.filter (fun x => x.path == 2)).length
    else if sub = 4 then some auth
    else none
  else if idx = 0x1200 then (if sub = 1 then some s.dev.state.code else none)
  else if idx = 0x1201 then (if sub = 3 then some d.saving.length else none)
  else if idx = 0x2800 then
    if sub = 3 then some e.dState
    else if sub = 4 then some (if e.busMaster then 1 else 0)
    else if sub = 5 then some (if e.atsEn then 1 else 0)
    else if sub = 6 then some (s.path.reqs.filter (fun q => match q.via with | .tlp _ _ => true | _ => false)).length
    else if sub = 7 then some e.timeoutUs
    else none
  else if idx = 0x2802 then
    (if sub = 1 && s.num (Obj.dmaState 0) == 0 && s.tide.lentRds.any (fun x => x.st == .issued || x.st == .translating) then some 1
     else if sub = 2 && s.num (Obj.dmaState 1) == 0 && s.tide.jobs.any (fun j => j.kind == .lent) then some 1 else none)
  else if idx = 0x2803 then (if sub = 1 then some e.atc.length else none)
  else if idx = 0xB002 then
    if sub = 1 then some r.st
    else if sub = 2 then some r.base
    else if sub = 3 then some r.reason
    else if sub = 5 then some (r.agreed.toNat % 2 ^ 64)
    else if sub = 6 then some (r.agreed.toNat / 2 ^ 64)
    else none
  else if idx = 0xB005 then (if sub = 2 then some s.aon.blogSeq else none)
  else if idx = 0xB800 then
    if sub = 1 then some s.updSt
    else if sub = 11 then some s.trialLeft
    else if sub = 12 then some s.blockers
    else none
  else if idx = 0xB803 then
    if sub = 1 then some s.rootStates
    else if sub = 2 then some ((s.bank 0).st + 16 * (s.bank 1).st)
    else if sub = 3 then some (imgVersion (s.bank 0).bytes)
    else if sub = 4 then some (imgVersion (s.bank 1).bytes)
    else none
  else if idx = 0xC802 then 
    if sub = 6 then some s.flushTrace.mgmt.gauge.recs.length
    else if sub = 7 then some (s.flushTrace.num Obj.traceDrops)
    else if sub = 8 then some (s.flushTrace.num Obj.traceSeq)
    else none
  else if idx = 0xD000 then (if sub = 1 then some s.time64 else none)
  else if idx = 0xA001 then (if 1 ≤ sub then some (Config.reading (okey idx sub) s.dev.now).toNat else none)
  else if idx = 0xA005 then (if sub = 1 then some (Config.reading (okey idx sub) s.dev.now).toNat else none)
  else none

/-- A number that is not stored under its object, but follows from the state. -/
def liveNum (s : State) (auth key : Nat) : Option Nat :=
  let idx := key / 256
  let sub := key % 256
  if 0x2000 ≤ idx ∧ idx < 0x2400 then s.livePort (Fin.ofNat 16 ((idx - 0x2000) / 64)) (idx % 64) sub
  else if 0x3000 ≤ idx ∧ idx < 0x3800 then s.liveTide idx sub
  else if 0x3800 ≤ idx ∧ idx < 0x4000 then s.liveDram idx sub
  else if 0x6000 ≤ idx ∧ idx < 0x8000 then s.liveCtl idx sub
  else if (0x4000 ≤ idx ∧ idx < 0x6000) ∨ (0x8000 ≤ idx ∧ idx < 0xA000) then s.liveData idx sub
  else s.liveMgmt auth idx sub

/-- A byte string that is not stored under its object. -/
def liveBytes (s : State) (key : Nat) : Option (List Byte) :=
  let idx := key / 256
  let sub := key % 256
  let padded (n : Nat) : Option (List Byte) := if s.blob key = [] then some (zeros n) else none
  if key = okey 0x1000 1 then some (ascii "ATG-P9-12T")
  else if key = okey 0x1100 4 then some (beBytes 16 linkLocal.toNat)
  else if 0x3900 ≤ idx ∧ idx < 0x39C0 ∧ sub = 4 ∧ (idx % 8 = 1 ∨ idx % 8 = 2) then
    match (s.slot (2 * ((idx - 0x3900) / 8) + (idx % 8 - 1))).spd with
    | some d => some d.part
    | none => some []
  else if 0x5100 ≤ idx ∧ idx < 0x5500 ∧ sub = 6 then
    let x := s.tab (idx - 0x5100)
    some (if x.lens = [] then zeros 192 else tableRecord x.format x.lens)
  else if key = okey 0x8003 3 then
    let t := (s.chan (s.num Obj.remapSelect)).remap
    some ((List.range 16).flatMap (fun i => leBytes 8 (remapWord (FMap.find ⟨.free, 0⟩ t i))))
  else if key = Obj.updTargetDigest ∨ key = Obj.imageDigest then padded 48
  else if key = Obj.updHeader then padded 256
  else if key = okey 0xB005 1 then some s.blogImage
  else none

/-- Read an object: its bytes, and the state, which only TRACE_READ changes (R661, R775). -/
def readObj (s : State) (w : Who) (auth key : Nat) (r : ORow) : List Byte × State :=
  match r.ty.bytes with
  | some n =>
    let v := match s.liveNum auth key with
      | some v => v
      | none => s.num key
    (leBytes n (v % 2 ^ (8 * n)), s)
  | none =>
    if key = okey 0xC802 5 then
      let x := s.takeRecs (s.pathLimit w / 32)
      (x.1.flatMap TRec.bytes, x.2)
    else ((s.liveBytes key).getD (s.blob key), s)

/-! ## Writing -/

/-- A write that has its effect and completes OK, and one that is refused. -/
def done (s : State) : WAns × State := (.now .ok 0, s)
def no (s : State) (st : Status) : WAns × State := (.now st 0, s)

/-- A write that is permitted only where a condition holds. -/
def doneIf (s : State) (c : Bool) (t : State) : WAns × State := if c then t.done else s.no .unsupported

/-- Objects of a notice: ACK, and a mark or a hysteresis, after which the notice is evaluated in the next cycle (R682). -/
def noticeWrite (s : State) (idx sub n : Nat) : WAns × State :=
  if sub = 7 then (s.ackNotice idx).done else ((s.setNum (okey idx sub) n).evalNext idx).done

/-- Objects of a port. -/
def portWrite (s : State) (p : Fin 16) (key n : Nat) : WAns × State :=
  let off := key / 256 % 64
  let sub := key % 256
  if off = 1 ∧ sub = 1 then (s.portEnableWrite p n).done
  else if off = 1 ∧ sub = 2 then (s.widthMaxWrite p n).done
  else if off = 7 then s.doneIf (n != 0) (s.injectCrc p n)
  else (s.setNum key n).done

/-- Whether H3 executes a commit, so that later installations and session actions wait (R123). -/
def h3Busy (s : State) : Bool := s.ctl.regions.any (fun e => e.2.act != .none)

/-- An action waits for H3 in the order of its write (R123). -/
def h3Wait (s : State) (w : Who) (key n : Nat) : WAns × State :=
  (.later, { s with ctl := { s.ctl with h3 := s.ctl.h3 ++ [(w, key, n)] } })

/-- The action objects of regions, sessions, clones, lent ranges and slots. An action on a region that still has one in
progress is refused (R122); one behind another region's commit waits for it (R123). -/
def regionActionWrite (s : State) (w : Who) (k n : Nat) : WAns × State :=
  let key := Obj.regionAction k
  if n = 0 ∨ 4 < n then s.no .unsupported
  else if s.ctl.h3.any (fun e => e.2.1 == key) ∧ !s.ringReserved true k then (.now .retryLater 100, s)
  else if s.h3Busy ∧ (s.region k).act = .none ∧ n ≠ 4 then s.h3Wait w key n
  else if n = 1 then s.regionCommit k w
  else if n = 2 then s.regionSeal k
  else if n = 3 then s.regionRetire k
  else if n = 4 then s.regionDiscard k
  else s.no .unsupported
def sessionActionWrite (s : State) (w : Who) (k n : Nat) : WAns × State :=
  if (n = 1 ∨ n = 2 ∨ n = 3) ∧ s.h3Busy then s.h3Wait w (Obj.sessionAction k) n
  else if n = 1 then s.sessionOpen k w
  else if n = 2 then s.sessionResize k w
  else if n = 3 then s.sessionClose k w
  else s.no .unsupported

/-- H3 takes the actions that waited, in their order, until one of them is a commit that waits itself (R123). -/
def h3Pump : Nat → State → State
  | 0, s => s
  | n + 1, s => match s.ctl.h3 with
    | [] => s
    | (w, key, a) :: rest =>
      if s.h3Busy then s
      else
        let s : State := { s with ctl := { s.ctl with h3 := rest } }
        let idx := key / 256
        let x := if idx < 0x4000 then s.sessionActionWrite w (idx - 0x3100) a else s.regionActionWrite w (idx - 0x4000) a
        match x.1 with
        | .now st hint => h3Pump n (x.2.replyOwed ⟨w, key⟩ st hint)
        | .later => h3Pump n x.2

def slotActionWrite (s : State) (n : Nat) : WAns × State :=
  let k := s.num Obj.slotSelect
  if n = 1 then s.evacuate k
  else if n = 2 then s.powerOff k
  else if n = 3 then
    let x := Config.foundDimm s.dev.fresh
    s.drawFresh.2.slotReturn k x.1 x.2.1 x.2.2
  else if n = 4 then s.slotCancel k
  else s.no .unsupported

/-- Objects of the Tide engine, lent ranges and sessions. -/
def tideWrite (s : State) (w : Who) (key n : Nat) (r : ORow) (v : List Byte) : WAns × State :=
  let idx := key / 256
  let sub := key % 256
  if key = Obj.nearReservableCap then s.nearCapWrite n
  else if key = Obj.nearHighMark then s.doneIf (decide (s.num Obj.nearLowMark ≤ n)) (s.setNum key n)
  else if key = Obj.cloneAction then (if n = 1 then s.cloneStart w else s.no .unsupported)
  else if key = okey 0x3010 2 then s.slotActionWrite n
  else if 0x3020 ≤ idx ∧ idx < 0x3060 then
    let k := idx - 0x3020
    if sub = 6 then (if n = 1 then s.lentRegister k else if n = 2 then s.lentWithdraw k w else s.no .unsupported)
    else if s.lent k ≠ LentRange.free then s.no .modeConflict
    else (s.setNum key n).done
  else if 0x3100 ≤ idx ∧ idx < 0x3500 then
    let k := idx - 0x3100
    if sub = 7 then s.sessionActionWrite w k n
    else if s.ringReserved false k then (s.setNum (Obj.sessionReason k) 0xF001).no .modeConflict
    else (s.storeObj key r v).done
  else (s.storeObj key r v).done

/-- Objects of the DRAM controllers. The test objects of a channel that is EMPTY or FENCED are refused (chapter 09). -/
def dramObjWrite (s : State) (key n : Nat) : WAns × State :=
  let idx := key / 256
  let sub := key % 256
  if key = Obj.nearWqLow then s.doneIf (decide (n < s.num Obj.nearWqHigh)) (s.setNum key n)
  else if key = Obj.farWqLow then s.doneIf (decide (n < s.num Obj.farWqHigh)) (s.setNum key n)
  else if 0x3810 ≤ idx ∧ idx < 0x3818 then
    if sub = 10 then s.doneIf (n == 1) (s.recalNow (idx - 0x3810)) else s.doneIf (decide (1 ≤ n ∧ n ≤ 2)) (s.setNum key n)
  else if 0x3900 ≤ idx ∧ idx < 0x39C0 then
    let u := 8 + (idx - 0x3900) / 8
    let shut := (s.unit u).st == .empty || (s.unit u).st == .fenced
    if sub = 2 then (if n = 1 ∧ shut then s.no .modeConflict else s.doneIf (n == 1) (s.recalNow u))
    else if (n = 1 ∨ n = 2) ∧ shut then s.no .modeConflict
    else s.doneIf (decide (1 ≤ n ∧ n ≤ 2)) (s.setNum key n)
  else (s.setNum key n).done

/-- Objects of regions and the codec. -/
def regionObjWrite (s : State) (w : Who) (key n : Nat) : WAns × State :=
  let idx := key / 256
  if 0x4000 ≤ idx ∧ idx < 0x5000 then
    let k := idx - 0x4000
    if key % 256 = 0x11 then s.regionActionWrite w k n
    else if s.ringReserved true k then (s.setNum (Obj.regionReason k) 0xF001).no .modeConflict
    else (s.setNum key n).done
  else if key = Obj.retableRegion then s.retable n w
  else (s.setNum key n).done

/-- Objects of the directory, of H7 and of Breakwater. -/
def ctlObjWrite (s : State) (w : Who) (key n : Nat) : WAns × State :=
  let idx := key / 256
  let sub := key % 256
  if key = Obj.epGrants then (s.epGrantsWrite n).done
  else if idx = 0x6003 then s.routeWrite w false (BitVec.ofNat 6 (sub - 1)) (BitVec.ofNat 8 n)
  else if idx = 0x6004 then s.routeWrite w true (BitVec.ofNat 6 (sub - 1)) (BitVec.ofNat 8 n)
  else if key = Obj.dirSplitWrite then s.doneIf (n == 1) (s.setNum key n)
  else if key = Obj.srSeedMode then (s.srWrite key n).done
  else if key = Obj.srSeed then s.doneIf (n != 0) (s.srWrite key n)
  else if key = okey 0x7040 1 then (if n = 1 then s.classCommit else if n = 2 then s.classDiscard.done else s.no .unsupported)
  else if key = Obj.operatorCap then (s.capWrite key n).done
  else (s.setNum key n).done

/-- Objects of data integrity and safety. -/
def guardObjWrite (s : State) (key n : Nat) : WAns × State :=
  let idx := key / 256
  let sub := key % 256
  if key = Obj.parityFlipPath then s.doneIf (decide (1 ≤ n ∧ n ≤ 8)) (s.setNum key n)
  else if 0x8100 ≤ idx ∧ idx < 0x8200 then
    let k := idx - 0x8100
    if sub = 2 then s.realmMaskWrite k n
    else if n = 1 then s.realmEnable k
    else if n = 2 then s.realmDisable k
    else s.no .unsupported
  else if key = Obj.safetyAck then s.doneIf (n == 1) s.safetyAck
  else if key = okey 0x9004 1 then s.doneIf (n == 1) s.alertTestOn
  else if key = okey 0x9004 2 then s.doneIf (n == 0x5A) (s.enterSafe 7 7)
  else (s.setNum key n).done

/-- A window's base or view takes a value, for the TLPs that E1 decodes from the next cycle on (R570); one that changes rebuilds the device
description table (R583). -/
def setWindow (s : State) (key n : Nat) : State := if s.num key = n then s else (s.setLater key n).rebuildDesc

/-- The device description table, which the expansion ROM BAR shows from the end of BOOT on (Tables 12-7 and 12-8, R583). -/
def descTable (s : State) : List Byte :=
  let rec_ (ty : Nat) (body : List Byte) : List Byte := leBytes 2 ty ++ leBytes 2 (body.length + 4) ++ body
  let body : List Byte :=
    rec_ 1 (leBytes 2 1 ++ leBytes 2 56 ++ leBytes 2 256 ++ leBytes 2 64)
      ++ rec_ 2 ((List.range 4).flatMap (fun i => leBytes 8 (s.num (Obj.winBase i)) ++ leBytes 1 (s.num (Obj.winView i)) ++ zeros 7))
      ++ rec_ 3 ([1, 2, 3, 4, 5, 6, 0, 0] ++ List.replicate 56 7)
      ++ rec_ 4 (leBytes 2 18810 ++ leBytes 1 s.mgmt.power.straps.toNat ++ [0] ++ beBytes 16 linkLocal.toNat)
      ++ rec_ 5 (leBytes 4 (s.num Obj.fwVersion) ++ slice (s.blob Obj.imageDigest) 0 48) ++ rec_ 0 []
  let head (crc : Nat) : List Byte :=
    [0x50, 0x4C, 0x44, 0x54] ++ leBytes 2 1 ++ leBytes 2 Config.vendorId.toNat ++ leBytes 4 (64 + body.length) ++ leBytes 4 crc
      ++ slice (ascii "ATG-P9-12T") 0 16 ++ [0xB1, 0, 0, 0] ++ leBytes 4 (s.ownNode % 2 ^ 18) ++ leBytes 16 deviceFeatures.toNat
      ++ leBytes 4 s.ep.descGen ++ zeros 4
  head (crc32c (head 0 ++ body)).toNat ++ body

/-- Objects of the host endpoint. -/
def epObjWrite (s : State) (key n : Nat) : WAns × State :=
  let sub := key % 256
  if key / 256 = 0x2801 ∧ 1 ≤ sub ∧ sub ≤ 4 then s.doneIf (n % 65536 == 0 && decide (n + 2 ^ 36 ≤ 2 ^ 44)) (s.setWindow key n)
  else if key / 256 = 0x2801 ∧ 5 ≤ sub ∧ sub ≤ 8 then (s.setWindow key n).done
  else if key = okey 0x2802 9 then (s.dmaRestart n).done
  else (s.setNum key n).done

/-- UPD_ACTION. -/
def updActionWrite (s : State) (o : Owed) (n : Nat) : WAns × State :=
  if n = 1 then s.updStart (s.blob Obj.updHeader)
  else if n = 2 then s.updVerify o
  else if n = 3 then s.updActivate o
  else if n = 4 then s.updConfirm
  else if n = 5 then s.updAbort
  else if n = 6 then s.updRollback o
  else s.no .unsupported

/-- Objects of the management complex, the update and power. -/
def mgmtObjWrite (s : State) (o : Owed) (r : ORow) (v : List Byte) : WAns × State :=
  let key := o.key
  let n := stored r v
  if key = okey 0xB001 5 then s.coreRestart n
  else if key = okey 0xB005 3 then s.blogClear n
  else if key = okey 0xB006 1 then s.lockstepInject n
  else if key = okey 0x1201 6 then s.configReset n
  else if key = okey 0xD000 1 then (s.setRtc n).done
  else if key = Obj.rtcTrim then (s.keepTime (fun s => s.setNum key n)).done
  else if key = Obj.backupAlarmAck then s.alarmAck.done
  else if key = okey 0xB801 1 then s.updActionWrite o n
  else if key = Obj.updBlock then s.updBlockWrite (some o) v
  else if key = okey 0xB803 5 then s.rootRevoke n
  else if key = Obj.deviceReset then s.deviceResetWrite n
  else if key = okey 0xA006 4 then s.chatterAck
  else (s.storeObj key r v).done

/-- Objects of Tidegauge. -/
def gaugeObjWrite (s : State) (key n : Nat) : WAns × State :=
  let idx := key / 256
  let sub := key % 256
  if idx < 0xC800 then
    let j := idx - 0xC000
    if sub = 1 then (s.enableCounter j n).done
    else if sub = 3 then (s.filterCounter j n).done
    else if sub = 4 then s.selectCounter j n
    else (s.clearCounter j).done
  else if key = okey 0xC800 1 then s.snapshot.done
  else if key = okey 0xC800 4 then s.clearCounters.done
  else if idx = 0xC801 then (s.tpWrite sub n).done
  else if key = okey 0xC802 1 then (s.traceModeWrite n).done
  else if key = Obj.traceAddrHi then s.doneIf (decide (s.num Obj.traceAddrLo ≤ n)) (s.setLater key n)
  else if key = Obj.traceAddrLo ∨ key = Obj.traceFilter then (s.setLater key n).done
  else if key = Obj.streamEnable then (s.streamEnable n).done
  else if key = Obj.streamBase then s.streamPlace key n (n % 4096 == 0)
  else if key = Obj.streamSize then s.streamPlace key n (n % 4096 == 0 && decide (65536 ≤ n ∧ n ≤ 2 ^ 30))
  else if key = Obj.streamHead then s.streamHead n
  else (s.setNum key n).done

/-- Write an object whose value has the right form and range. Values that no text of an object lists are refused (R8; log 59). -/
def applyWrite (s : State) (o : Owed) (r : ORow) (v : List Byte) : WAns × State :=
  let key := o.key
  let idx := key / 256
  let n := stored r v
  if isNotice idx then s.noticeWrite idx (key % 256) n
  else if 0x2000 ≤ idx ∧ idx < 0x2400 then s.portWrite (Fin.ofNat 16 ((idx - 0x2000) / 64)) key n
  else if 0x2800 ≤ idx ∧ idx < 0x2900 then s.epObjWrite key n
  else if 0x3000 ≤ idx ∧ idx < 0x3800 then s.tideWrite o.who key n r v
  else if 0x3800 ≤ idx ∧ idx < 0x4000 then s.dramObjWrite key n
  else if 0x4000 ≤ idx ∧ idx < 0x6000 then s.regionObjWrite o.who key n
  else if 0x6000 ≤ idx ∧ idx < 0x8000 then s.ctlObjWrite o.who key n
  else if 0x8000 ≤ idx ∧ idx < 0xA000 then s.guardObjWrite key n
  else if 0xC000 ≤ idx ∧ idx < 0xD000 then s.gaugeObjWrite key n
  else s.mgmtObjWrite o r v

/-- A dictionary request arrives (R655–R663), and an in-band one with its message's units. -/
def ask (s : State) (a : Ask) : State := takeAsk readObj applyWrite s a
def askLink (s : State) (p : Fin 16) (n : Nat) (a : Ask) : State := linkAsk readObj applyWrite s p n a

/-- The WRITE of one object's value. -/
def write (s : State) (w : Who) (key : Nat) (v : List Byte) : State := s.ask (askWrite w key v)

end State

end Sys2Proof.Machine
end

