-- ==== Sys2Proof/WellFormed.lean ====
section
/-! DEFINITION. Which commands a sender can form: the lengths of their data, and who may send them. -/

namespace Sys2Proof

/-- Whether a master is a port; the endpoint answers its snoops by SNOOP_ANSWER (R581). -/
def Src.isPort : Src → Bool
  | .port _ => true
  | .ep => false

/-- A request that only a link carries: the endpoint's come from TLPs. -/
def Hdr.linkOnly (h : Hdr) : Bool := h.src.isPort

/-- A FENCE: from a link, or a read of the FENCE door, whose tag names the read. -/
def Hdr.fenceOk (h : Hdr) : Bool := h.src.isPort || h.node.isNone

/-- A Bollard operation: from a link, or from one of the 56 doors (R578), where it names a Bollard by its number. -/
def Hdr.doorOk (h : Hdr) : Bool :=
  h.src.isPort || (h.node.isNone && decide (h.tag.toNat < 56) && decide (h.addr.toNat < 16384))

/-- Who asks by a row of its own. The window has no source: `peer` stands there for the ring commands. -/
def Who.ok (w : Who) : Bool :=
  match w.path with
  | .window => w.peer == 0
  | .t1s | .link _ => true

/-- A memory TLP: at least 1 byte and at most `n`, within one 4 KiB page and within BAR2. -/
def Tlp.ok (t : Tlp) (n : Nat) : Bool :=
  decide (1 ≤ t.len ∧ t.len ≤ n ∧ t.off.toNat % 4096 + t.len ≤ 4096 ∧ t.off.toNat + t.len ≤ 2 ^ 38)

/-- A command entry (Table 13-6): 32 bytes of VALUE, a buffer of at most 65,536 bytes. -/
def CmdEntry.ok (e : CmdEntry) : Bool :=
  decide (e.value.length = 32 ∧ e.buf.length = e.bufLen.toNat ∧ e.buf.length ≤ 65536)

/-- Whether a command is well formed. -/
def WellFormed : Instr → Bool
  | .flitReceived _ f => decide (f.units.length = 31)
  | .laneSerCheck _ counts => decide (counts.length = 16)
  | .injectFlitCrc w _ _ => w.ok
  | .portEnableWrite w _ _ => w.ok
  | .portWidthMaxWrite w _ _ => w.ok
  | .read h => h.linkOnly
  | .readExcl h => h.linkOnly
  | .readOnce h => h.linkOnly
  | .readHalf h => h.linkOnly
  | .write h d => h.linkOnly && decide (d.length = 128)
  | .writeMasked h _ d => h.linkOnly && decide (d.length = 64)
  | .writeback h d => h.linkOnly && decide (d.length = 128)
  | .releaseClean h => h.linkOnly
  | .fence h => h.fenceOk
  | .atomicAdd h _ => h.linkOnly
  | .atomicCas h _ _ => h.linkOnly
  | .atomicFadd32 h _ => h.linkOnly
  | .atomicBfadd h _ => h.linkOnly
  | .vecAccum h d => h.linkOnly && decide (d.length = 128)
  | .bollardAdd h _ => h.doorOk
  | .bollardSignal h _ => h.doorOk
  | .bollardReset h _ => h.doorOk
  | .bollardWaitGe h _ => h.doorOk
  | .bollardBarrierArrive h _ => h.doorOk
  | .bollardCancel h _ => h.doorOk
  | .snpAck m _ _ => m.isPort
  | .snpData m _ d => m.isPort && decide (d.length = 128)
  | .cloneStart w => w.ok
  | .lentRegister w _ => w.ok
  | .lentWithdraw w _ => w.ok
  | .evacuate w => w.ok
  | .powerOff w => w.ok
  | .return_ w _ _ _ => w.ok
  | .slotCancel w => w.ok
  | .nearReservableCapWrite w _ => w.ok
  | .routeWrite w _ _ _ => w.ok
  | .epGrantsWrite w _ => w.ok
  | .dirFlipMask w _ => w.ok
  | .dirSplitWrite w _ => w.ok
  | .srSeedWrite w _ _ => w.ok
  | .aluFlipMask w _ => w.ok
  | .bollardFlipMask w _ => w.ok
  | .classCommit w => w.ok
  | .classDiscard w => w.ok
  | .operatorCapWrite w _ => w.ok
  | .recalNow w _ _ => w.ok
  | .splitWrite w _ _ => w.ok
  | .scrubBurst _ hits => hits.all (fun h => h.tier == 1 || h.tier == 2)
  | .realmEnable w _ => w.ok
  | .realmDisable w _ => w.ok
  | .eccFlipMask w _ => w.ok
  | .parityFlipPath w _ => w.ok
  | .safetyAck w _ => w.ok
  | .alertTest w _ => w.ok
  | .forceSafe w _ => w.ok
  | .memoryReadTlp t => t.ok 4096
  | .memoryWriteTlp t be d => t.ok 512 && decide (be.length = t.len) && decide (d.length = t.len)
  | .fetchAddTlp t _ => t.ok 8 && (t.len == 4 || t.len == 8)
  | .casTlp t _ _ => t.ok 8 && (t.len == 4 || t.len == 8)
  | .swapTlp t => t.ok 32
  | .dmaRestart w _ => w.ok
  | .nop e => e.ok
  | .ringDictRead e => e.ok
  | .ringDictWrite e => e.ok
  | .backupLogDump e => e.ok
  | .updHeader e => e.ok
  | .updBlock e => e.ok
  | .updVerify e => e.ok
  | .updActivate e => e.ok
  | .updConfirm e => e.ok
  | .updAbort e => e.ok
  | .updRollback e => e.ok
  | .coreRestart w _ => w.ok
  | .lockstepInject w _ => w.ok
  | .corePLoop x => decide (x.tj.length = 40) && decide (x.stackT.length = 8)
  | .aonJunctionCheck tj => decide (tj.length = 40)
  | .bootComplete x => decide (x.dimms.length = 48)
  | .backupLogClear w _ => w.ok
  | .dictRead h => h.who.ok && (h.op == 0 || h.op == 1 || decide (6 < h.op.toNat))
  | .dictWrite h _ => h.who.ok && h.op == 2
  | .open_ w _ => w.ok
  | .prove w _ => w.ok
  | .close w => w.ok
  | .describe w => w.ok
  | .configReset w _ => w.ok
  | .noticeAck w _ _ => w.ok
  | .regionCommit w _ => w.ok
  | .regionSeal w _ => w.ok
  | .regionRetire w _ => w.ok
  | .regionDiscard w _ => w.ok
  | .sessionOpen w _ => w.ok
  | .sessionResize w _ => w.ok
  | .sessionClose w _ => w.ok
  | .retable w _ => w.ok
  | .codecFlipMask w _ => w.ok
  | .start w => w.ok
  | .block w _ => w.ok
  | .verify w => w.ok
  | .activate w => w.ok
  | .confirm w => w.ok
  | .abort w => w.ok
  | .rollback w => w.ok
  | .rootSlotRevoke w _ => w.ok
  | .relayHeader f => decide (f.body.length ≤ 1200)
  | .relayData f => decide (f.body.length ≤ 1200)
  | .relayAck f => decide (f.body.length ≤ 1200)
  | .deviceReset w _ => w.ok
  | .railFault rail => decide (1 ≤ rail.toNat ∧ rail.toNat ≤ 9)
  | .pinChatterAck w _ => w.ok
  | .backupAlarmAck w _ => w.ok
  | .cntSnapshot w _ => w.ok
  | .cntClear w _ _ _ => w.ok
  | .counterConfigWrite w _ _ _ => w.ok
  | .tpControlWrite w _ _ => w.ok
  | .traceModeWrite w _ => w.ok
  | .traceRead w => w.ok
  | .streamEnableWrite w _ => w.ok
  | .streamHeadWrite w _ => w.ok
  | .t1sLinkChange st => decide (st.toNat ≤ 2)
  | .replayReq _ _ | .degradeReq _ _ _ | .degradeAck _ _ | .upshiftReq _ _ | .upshiftAck _ _ | .widthSwitch _
  | .param _ _ | .resume _ _ _ | .resetNotice _ | .controlRepeat _ | .ackTimeout _ | .degradeTimeout _
  | .upshiftSoakEnd _ | .laneDetect _ _ | .trainingStart _ | .trainingFailed _ | .creditCarrierTimeout _
  | .messageStart _ | .rspHoldStart _ | .requestGrant _ | .transactionEnd _ | .channelAdmission _ | .controllerIssue _
  | .dramReadReturn _ _ | .lineStoreWritebackAccepted _ | .landingInstallComplete _ _ | .landingEviction _ _
  | .evictionAccepted _ _ | .placementAccepted _ | .farBayAvailable | .jobDispatch | .copyPassEnd _
  | .migrationSwitch _ | .sourceRelease _ | .sweeperVisit | .migOverloadMs | .lentReadCompletion _ _
  | .lentReadTimeout _ | .clonePageInstall | .withdrawComplete _ | .slotOff _ | .slotFillComplete _
  | .snoopTimeout _ _ | .purgeEnd _ | .directorySweep | .bollardTimeout _ _ _ | .waiterDispatch | .overdueSweep
  | .bankIdleTimeout _ _ | .refreshDue _ | .rdWindowEnd _ _ | .recalDue _ | .driftCheck _ _ | .recalComplete _ _ _
  | .srEntry _ | .srExitComplete _ | .dimmTempPoll _ _ | .trainingAttemptDone _ _ | .scrubPeriodEnd _ _
  | .remapInstallDone _ _ | .softRepairDone _ _ | .nearFillComplete | .farFillComplete | .keyReloadDone _ _ _
  | .selftestVector _ _ | .selftestPeriodEnd | .configCompareSweep _ | .alertTestEnd | .configRequest _ _
  | .invalidateRequest _ _ | .invalidationComplete | .atsTranslationComplete _ _ | .dmaCompletion _ _ _
  | .completionTimeout _ _ | .functionLevelReset | .flrComplete | .perstNAssert | .perstNDeassert | .pcieLinkUp _ _
  | .snoopAnswer _ | .sqHeadWrite _ | .intxCauseWrite _ | .bar0BadAccess _ | .registerWrite _ _ | .ringEnable
  | .ringBindComplete | .ringOffer | .ringDisable | .cmdTailWrite _ | .ringHeadWrite _ _ | .shadowWrite
  | .watchdogExpiry _ | .watchdogKick _ | .lockstepMismatch _ | .fetchFault _ | .unhandledTrap _
  | .coreRestartDone _ _ | .sessionIdleTimeout _ _ | .pendingSessionTimeout _ _ | .assemblyTimeout _ _
  | .authLockoutEnd _ _ | .changeRecordComplete _ _ | .neighborSolicitation _ _ | .echoRequest _ _ | .t1sDiscard
  | .commitComplete _ | .ingestValidation _ | .sealingComplete _ | .retirementComplete _ | .retableComplete
  | .blockWritten | .verifyComplete | .activationComplete | .trialDeadlineExpiry | .rollbackComplete
  | .relayAckTimeout _ | .relayAckTick | .powerOn | .resetN | .commandReset | .pwrgoodFall | .clockLoss
  | .resetRelease _ | .leaveInit | .memholdActive | .holdEntryComplete | .holdReminder | .memholdInactive
  | .holdExitComplete | .tamperActive | .mainPowerLoss | .vbatLoss | .backupSample _ _ _ | .streamWrite
  | .laneLockLost _ _ | .pcieLinkDown | .endpointReady | .vbatReturn | .mainRailsRise | .tamperInactive
  | .sealTableBuilt _ => true

end Sys2Proof
end

