-- ==== Sys2Proof/Machine/Run.lean ====
section
/-! DEFINITION. What every command does around its own effect: the check of its form, what follows in the same step, and the
canonical form of memory. -/

namespace Sys2Proof

/-- A map in canonical form: unchanged if it has it, built anew otherwise. -/
def FMap.canon {α : Type} [DecidableEq α] (d : α) (m : FMap α) : FMap α :=
  if FMap.wf d m then m else m.foldr (fun x acc => FMap.set d acc x.1 x.2) []

namespace Machine

/-- Whether an output is a PAYLOAD or CONTROL flit of a port. -/
def Out.isFlit (p : Fin 16) : Out → Bool
  | .flit q k _ _ _ _ _ _ => q == p && k != 1
  | .ctl q _ _ _ => q == p
  | _ => false

namespace State

/-- The canonical form of DRAM and of lent memory: rising addresses, and no entry equal to what an unlisted one reads as. -/
def memWf (s : State) : Bool := FMap.wf 0 s.dram.mem && FMap.wf GMeta.clean s.dram.gmeta

/-- Memory in canonical form. -/
def canon (s : State) : State :=
  { s with dram := { s.dram with mem := FMap.canon 0 s.dram.mem, gmeta := FMap.canon GMeta.clean s.dram.gmeta } }

/-- What follows in the same step: what an earlier cycle decided takes effect, waiting requests go on, the near-free notice follows, completions go to the endpoint, doorbells take
effect, rings are written, snoops, lent reads and recalibrations are issued, interrupts are signalled and messages start. -/
@[irreducible] def after (s : State) : State :=
  let s : State := s.mismatches.aonDue.pumpH8.settle.watchNear.noteBacking.deliverEp
  let s : State := (pumpBells s.mgmt.ring.bells.length s).pumpRings.settle
  s.pumpSq.pumpLent.pumpRecal.deliverIrqs.startAll.watchSlots

/-- The IDLE flits of a step that began with `n` outputs recorded: one in every 3,072 flits or fewer, so that no run of 4,096 is
without (R47, DESIGN CHOICE, log 69), and one in each step while the retry buffer is full (R56). -/
@[irreducible] def idles (s : State) (n : Nat) : State :=
  s.each (List.finRange 16) (fun t p =>
    let x := t.ports[p]
    let k := ((s.out.drop n).filter (Out.isFlit p)).length
    if 3072 ≤ x.sinceIdle + k ∨ (x.state = .up ∧ 512 ≤ x.retry.length) then
      (t.updPort p (fun x => { x with sinceIdle := 0 })).emit (.flit p 1 x.txNext x.rxLast 0 0 [] false)
    else if k = 0 then t
    else t.updPort p (fun x => { x with sinceIdle := x.sinceIdle + k }))

/-- The state that a command leaves by its own effect `f`, with what follows and the IDLE flits; the queue stays as it is. -/
def ran (s : State) (f : State → State) : State := { ((f s).after.idles s.out.length).canon with pending := s.pending }

end State

/-- Run a command: one that no sender can form stops the model, any other has its effect. -/
def runOk (ok : Bool) (s : State) (f : State → State) : Res := if ok then .next (s.ran f) else .fault .illFormed

/-- Run a command by its form. (The compiler cannot build the constructors past the 244th; their meanings give `runOk` the same check.) -/
def runWf (i : Instr) (s : State) (f : State → State) : Res := runOk (WellFormed i) s f

end Machine

end Sys2Proof
end

