-- ==== Sys2Proof/Machine/ControlRows.lean ====
section
/-! DEFINITION. The meanings of the commands of the directory, of the Bollards and the ALU, and of Breakwater (chapters 06–08). -/

namespace Sys2Proof.Machine

/-- The key of a group's or a pod's route. -/
def State.routeObj (pod : Bool) (i : BitVec 6) : Nat := if pod then Obj.podRoute i.toNat else Obj.groupRoute i.toNat

/-- SNOOP_TIMEOUT (R325). -/
def execSnoopTimeout (m : Src) (stag : BitVec 12) (s : State) : Res :=
  runWf (.snoopTimeout m stag) s (fun s => s.snoopTimeout m stag)

/-- PURGE_END (R332). -/
def execPurgeEnd (h : Holder) (s : State) : Res := runWf (.purgeEnd h) s (fun s => s.purgeEnd h)

/-- ROUTE_WRITE (R306). -/
def execRouteWrite (w : Who) (pod : Bool) (i : BitVec 6) (v : BitVec 8) (s : State) : Res :=
  runWf (.routeWrite w pod i v) s (fun s => s.write w (State.routeObj pod i) (leBytes 1 v.toNat))

/-- EP_GRANTS_WRITE (R329). -/
def execEpGrantsWrite (w : Who) (v : BitVec 8) (s : State) : Res :=
  runWf (.epGrantsWrite w v) s (fun s => s.write w Obj.epGrants (leBytes 1 v.toNat))

/-- DIRECTORY_SWEEP (R350). -/
def execDirectorySweep (s : State) : Res := runWf .directorySweep s (fun s => s.directorySweep)

/-- DIR_FLIP_MASK (R352). -/
def execDirFlipMask (w : Who) (v : BitVec 32) (s : State) : Res :=
  runWf (.dirFlipMask w v) s (fun s => s.write w Obj.dirFlipMask (leBytes 4 v.toNat))

/-- DIR_SPLIT_WRITE (R352). -/
def execDirSplitWrite (w : Who) (v : BitVec 8) (s : State) : Res :=
  runWf (.dirSplitWrite w v) s (fun s => s.write w Obj.dirSplitWrite (leBytes 1 v.toNat))

/-- BOLLARD_TIMEOUT (R391). -/
def execBollardTimeout (b : BitVec 14) (src : Src) (tag : BitVec 12) (s : State) : Res :=
  runWf (.bollardTimeout b src tag) s (fun s => s.bollardTimeout b.toNat src tag)

/-- WAITER_DISPATCH (R394); a second dispatch falls in the next cycle. -/
def execWaiterDispatch (s : State) : Res :=
  runWf .waiterDispatch s (fun s => (if s.path.disp = s.dev.now + 1 then s.cycle else s).dispatchWaiters)

/-- SR_SEED_WRITE (R381). -/
def execSrSeedWrite (w : Who) (isMode : Bool) (v : U64) (s : State) : Res :=
  runWf (.srSeedWrite w isMode v) s (fun s =>
    if isMode then s.write w Obj.srSeedMode (leBytes 1 v.toNat) else s.write w Obj.srSeed (leBytes 8 v.toNat))

/-- ALU_FLIP_MASK (R399). -/
def execAluFlipMask (w : Who) (v : BitVec 32) (s : State) : Res :=
  runWf (.aluFlipMask w v) s (fun s => s.write w Obj.aluFlipMask (leBytes 4 v.toNat))

/-- BOLLARD_FLIP_MASK (R400). -/
def execBollardFlipMask (w : Who) (v : BitVec 32) (s : State) : Res :=
  runWf (.bollardFlipMask w v) s (fun s => s.write w Obj.bollardFlipMask (leBytes 4 v.toNat))

/-- OVERDUE_SWEEP (R424). -/
def execOverdueSweep (s : State) : Res := runWf .overdueSweep s (fun s => s.overdueSweep)

/-- CLASS_COMMIT (R431). -/
def execClassCommit (w : Who) (s : State) : Res := runWf (.classCommit w) s (fun s => s.write w Obj.classAction [1])

/-- CLASS_DISCARD (R429). -/
def execClassDiscard (w : Who) (s : State) : Res := runWf (.classDiscard w) s (fun s => s.write w Obj.classAction [2])

/-- OPERATOR_CAP_WRITE (R435). -/
def execOperatorCapWrite (w : Who) (v : BitVec 16) (s : State) : Res :=
  runWf (.operatorCapWrite w v) s (fun s => s.write w Obj.operatorCap (leBytes 2 v.toNat))

end Sys2Proof.Machine
end

