-- ==== Sys2Proof/Machine/CoreRows.lean ====
section
/-! DEFINITION. The meanings of the commands of the management cores and of the battery-backed log (chapter 13). -/

namespace Sys2Proof.Machine

open State (coreNum)

/-- WATCHDOG_EXPIRY (R607). -/
def execWatchdogExpiry (c : CoreId) (s : State) : Res := runWf (.watchdogExpiry c) s (fun s => s.watchdog (coreNum c))

/-- WATCHDOG_KICK (R608). -/
def execWatchdogKick (c : CoreId) (s : State) : Res := runWf (.watchdogKick c) s (fun s => s.kick (coreNum c))

/-- LOCKSTEP_MISMATCH (R606). -/
def execLockstepMismatch (c : CoreId) (s : State) : Res :=
  runWf (.lockstepMismatch c) s (fun s => s.coreFault (coreNum c) 2 0x9003)

/-- FETCH_FAULT (R609). -/
def execFetchFault (c : CoreId) (s : State) : Res := runWf (.fetchFault c) s (fun s => s.coreFault (coreNum c) 3 0x9004)

/-- UNHANDLED_TRAP (R609). -/
def execUnhandledTrap (c : CoreId) (s : State) : Res := runWf (.unhandledTrap c) s (fun s => s.coreFault (coreNum c) 5 0)

/-- CORE_RESTART_DONE (R610). -/
def execCoreRestartDone (c : CoreId) (digestOk : Bool) (s : State) : Res :=
  runWf (.coreRestartDone c digestOk) s (fun s => s.coreRestarted (coreNum c) digestOk)

/-- CORE_RESTART (R613). -/
def execCoreRestart (w : Who) (v : BitVec 8) (s : State) : Res :=
  runWf (.coreRestart w v) s (fun s => s.write w Obj.coreRestart (leBytes 1 v.toNat))

/-- LOCKSTEP_INJECT (R641). -/
def execLockstepInject (w : Who) (v : BitVec 8) (s : State) : Res :=
  runWf (.lockstepInject w v) s (fun s => s.write w Obj.lockstepInject (leBytes 1 v.toNat))

/-- CORE_P_LOOP (R632). -/
def execCorePLoop (x : Sensors) (s : State) : Res := runWf (.corePLoop x) s (fun s => s.corePLoop x)

/-- AON_JUNCTION_CHECK (R754). -/
def execAonJunctionCheck (tj : List Int) (s : State) : Res := runWf (.aonJunctionCheck tj) s (fun s => s.junctionCheck tj)

/-- BOOT_COMPLETE (R604). -/
def execBootComplete (x : BootView) (s : State) : Res := runWf (.bootComplete x) s (fun s => s.bootComplete x)

/-- BACKUP_LOG_CLEAR (R639). -/
def execBackupLogClear (w : Who) (v : BitVec 8) (s : State) : Res :=
  runWf (.backupLogClear w v) s (fun s => s.write w Obj.backupLogClear (leBytes 1 v.toNat))

end Sys2Proof.Machine
end

