-- ==== Sys2Proof/Machine/DictRows.lean ====
section
/-! DEFINITION. The meanings of the commands of the parameter dictionary and the field network (chapter 14). -/

namespace Sys2Proof.Machine

namespace State

/-- A request whose header states no object. -/
def bareAsk (w : Who) (op sub : Nat) (value : List Byte) : Ask := ⟨w, 1, op, 0, sub, 0, 0, value.length, 0, value⟩

/-- A READ or WRITE as its header states it. -/
def hdrAsk (h : DictHdr) (value : List Byte) : Ask :=
  ⟨h.who, h.version.toNat, h.op.toNat, h.index.toNat, h.sub.toNat, h.flags.toNat, h.offset.toNat, h.length.toNat, h.rsvd.toNat, value⟩

end State

/-- DICT_READ (R661). -/
def execDictRead (h : DictHdr) (s : State) : Res := runWf (.dictRead h) s (fun s => s.ask (State.hdrAsk h []))

/-- DICT_WRITE (R658). -/
def execDictWrite (h : DictHdr) (value : List Byte) (s : State) : Res :=
  runWf (.dictWrite h value) s (fun s => s.ask (State.hdrAsk h value))

/-- OPEN (R673). -/
def execOpen (w : Who) (auth : BitVec 8) (s : State) : Res := runWf (.open_ w auth) s (fun s => s.ask (State.bareAsk w 3 auth.toNat []))

/-- PROVE (R674). -/
def execProve (w : Who) (value : List Byte) (s : State) : Res := runWf (.prove w value) s (fun s => s.ask (State.bareAsk w 4 0 value))

/-- CLOSE (R677). -/
def execClose (w : Who) (s : State) : Res := runWf (.close w) s (fun s => s.ask (State.bareAsk w 5 0 []))

/-- DESCRIBE (R663). -/
def execDescribe (w : Who) (s : State) : Res := runWf (.describe w) s (fun s => s.ask (State.bareAsk w 6 0 []))

/-- SESSION_IDLE_TIMEOUT (R677). -/
def execSessionIdleTimeout (path : Path) (session : BitVec 32) (s : State) : Res :=
  runWf (.sessionIdleTimeout path session) s (fun s => s.idleTimeout path session)

/-- PENDING_SESSION_TIMEOUT (R677). -/
def execPendingSessionTimeout (path : Path) (session : BitVec 32) (s : State) : Res :=
  runWf (.pendingSessionTimeout path session) s (fun s => s.pendingTimeout path session)

/-- ASSEMBLY_TIMEOUT (R662). -/
def execAssemblyTimeout (path : Path) (session : BitVec 32) (s : State) : Res :=
  runWf (.assemblyTimeout path session) s (fun s => s.assemblyTimeout path session)

/-- AUTH_LOCKOUT_END (R676). -/
def execAuthLockoutEnd (path : Path) (auth : BitVec 8) (s : State) : Res :=
  runWf (.authLockoutEnd path auth) s (fun s => s.lockoutEnd path auth.toNat)

/-- CHANGE_RECORD_COMPLETE (R651). -/
def execChangeRecordComplete (index : BitVec 16) (sub : BitVec 8) (s : State) : Res :=
  runWf (.changeRecordComplete index sub) s (fun s => s.recordDone (okey index.toNat sub.toNat))

/-- CONFIG_RESET (R654). -/
def execConfigReset (w : Who) (v : BitVec 8) (s : State) : Res :=
  runWf (.configReset w v) s (fun s => s.write w Obj.configReset (leBytes 1 v.toNat))

/-- NOTICE_ACK (R686): a write to ACK of the notice at an index. -/
def execNoticeAck (w : Who) (index : BitVec 16) (v : BitVec 8) (s : State) : Res :=
  runWf (.noticeAck w index v) s (fun s =>
    if State.isNotice index.toNat then s.write w (okey index.toNat 7) (leBytes 1 v.toNat) else s)

/-- NEIGHBOR_SOLICITATION (R665). -/
def execNeighborSolicitation (peer : Nat) (target : BitVec 128) (s : State) : Res :=
  runWf (.neighborSolicitation peer target) s (fun s => s.solicited peer target)

/-- ECHO_REQUEST (R665). -/
def execEchoRequest (peer : Nat) (data : List Byte) (s : State) : Res := runWf (.echoRequest peer data) s (fun s => s.echo peer data)

/-- T1S_DISCARD (R666): counted while the field network is up. -/
def execT1sDiscard (s : State) : Res := runWf .t1sDiscard s (fun s => if s.t1sUp then s.frameRx.bump Obj.t1sDiscards else s)

/-- T1S_LINK_CHANGE (R664). -/
def execT1sLinkChange (st : BitVec 2) (s : State) : Res := runOk (decide (st.toNat ≤ 2)) s (fun s => s.t1sChange st.toNat)

end Sys2Proof.Machine
end

