-- ==== Sys2Proof/Machine/DramRows.lean ====
section
/-! DEFINITION. The meanings of the commands of the DRAM controllers and of data integrity (chapters 09, 10). -/

namespace Sys2Proof.Machine

namespace State

/-- The objects of a unit that its row writes. -/
def recalObj : DUnit → Nat
  | .stack s => Obj.stackRecalNow s
  | .chan m => Obj.chRecalNow m

/-- SPLIT_WRITE (R483) of a unit. -/
def splitObj : DUnit → Nat
  | .stack s => Obj.stackSplitWrite s
  | .chan m => Obj.chSplitWrite m

end State

/-- BANK_IDLE_TIMEOUT (R451). -/
def execBankIdleTimeout (c : Chan) (bank : BitVec 9) (s : State) : Res :=
  runWf (.bankIdleTimeout c bank) s (fun s => s.bankIdle (chanNum c) bank.toNat)

/-- REFRESH_DUE (R457). -/
def execRefreshDue (c : Chan) (s : State) : Res := runWf (.refreshDue c) s (fun s => s.refreshDue (chanNum c))

/-- RD_WINDOW_END (R462). -/
def execRdWindowEnd (m : Fin 24) (rank : BitVec 3) (s : State) : Res :=
  runWf (.rdWindowEnd m rank) s (fun s => s.rdWindowEnd m rank.toNat)

/-- RECAL_DUE (R472). -/
def execRecalDue (c : Chan) (s : State) : Res := runWf (.recalDue c) s (fun s => s.schedRecal (chanNum c))

/-- DRIFT_CHECK (R473). -/
def execDriftCheck (m : Fin 24) (perMille : Nat) (s : State) : Res :=
  runWf (.driftCheck m perMille) s (fun s => s.driftCheck m perMille)

/-- RECAL_COMPLETE (R477). -/
def execRecalComplete (c : Chan) (ok : Bool) (margin : BitVec 16) (s : State) : Res :=
  runWf (.recalComplete c ok margin) s (fun s => s.recalComplete (chanNum c) ok margin.toNat)

/-- RECAL_NOW (R477). -/
def execRecalNow (w : Who) (u : DUnit) (v : BitVec 8) (s : State) : Res :=
  runWf (.recalNow w u v) s (fun s => s.write w (State.recalObj u) (leBytes 1 v.toNat))

/-- SR_ENTRY (R466). -/
def execSrEntry (m : Fin 24) (s : State) : Res := runWf (.srEntry m) s (fun s => s.srEntry m)

/-- SR_EXIT_COMPLETE (R470). -/
def execSrExitComplete (m : Fin 24) (s : State) : Res := runWf (.srExitComplete m) s (fun s => s.srExit m)

/-- DIMM_TEMP_POLL (R480). -/
def execDimmTempPoll (slot : Fin 48) (t : Option (Int × Int)) (s : State) : Res :=
  runWf (.dimmTempPoll slot t) s (fun s => s.dimmTemp slot t)

/-- TRAINING_ATTEMPT_DONE (R471). -/
def execTrainingAttemptDone (u : DUnit) (ok : Bool) (s : State) : Res :=
  runWf (.trainingAttemptDone u ok) s (fun s => s.trainingDone (dunitNum u) ok)

/-- SPLIT_WRITE (R483). -/
def execSplitWrite (w : Who) (u : DUnit) (v : BitVec 8) (s : State) : Res :=
  runWf (.splitWrite w u v) s (fun s => s.write w (State.splitObj u) (leBytes 1 v.toNat))

/-- SCRUB_BURST (R507). -/
def execScrubBurst (k : Fin 8) (hits : List ScrubHit) (s : State) : Res :=
  runWf (.scrubBurst k hits) s (fun s => s.scrubBurst k hits)

/-- SCRUB_PERIOD_END (R511). -/
def execScrubPeriodEnd (k : Fin 8) (complete : Bool) (s : State) : Res :=
  runWf (.scrubPeriodEnd k complete) s (fun s => s.scrubEnd k complete)

/-- REMAP_INSTALL_DONE (R514). -/
def execRemapInstallDone (c : Chan) (entry : BitVec 4) (s : State) : Res :=
  runWf (.remapInstallDone c entry) s (fun s => s.remapDone (chanNum c) entry.toNat)

/-- SOFT_REPAIR_DONE (R516). -/
def execSoftRepairDone (c : Chan) (entry : BitVec 4) (s : State) : Res :=
  runWf (.softRepairDone c entry) s (fun s => s.repairDone (chanNum c) entry.toNat)

/-- NEAR_FILL_COMPLETE (R500). -/
def execNearFillComplete (s : State) : Res := runWf .nearFillComplete s (fun s => s.nearFillDone)

/-- FAR_FILL_COMPLETE (R501). -/
def execFarFillComplete (s : State) : Res := runWf .farFillComplete s (fun s => s.farFillDone)

/-- REALM_ENABLE (R524). -/
def execRealmEnable (w : Who) (r : BitVec 8) (s : State) : Res :=
  runWf (.realmEnable w r) s (fun s => s.write w (Obj.realmAction r.toNat) [1])

/-- REALM_DISABLE (R525). -/
def execRealmDisable (w : Who) (r : BitVec 8) (s : State) : Res :=
  runWf (.realmDisable w r) s (fun s => s.write w (Obj.realmAction r.toNat) [2])

/-- KEY_RELOAD_DONE (R528). -/
def execKeyReloadDone (k : Fin 8) (r : BitVec 8) (hubOk : Bool) (s : State) : Res :=
  runWf (.keyReloadDone k r hubOk) s (fun s => s.keyReload k r.toNat hubOk)

/-- ECC_FLIP_MASK (R529). -/
def execEccFlipMask (w : Who) (v : BitVec 32) (s : State) : Res :=
  runWf (.eccFlipMask w v) s (fun s => s.write w Obj.eccFlipMask (leBytes 4 v.toNat))

/-- PARITY_FLIP_PATH (R530). -/
def execParityFlipPath (w : Who) (v : BitVec 8) (s : State) : Res :=
  runWf (.parityFlipPath w v) s (fun s => s.write w Obj.parityFlipPath (leBytes 1 v.toNat))

end Sys2Proof.Machine
end

