-- ==== Sys2Proof/Machine/EpRows.lean ====
section
/-! DEFINITION. The meanings of the commands of the host endpoint (chapter 12). -/

namespace Sys2Proof.Machine

/-- MEMORY_READ_TLP (R571). -/
def execMemoryReadTlp (t : Tlp) (s : State) : Res := runWf (.memoryReadTlp t) s (fun s => s.readTlp t)

/-- MEMORY_WRITE_TLP (R572). -/
def execMemoryWriteTlp (t : Tlp) (be : List Bool) (data : List Byte) (s : State) : Res :=
  runWf (.memoryWriteTlp t be data) s (fun s => s.writeTlp t be data)

/-- FETCHADD_TLP (R571). -/
def execFetchAddTlp (t : Tlp) (a : U64) (s : State) : Res := runWf (.fetchAddTlp t a) s (fun s => s.atomicTlp t (.add a))

/-- CAS_TLP (R571). -/
def execCasTlp (t : Tlp) (cmp swp : U64) (s : State) : Res := runWf (.casTlp t cmp swp) s (fun s => s.atomicTlp t (.cas cmp swp))

/-- SWAP_TLP (R571). -/
def execSwapTlp (t : Tlp) (s : State) : Res := runWf (.swapTlp t) s (fun s => s.swapTlp t)

/-- CONFIG_REQUEST (R566). -/
def execConfigRequest (id : Nat) (op : CfgOp) (s : State) : Res := runWf (.configRequest id op) s (fun s => s.configRequest id op)

/-- INVALIDATE_REQUEST (R590). -/
def execInvalidateRequest (base len : Nat) (s : State) : Res :=
  runWf (.invalidateRequest base len) s (fun s => s.invalidate base len)

/-- INVALIDATION_COMPLETE (R590). -/
def execInvalidationComplete (s : State) : Res := runWf .invalidationComplete s (fun s => s.invalidated)

/-- ATS_TRANSLATION_COMPLETE (R589). -/
def execAtsTranslationComplete (id : Nat) (ok : Bool) (s : State) : Res :=
  runWf (.atsTranslationComplete id ok) s (fun s => s.translated id ok)

/-- DMA_COMPLETION (R592). -/
def execDmaCompletion (ch : Fin 4) (id : Nat) (ep : Bool) (s : State) : Res :=
  runWf (.dmaCompletion ch id ep) s (fun s => s.dmaCompletion ch id ep)

/-- COMPLETION_TIMEOUT (R591). -/
def execCompletionTimeout (ch : Fin 4) (id : Nat) (s : State) : Res :=
  runWf (.completionTimeout ch id) s (fun s => s.cplTimeout ch id)

/-- FUNCTION_LEVEL_RESET (R594). -/
def execFunctionLevelReset (s : State) : Res := runWf .functionLevelReset s (fun s => s.flrStart)

/-- FLR_COMPLETE (R594). -/
def execFlrComplete (s : State) : Res := runWf .flrComplete s (fun s => s.flrDone)

/-- PERST_N_ASSERT (R596). -/
def execPerstNAssert (s : State) : Res := runWf .perstNAssert s (fun s => s.perstOn)

/-- PERST_N_DEASSERT (R598). -/
def execPerstNDeassert (s : State) : Res := runWf .perstNDeassert s (fun s => s.perstOff)

/-- PCIE_LINK_UP (R565). -/
def execPcieLinkUp (width rate : BitVec 8) (s : State) : Res :=
  runWf (.pcieLinkUp width rate) s (fun s => s.pcieUp width.toNat rate.toNat)

/-- PCIE_LINK_DOWN (R565). -/
def execPcieLinkDown (s : State) : Res := runOk true s (fun s => s.pcieDown)

/-- ENDPOINT_READY (R566). -/
def execEndpointReady (s : State) : Res := runOk true s (fun s => s.epReady)

/-- SNOOP_ANSWER (R582). -/
def execSnoopAnswer (stag : BitVec 12) (s : State) : Res := runWf (.snoopAnswer stag) s (fun s => s.sqAnswer stag)

/-- SQ_HEAD_WRITE (R582). -/
def execSqHeadWrite (v : U64) (s : State) : Res := runWf (.sqHeadWrite v) s (fun s => s.sqHead v.toNat)

/-- INTX_CAUSE_WRITE (R585). -/
def execIntxCauseWrite (v : U64) (s : State) : Res := runWf (.intxCauseWrite v) s (fun s => s.intxClear v)

/-- BAR0_BAD_ACCESS (R567). -/
def execBar0BadAccess (isWrite : Bool) (s : State) : Res := runWf (.bar0BadAccess isWrite) s (fun s => s.badAccess isWrite)

/-- DMA_RESTART (R593). -/
def execDmaRestart (w : Who) (v : BitVec 32) (s : State) : Res :=
  runWf (.dmaRestart w v) s (fun s => s.write w Obj.dmaRestart (leBytes 4 v.toNat))

/-- REGISTER_WRITE (R567). -/
def execRegisterWrite (r : Bar0Reg) (v : U64) (s : State) : Res := runWf (.registerWrite r v) s (fun s => s.bar0Write r v)

end Sys2Proof.Machine
end

