-- ==== Sys2Proof/Machine/GaugeRows.lean ====
section
/-! DEFINITION. The meanings of the commands of Tidegauge (chapter 17). -/

namespace Sys2Proof.Machine

/-- CNT_SNAPSHOT (R767). -/
def execCntSnapshot (w : Who) (v : BitVec 8) (s : State) : Res :=
  runWf (.cntSnapshot w v) s (fun s => s.write w Obj.cntSnapshot (leBytes 1 v.toNat))

/-- CNT_CLEAR (R766): one counter, or every counter. -/
def execCntClear (w : Who) (all : Bool) (j : BitVec 11) (v : BitVec 8) (s : State) : Res :=
  runOk w.ok s (fun s => s.write w (if all then Obj.cntClearAll else Obj.cntClear j.toNat) (leBytes 1 v.toNat))

/-- COUNTER_CONFIG_WRITE (R766): CNT_FILTER or CNT_SELECT of a counter. -/
def execCounterConfigWrite (w : Who) (j : BitVec 11) (isFilter : Bool) (v : U64) (s : State) : Res :=
  runOk w.ok s (fun s =>
    if isFilter then s.write w (Obj.cntFilter j.toNat) (leBytes 8 v.toNat) else s.write w (Obj.cntSelect j.toNat) (leBytes 2 v.toNat))

/-- TP_CONTROL_WRITE (R768) of a trace point. -/
def execTpControlWrite (w : Who) (pt : Fin 9) (v : BitVec 32) (s : State) : Res :=
  runOk w.ok s (fun s => s.write w (Obj.tpControl pt) (leBytes 4 v.toNat))

/-- TRACE_MODE_WRITE (R774). -/
def execTraceModeWrite (w : Who) (v : BitVec 8) (s : State) : Res :=
  runOk w.ok s (fun s => s.write w Obj.traceMode (leBytes 1 v.toNat))

/-- TRACE_READ (R775). -/
def execTraceRead (w : Who) (s : State) : Res :=
  runOk w.ok s (fun s => s.ask ⟨w, 1, 1, Obj.traceRead / 256, Obj.traceRead % 256, 0, 0, 0, 0, []⟩)

/-- STREAM_ENABLE_WRITE (R776). -/
def execStreamEnableWrite (w : Who) (v : BitVec 8) (s : State) : Res :=
  runOk w.ok s (fun s => s.write w Obj.streamEnable (leBytes 1 v.toNat))

/-- STREAM_HEAD_WRITE (R777). -/
def execStreamHeadWrite (w : Who) (v : U64) (s : State) : Res :=
  runOk w.ok s (fun s => s.write w Obj.streamHead (leBytes 8 v.toNat))

/-- STREAM_WRITE (R778). -/
def execStreamWrite (s : State) : Res := runWf .streamWrite s (fun s => s.streamWrite)

end Sys2Proof.Machine
end

