-- ==== Sys2Proof/Machine/LinkRows.lean ====
section
/-! DEFINITION. The meanings of the commands of the Solward Link ports (chapter 02). -/

namespace Sys2Proof.Machine

/-- FLIT_RECEIVED (R52). -/
def execFlitReceived (p : Fin 16) (f : Flit) (s : State) : Res :=
  runWf (.flitReceived p f) s (fun s => s.flitIn State.askLink p f)

/-- REPLAY_REQ (R87). -/
def execReplayReq (p : Fin 16) (seq : BitVec 10) (s : State) : Res := runWf (.replayReq p seq) s (fun s => s.replayFrom p seq)

/-- DEGRADE_REQ (R89). -/
def execDegradeReq (p : Fin 16) (half : Half) (at_ : BitVec 12) (s : State) : Res :=
  runWf (.degradeReq p half at_) s (fun s => s.degradeAsked p half at_)

/-- DEGRADE_ACK (R89). -/
def execDegradeAck (p : Fin 16) (at_ : BitVec 12) (s : State) : Res := runWf (.degradeAck p at_) s (fun s => s.degradeAcked p at_)

/-- UPSHIFT_REQ (R90). -/
def execUpshiftReq (p : Fin 16) (at_ : BitVec 12) (s : State) : Res := runWf (.upshiftReq p at_) s (fun s => s.upshiftAsked p at_)

/-- UPSHIFT_ACK (R90). -/
def execUpshiftAck (p : Fin 16) (at_ : BitVec 12) (s : State) : Res := runWf (.upshiftAck p at_) s (fun s => s.upshiftAcked p at_)

/-- WIDTH_SWITCH (R411). -/
def execWidthSwitch (p : Fin 16) (s : State) : Res := runWf (.widthSwitch p) s (fun s => s.widthSwitch p)

/-- PARAM (R72). -/
def execParam (p : Fin 16) (x : ParamMsg) (s : State) : Res := runWf (.param p x) s (fun s => s.paramIn p x)

/-- RESUME (R92). -/
def execResume (p : Fin 16) (valid : Bool) (seq : BitVec 10) (s : State) : Res :=
  runWf (.resume p valid seq) s (fun s => s.resumeIn p valid seq)

/-- RESET_NOTICE (R91): a reset with cause 6. -/
def execResetNotice (p : Fin 16) (s : State) : Res := runWf (.resetNotice p) s (fun s => s.portReset p 6 false)

/-- CONTROL_REPEAT (R57). -/
def execControlRepeat (p : Fin 16) (s : State) : Res := runWf (.controlRepeat p) s (fun s => s.repeatCtl p)

/-- ACK_TIMEOUT (R800). -/
def execAckTimeout (p : Fin 16) (s : State) : Res := runWf (.ackTimeout p) s (fun s => s.ackTimeout p)

/-- DEGRADE_TIMEOUT (R800). -/
def execDegradeTimeout (p : Fin 16) (s : State) : Res := runWf (.degradeTimeout p) s (fun s => s.degradeTimeout p)

/-- LANE_SER_CHECK (R800). -/
def execLaneSerCheck (p : Fin 16) (counts : List Nat) (s : State) : Res :=
  runWf (.laneSerCheck p counts) s (fun s => s.laneSer p counts)

/-- UPSHIFT_SOAK_END (R90). -/
def execUpshiftSoakEnd (p : Fin 16) (s : State) : Res := runWf (.upshiftSoakEnd p) s (fun s => s.soakEnd p)

/-- LANE_DETECT (R78). -/
def execLaneDetect (p : Fin 16) (lanes : Bool) (s : State) : Res := runWf (.laneDetect p lanes) s (fun s => s.laneDetect p lanes)

/-- TRAINING_START (R78). -/
def execTrainingStart (p : Fin 16) (s : State) : Res := runWf (.trainingStart p) s (fun s => s.beginTraining p)

/-- TRAINING_FAILED (R80). -/
def execTrainingFailed (p : Fin 16) (s : State) : Res := runWf (.trainingFailed p) s (fun s => s.trainingFailed p)

/-- CREDIT_CARRIER_TIMEOUT (R73). -/
def execCreditCarrierTimeout (p : Fin 16) (s : State) : Res := runWf (.creditCarrierTimeout p) s (fun s => s.carryCredits p)

/-- MESSAGE_START (R69). -/
def execMessageStart (p : Fin 16) (s : State) : Res := runWf (.messageStart p) s (fun s => s.startMsgs p)

/-- RSP_HOLD_START (R77). -/
def execRspHoldStart (p : Fin 16) (s : State) : Res := runWf (.rspHoldStart p) s (fun s => s.rspHoldOn p)

/-- LANE_LOCK_LOST (R800). -/
def execLaneLockLost (p lane : Fin 16) (s : State) : Res := runOk true s (fun s => s.laneLost p lane.val)

/-- INJECT_FLIT_CRC (R111). -/
def execInjectFlitCrc (w : Who) (p : Fin 16) (v : BitVec 8) (s : State) : Res :=
  runWf (.injectFlitCrc w p v) s (fun s => s.write w (Obj.injectFlitCrc p) (leBytes 1 v.toNat))

/-- PORT_ENABLE_WRITE (R102). -/
def execPortEnableWrite (w : Who) (p : Fin 16) (v : BitVec 8) (s : State) : Res :=
  runWf (.portEnableWrite w p v) s (fun s => s.write w (Obj.portEnable p) (leBytes 1 v.toNat))

/-- PORT_WIDTH_MAX_WRITE (R90). -/
def execPortWidthMaxWrite (w : Who) (p : Fin 16) (v : BitVec 8) (s : State) : Res :=
  runWf (.portWidthMaxWrite w p v) s (fun s => s.write w (Obj.portWidthMax p) (leBytes 1 v.toNat))

end Sys2Proof.Machine
end

