-- ==== Sys2Proof/Machine/PowerRows.lean ====
section
/-! DEFINITION. The meanings of the commands of power, resets, start-up and pins (chapter 16). -/

namespace Sys2Proof.Machine

/-- POWER_ON (R738). -/
def execPowerOn (s : State) : Res := runWf .powerOn s (fun s => s.powerOn)

/-- RESET_N (R735): a device reset of kind PIN. -/
def execResetN (s : State) : Res := runWf .resetN s (fun s => s.resetFor 2)

/-- DEVICE_RESET (R737). -/
def execDeviceReset (w : Who) (v : BitVec 8) (s : State) : Res :=
  runWf (.deviceReset w v) s (fun s => s.write w Obj.deviceReset (leBytes 1 v.toNat))

/-- COMMAND_RESET (R737). -/
def execCommandReset (s : State) : Res := runWf .commandReset s (fun s => s.commandReset)

/-- PWRGOOD_FALL (R735). -/
def execPwrgoodFall (s : State) : Res := runWf .pwrgoodFall s (fun s => s.pwrgoodFall)

/-- RAIL_FAULT (R732). -/
def execRailFault (rail : BitVec 4) (s : State) : Res := runWf (.railFault rail) s (fun s => s.railFault rail.toNat)

/-- CLOCK_LOSS (R734). -/
def execClockLoss (s : State) : Res := runWf .clockLoss s (fun s => s.clockLoss)

/-- RESET_RELEASE (R738). -/
def execResetRelease (straps : BitVec 3) (s : State) : Res := runWf (.resetRelease straps) s (fun s => s.resetRelease straps)

/-- LEAVE_INIT (R739). -/
def execLeaveInit (s : State) : Res := runWf .leaveInit s (fun s => s.leaveInit)

/-- MEMHOLD_ACTIVE (R744). -/
def execMemholdActive (s : State) : Res := runWf .memholdActive s (fun s => s.memholdOn)

/-- HOLD_ENTRY_COMPLETE (R744). -/
def execHoldEntryComplete (s : State) : Res := runWf .holdEntryComplete s (fun s => s.holdEntered)

/-- HOLD_REMINDER (R744). -/
def execHoldReminder (s : State) : Res := runWf .holdReminder s (fun s => s.holdReminder)

/-- MEMHOLD_INACTIVE (R747). -/
def execMemholdInactive (s : State) : Res := runWf .memholdInactive s (fun s => s.memholdOff)

/-- HOLD_EXIT_COMPLETE (R746). -/
def execHoldExitComplete (s : State) : Res := runWf .holdExitComplete s (fun s => s.holdExited)

/-- TAMPER_ACTIVE (R748). -/
def execTamperActive (s : State) : Res := runWf .tamperActive s (fun s => s.tamperOn)

/-- TAMPER_INACTIVE (R749). -/
def execTamperInactive (s : State) : Res := runOk true s (fun s => s.tamperOff)

/-- PIN_CHATTER_ACK (R743). -/
def execPinChatterAck (w : Who) (v : BitVec 8) (s : State) : Res :=
  runWf (.pinChatterAck w v) s (fun s => s.write w Obj.pinChatterAck (leBytes 1 v.toNat))

/-- MAIN_POWER_LOSS (R750). -/
def execMainPowerLoss (s : State) : Res := runWf .mainPowerLoss s (fun s => s.mainLoss)

/-- VBAT_LOSS (R750). -/
def execVbatLoss (s : State) : Res := runWf .vbatLoss s (fun s => s.vbatLoss)

/-- VBAT_RETURN (R756). -/
def execVbatReturn (s : State) : Res := runOk true s (fun s => s.vbatReturn)

/-- MAIN_RAILS_RISE (R756). -/
def execMainRailsRise (s : State) : Res := runOk true s (fun s => s.railsRise)

/-- BACKUP_SAMPLE (R751). -/
def execBackupSample (mv : BitVec 16) (temp : Int) (tamper : Bool) (s : State) : Res :=
  runWf (.backupSample mv temp tamper) s (fun s => s.backupSample mv.toNat temp tamper)

/-- BACKUP_ALARM_ACK (R752). -/
def execBackupAlarmAck (w : Who) (v : BitVec 8) (s : State) : Res :=
  runWf (.backupAlarmAck w v) s (fun s => s.write w Obj.backupAlarmAck (leBytes 1 v.toNat))

end Sys2Proof.Machine
end

