-- ==== Sys2Proof/Machine/RegionRows.lean ====
section
/-! DEFINITION. The meanings of the commands of regions, pool sessions and the codec (chapters 03, 04). -/

namespace Sys2Proof.Machine

/-- REGION_COMMIT (R139). -/
def execRegionCommit (w : Who) (k : BitVec 12) (s : State) : Res :=
  runWf (.regionCommit w k) s (fun s => s.write w (Obj.regionAction k.toNat) [1])

/-- COMMIT_COMPLETE (R124). -/
def execCommitComplete (k : BitVec 12) (s : State) : Res :=
  runWf (.commitComplete k) s (fun s => (s.commitComplete k.toNat).h3Pump (s.ctl.h3.length + 1))

/-- REGION_SEAL (R129). -/
def execRegionSeal (w : Who) (k : BitVec 12) (s : State) : Res :=
  runWf (.regionSeal w k) s (fun s => s.write w (Obj.regionAction k.toNat) [2])

/-- INGEST_VALIDATION (R193). -/
def execIngestValidation (k : BitVec 12) (s : State) : Res := runWf (.ingestValidation k) s (fun s => s.ingestValidation k.toNat)

/-- SEAL_TABLE_BUILT (R182). -/
def execSealTableBuilt (k : BitVec 12) (s : State) : Res := runOk true s (fun s => s.sealTableBuilt k.toNat)

/-- SEALING_COMPLETE (R154). -/
def execSealingComplete (k : BitVec 12) (s : State) : Res := runWf (.sealingComplete k) s (fun s => s.sealingComplete k.toNat)

/-- REGION_RETIRE (R134). -/
def execRegionRetire (w : Who) (k : BitVec 12) (s : State) : Res :=
  runWf (.regionRetire w k) s (fun s => s.write w (Obj.regionAction k.toNat) [3])

/-- RETIREMENT_COMPLETE (R135). -/
def execRetirementComplete (k : BitVec 12) (s : State) : Res :=
  runWf (.retirementComplete k) s (fun s => s.retirementComplete k.toNat)

/-- REGION_DISCARD (R121). -/
def execRegionDiscard (w : Who) (k : BitVec 12) (s : State) : Res :=
  runWf (.regionDiscard w k) s (fun s => s.write w (Obj.regionAction k.toNat) [4])

/-- SESSION_OPEN (R148). -/
def execSessionOpen (w : Who) (n : BitVec 10) (s : State) : Res :=
  runWf (.sessionOpen w n) s (fun s => s.write w (Obj.sessionAction n.toNat) [1])

/-- SESSION_RESIZE (R149). -/
def execSessionResize (w : Who) (n : BitVec 10) (s : State) : Res :=
  runWf (.sessionResize w n) s (fun s => s.write w (Obj.sessionAction n.toNat) [2])

/-- SESSION_CLOSE (R149). -/
def execSessionClose (w : Who) (n : BitVec 10) (s : State) : Res :=
  runWf (.sessionClose w n) s (fun s => s.write w (Obj.sessionAction n.toNat) [3])

/-- RETABLE (R185). -/
def execRetable (w : Who) (k : BitVec 16) (s : State) : Res :=
  runWf (.retable w k) s (fun s => s.write w Obj.retableRegion (leBytes 2 k.toNat))

/-- RETABLE_COMPLETE (R185). -/
def execRetableComplete (s : State) : Res := runWf .retableComplete s (fun s => s.retableComplete)

/-- CODEC_FLIP_MASK (R213). -/
def execCodecFlipMask (w : Who) (v : BitVec 32) (s : State) : Res :=
  runWf (.codecFlipMask w v) s (fun s => s.write w Obj.codecFlipMask (leBytes 4 v.toNat))

end Sys2Proof.Machine
end

