-- ==== Sys2Proof/Machine/RequestRows.lean ====
section
/-! DEFINITION. The meanings of the requests and of the steps of the request path (chapters 01, 03, 06, 07). -/

namespace Sys2Proof.Machine

namespace State

/-- A message of n units arrives on a port: nothing unless the port is UP; a protocol error beyond the partner's credits (R76). -/
def fromLink (s : State) (p : Fin 16) (vc : VC) (n : Nat) (f : State → State) : State :=
  if s.ports[p].state ≠ .up then s
  else if advertised vc < unitsOut s.ports[p] vc + n then s.protocolError p
  else f (s.holdUnits p vc n)

/-- A REQ message of a port; one whose node unit is not as the port's kind has it is no message of that port, and one whose node unit
has a SCOPE other than 0 is a protocol error (R301). -/
def linkReq (s : State) (p : Fin 16) (h : Hdr) (op : ReqOp) : State :=
  if h.node.isSome ≠ s.ports[p].relay then s
  else if h.node.any (fun n => n.scope != 0) then (if s.ports[p].state = .up then s.protocolError p else s)
  else s.fromLink p .req (op.units h) (fun s => s.arrive p h op 0)

/-- A request from its master. -/
def reqIn (s : State) (h : Hdr) (op : ReqOp) : State :=
  match h.src with
  | .port p => s.linkReq p h op
  | .ep => match op with
    | .fence => s.fenceDoor h.tag.toNat
    | .bol k a =>
      let d : Fin 56 := Fin.ofNat 56 h.tag.toNat
      (s.bar0Write (.doorOperand d) a).doorLaunch d h.addr.toNat k h.attr.toNat false
    | _ => s

/-- A snoop answer from a port. -/
def snpIn (s : State) (m : Src) (n : Nat) (f : State → State) : State :=
  match m with
  | .port p => s.fromLink p .rsp n (fun s => f (s.returnUnits p .rsp n))
  | .ep => s

end State

/-- READ (R312). -/
def execRead (h : Hdr) (s : State) : Res := runWf (.read h) s (fun s => s.reqIn h .read)

/-- READ_EXCL (R312). -/
def execReadExcl (h : Hdr) (s : State) : Res := runWf (.readExcl h) s (fun s => s.reqIn h .readExcl)

/-- READ_ONCE (R312). -/
def execReadOnce (h : Hdr) (s : State) : Res := runWf (.readOnce h) s (fun s => s.reqIn h .readOnce)

/-- READ_HALF (R312). -/
def execReadHalf (h : Hdr) (s : State) : Res := runWf (.readHalf h) s (fun s => s.reqIn h .readHalf)

/-- WRITE (R34). -/
def execWrite (h : Hdr) (data : List Byte) (s : State) : Res := runWf (.write h data) s (fun s => s.reqIn h (.write data))

/-- WRITE_MASKED (R35). -/
def execWriteMasked (h : Hdr) (mask : BitVec 64) (data : List Byte) (s : State) : Res :=
  runWf (.writeMasked h mask data) s (fun s => s.reqIn h (.writeMasked mask data))

/-- WRITEBACK (R323). -/
def execWriteback (h : Hdr) (data : List Byte) (s : State) : Res :=
  runWf (.writeback h data) s (fun s => s.reqIn h (.writeback data))

/-- RELEASE_CLEAN (R312). -/
def execReleaseClean (h : Hdr) (s : State) : Res := runWf (.releaseClean h) s (fun s => s.reqIn h .releaseClean)

/-- FENCE (R365). -/
def execFence (h : Hdr) (s : State) : Res := runWf (.fence h) s (fun s => s.reqIn h .fence)

/-- ATOMIC_ADD (R375). -/
def execAtomicAdd (h : Hdr) (a : U64) (s : State) : Res := runWf (.atomicAdd h a) s (fun s => s.reqIn h (.add a))

/-- ATOMIC_CAS (R376). -/
def execAtomicCas (h : Hdr) (cmp swp : U64) (s : State) : Res := runWf (.atomicCas h cmp swp) s (fun s => s.reqIn h (.cas cmp swp))

/-- ATOMIC_FADD32 (R377). -/
def execAtomicFadd32 (h : Hdr) (a : U64) (s : State) : Res := runWf (.atomicFadd32 h a) s (fun s => s.reqIn h (.fadd a))

/-- ATOMIC_BFADD (R378). -/
def execAtomicBfadd (h : Hdr) (a : U64) (s : State) : Res := runWf (.atomicBfadd h a) s (fun s => s.reqIn h (.bfadd a))

/-- VEC_ACCUM (R382). -/
def execVecAccum (h : Hdr) (data : List Byte) (s : State) : Res := runWf (.vecAccum h data) s (fun s => s.reqIn h (.vec data))

/-- BOLLARD_ADD (R386). -/
def execBollardAdd (h : Hdr) (a : U64) (s : State) : Res := runWf (.bollardAdd h a) s (fun s => s.reqIn h (.bol .add a))

/-- BOLLARD_SIGNAL (R386). -/
def execBollardSignal (h : Hdr) (a : U64) (s : State) : Res := runWf (.bollardSignal h a) s (fun s => s.reqIn h (.bol .signal a))

/-- BOLLARD_RESET (R386). -/
def execBollardReset (h : Hdr) (a : U64) (s : State) : Res := runWf (.bollardReset h a) s (fun s => s.reqIn h (.bol .reset a))

/-- BOLLARD_WAIT_GE (R392). -/
def execBollardWaitGe (h : Hdr) (a : U64) (s : State) : Res := runWf (.bollardWaitGe h a) s (fun s => s.reqIn h (.bol .waitGe a))

/-- BOLLARD_BARRIER_ARRIVE (R387). -/
def execBollardBarrierArrive (h : Hdr) (a : U64) (s : State) : Res :=
  runWf (.bollardBarrierArrive h a) s (fun s => s.reqIn h (.bol .arrive a))

/-- BOLLARD_CANCEL (R389). -/
def execBollardCancel (h : Hdr) (a : U64) (s : State) : Res := runWf (.bollardCancel h a) s (fun s => s.reqIn h (.bol .cancel a))

/-- SNP_ACK (R322). -/
def execSnpAck (m : Src) (stag : BitVec 12) (wbPending : Bool) (s : State) : Res :=
  runWf (.snpAck m stag wbPending) s (fun s => s.snpIn m 1 (fun s => s.snoopAnswer m stag wbPending none))

/-- SNP_DATA (R320, R337). -/
def execSnpData (m : Src) (stag : BitVec 12) (data : List Byte) (s : State) : Res :=
  runWf (.snpData m stag data) s (fun s => s.snpIn m 17 (fun s => match m with
    | .port p => s.snpDataIn p stag data
    | .ep => s))

/-- REQUEST_GRANT (R419); a mismatch that the comparators find in this cycle comes first (R538). -/
def execRequestGrant (mismatch : Option DupUnit) (s : State) : Res :=
  runWf (.requestGrant mismatch) s (fun s =>
    let s : State := match mismatch with | some u => s.dupMismatch u | none => s
    s.h2Cycle)

/-- TRANSACTION_END (R317). -/
def execTransactionEnd (line : BitVec 37) (s : State) : Res :=
  runWf (.transactionEnd line) s (fun s => s.transactionEnd line.toNat)

/-- CHANNEL_ADMISSION (R425). -/
def execChannelAdmission (c : Chan) (s : State) : Res :=
  runWf (.channelAdmission c) s (fun s => (s.freshAdmission (chanNum c)).admitNext (chanNum c))

/-- CONTROLLER_ISSUE (R446). -/
def execControllerIssue (c : Chan) (s : State) : Res :=
  runWf (.controllerIssue c) s (fun s => (s.freshIssue (chanNum c)).issue (chanNum c))

/-- DRAM_READ_RETURN (R490). -/
def execDramReadReturn (c : Chan) (errs : List (List SymErr)) (s : State) : Res :=
  runWf (.dramReadReturn c errs) s (fun s => s.readReturn (chanNum c) errs)

/-- LINE_STORE_WRITEBACK_ACCEPTED (R42). -/
def execLineStoreWritebackAccepted (line : BitVec 37) (s : State) : Res :=
  runWf (.lineStoreWritebackAccepted line) s (fun s => s.storeGone line.toNat)

/-- LANDING_INSTALL_COMPLETE (R197). -/
def execLandingInstallComplete (page : BitVec 28) (blk : BitVec 4) (s : State) : Res :=
  runWf (.landingInstallComplete page blk) s (fun s => s.blockInstalled page.toNat blk.toNat)

/-- LANDING_EVICTION (R198). -/
def execLandingEviction (page : BitVec 28) (blk : BitVec 4) (s : State) : Res :=
  runWf (.landingEviction page blk) s (fun s => s.blockEvict page.toNat blk.toNat)

/-- EVICTION_ACCEPTED (R37). -/
def execEvictionAccepted (page : BitVec 28) (blk : BitVec 4) (s : State) : Res :=
  runWf (.evictionAccepted page blk) s (fun s => s.blockGone page.toNat blk.toNat)

/-- PLACEMENT_ACCEPTED (R505). -/
def execPlacementAccepted (page : BitVec 28) (s : State) : Res :=
  runWf (.placementAccepted page) s (fun s => s.placed page.toNat)

end Sys2Proof.Machine
end

