-- ==== Sys2Proof/Machine/RingRows.lean ====
section
/-! DEFINITION. The meanings of the commands of the rings (chapter 13) and of the update's ring commands (chapter 15). -/

namespace Sys2Proof.Machine

namespace State

/-- A command that the rings do not carry out completes with a status. -/
def ringNo (s : State) (st : Status) : State := s.finishCmd st 0 [] 0

/-- DICT_READ (R661): an object that the agreed features reach. -/
def ringRead (s : State) (e : CmdEntry) : State :=
  s.ringCmd e 3 (fun s =>
    if !s.cmdReach e.index.toNat then s.ringNo .unsupported
    else s.ask ⟨s.ringWho, 1, 1, e.index.toNat, e.sub.toNat, 0, 0, 0, 0, []⟩)

/-- DICT_WRITE (R658): a value in a host buffer needs HOST_BUFFERS, and VALUE_LEN 33 to 254 is no length. -/
def ringWrite (s : State) (e : CmdEntry) : State :=
  s.ringCmd e 3 (fun s =>
    if !s.cmdReach e.index.toNat then s.ringNo .unsupported
    else if e.valueLen = 0xFF ∧ !s.ringHas 6 then s.ringNo .unsupported
    else if e.valueLen ≠ 0xFF ∧ 32 < e.valueLen.toNat then s.ringNo .damaged
    else s.write s.ringWho (okey e.index.toNat e.sub.toNat) (cmdValue e))

/-- An update command that writes `UPD_ACTION`. -/
def ringAction (s : State) (e : CmdEntry) (n : Byte) : State := s.ringCmd e 9 (fun s => s.write s.ringWho Obj.updAction [n])

/-- UPD_HEADER (R702): the header is written without an answer of its own, then START; a header that cannot be written gives the status. -/
def ringHeader (s : State) (e : CmdEntry) : State :=
  s.ringCmd e 9 (fun s =>
    let t : State := s.write { s.ringWho with peer := s.ringWho.peer + 1 } Obj.updHeader e.buf
    if t.blob Obj.updHeader = e.buf then t.write t.ringWho Obj.updAction [1] else s.write s.ringWho Obj.updHeader e.buf)

/-- UPD_BLOCK (R702). -/
def ringBlock (s : State) (e : CmdEntry) : State := s.ringCmd e 9 (fun s => s.write s.ringWho Obj.updBlock e.buf)

end State

/-- RING_ENABLE (R615). -/
def execRingEnable (s : State) : Res := runWf .ringEnable s (fun s => s.bell .enable)

/-- RING_BIND_COMPLETE (R616). -/
def execRingBindComplete (s : State) : Res := runWf .ringBindComplete s (fun s => s.ringBindDone)

/-- RING_OFFER (R628). -/
def execRingOffer (s : State) : Res := runWf .ringOffer s (fun s => s.bell .offer)

/-- RING_DISABLE (R618). -/
def execRingDisable (s : State) : Res := runWf .ringDisable s (fun s => s.bell .disable)

/-- CMD_TAIL_WRITE (R620). -/
def execCmdTailWrite (v : BitVec 32) (s : State) : Res := runWf (.cmdTailWrite v) s (fun s => s.bell (.cmdTail v.toNat))

/-- RING_HEAD_WRITE (R621). -/
def execRingHeadWrite (r : HeadReg) (v : BitVec 32) (s : State) : Res :=
  runWf (.ringHeadWrite r v) s (fun s => s.bell (.head r v.toNat))

/-- SHADOW_WRITE (R624). -/
def execShadowWrite (s : State) : Res := runWf .shadowWrite s (fun s => s.shadowWrite)

/-- NOP (R626). -/
def execNop (e : CmdEntry) (s : State) : Res := runWf (.nop e) s (fun s => s.cmdNop e)

/-- RING_DICT_READ (R626). -/
def execRingDictRead (e : CmdEntry) (s : State) : Res := runWf (.ringDictRead e) s (fun s => s.ringRead e)

/-- RING_DICT_WRITE (R626). -/
def execRingDictWrite (e : CmdEntry) (s : State) : Res := runWf (.ringDictWrite e) s (fun s => s.ringWrite e)

/-- BACKUP_LOG_DUMP (R638). -/
def execBackupLogDump (e : CmdEntry) (s : State) : Res := runWf (.backupLogDump e) s (fun s => s.cmdDump e)

/-- UPD_HEADER (R702). -/
def execUpdHeader (e : CmdEntry) (s : State) : Res := runWf (.updHeader e) s (fun s => s.ringHeader e)

/-- UPD_BLOCK (R702). -/
def execUpdBlock (e : CmdEntry) (s : State) : Res := runWf (.updBlock e) s (fun s => s.ringBlock e)

/-- UPD_VERIFY (R702). -/
def execUpdVerify (e : CmdEntry) (s : State) : Res := runWf (.updVerify e) s (fun s => s.ringAction e 2)

/-- UPD_ACTIVATE (R702). -/
def execUpdActivate (e : CmdEntry) (s : State) : Res := runWf (.updActivate e) s (fun s => s.ringAction e 3)

/-- UPD_CONFIRM (R702). -/
def execUpdConfirm (e : CmdEntry) (s : State) : Res := runWf (.updConfirm e) s (fun s => s.ringAction e 4)

/-- UPD_ABORT (R702). -/
def execUpdAbort (e : CmdEntry) (s : State) : Res := runWf (.updAbort e) s (fun s => s.ringAction e 5)

/-- UPD_ROLLBACK (R702). -/
def execUpdRollback (e : CmdEntry) (s : State) : Res := runWf (.updRollback e) s (fun s => s.ringAction e 6)

end Sys2Proof.Machine
end

