-- ==== Sys2Proof/Machine/SafetyRows.lean ====
section
/-! DEFINITION. The meanings of the commands of the safety concept (chapter 11). -/

namespace Sys2Proof.Machine

/-- SELFTEST_VECTOR (R541). -/
def execSelftestVector (c : Checker) (ok : Bool) (s : State) : Res := runWf (.selftestVector c ok) s (fun s => s.selftest c ok)

/-- SELFTEST_PERIOD_END (R544). -/
def execSelftestPeriodEnd (s : State) : Res := runWf .selftestPeriodEnd s (fun s => s.selftestEnd)

/-- CONFIG_COMPARE_SWEEP (R539): a mismatch, and whether the parities resolve it. -/
def execConfigCompareSweep (mismatch : Option Bool) (s : State) : Res :=
  runWf (.configCompareSweep mismatch) s (fun s => match mismatch with
    | some resolved => s.dupMismatch (.config resolved)
    | none => s)

/-- SAFETY_ACK (R549). -/
def execSafetyAck (w : Who) (v : BitVec 8) (s : State) : Res :=
  runWf (.safetyAck w v) s (fun s => s.write w Obj.safetyAck (leBytes 1 v.toNat))

/-- ALERT_TEST (R545). -/
def execAlertTest (w : Who) (v : BitVec 8) (s : State) : Res :=
  runWf (.alertTest w v) s (fun s => s.write w Obj.alertTest (leBytes 1 v.toNat))

/-- ALERT_TEST_END (R548). -/
def execAlertTestEnd (s : State) : Res := runWf .alertTestEnd s (fun s => s.alertTestOff)

/-- FORCE_SAFE (R554). -/
def execForceSafe (w : Who) (v : BitVec 8) (s : State) : Res :=
  runWf (.forceSafe w v) s (fun s => s.write w Obj.forceSafe (leBytes 1 v.toNat))

end Sys2Proof.Machine
end

