-- ==== Sys2Proof/Machine/TideRows.lean ====
section
/-! DEFINITION. The meanings of the Tide engine's commands (chapter 05). -/

namespace Sys2Proof.Machine

namespace State

/-- Background work runs in SERVICE and DEGRADED only (Table 11-8, Table 16-7). -/
def background (s : State) (f : State → State) : State :=
  if s.dev.state = .service ∨ s.dev.state = .degraded then f s else s

/-- An effect on the job that is being carried out on a page. -/
def onJob (s : State) (p : Nat) (f : State → Job → State) : State :=
  match s.activeJob p with
  | some j => s.background (fun s => f s j)
  | none => s

/-- RETURN (R292) through its own row: what is found in the slot is the row's. -/
def returnIn (s : State) (w : Who) (spd : Option Spd) (powerOk trainOk : Bool) : State :=
  takeAsk readObj (fun s o r v =>
    if o.key = Obj.slotAction then s.slotReturn (s.num Obj.slotSelect) spd powerOk trainOk else applyWrite s o r v) s
    (askWrite w Obj.slotAction [3])

end State

/-- FAR_BAY_AVAILABLE (R504). -/
def execFarBayAvailable (s : State) : Res := runWf .farBayAvailable s (fun s => s.farBay)

/-- JOB_DISPATCH (R236). -/
def execJobDispatch (s : State) : Res := runWf .jobDispatch s (fun s => s.background (fun s => s.dispatchJob))

/-- COPY_PASS_END (R240). -/
def execCopyPassEnd (page : BitVec 28) (s : State) : Res :=
  runWf (.copyPassEnd page) s (fun s => s.onJob page.toNat (fun s j => s.passEnd j))

/-- MIGRATION_SWITCH (R242). -/
def execMigrationSwitch (page : BitVec 28) (s : State) : Res :=
  runWf (.migrationSwitch page) s (fun s => s.onJob page.toNat (fun s j => (s.switchJob j).evictDue page.toNat))

/-- SOURCE_RELEASE (R243). -/
def execSourceRelease (page : BitVec 28) (s : State) : Res :=
  runWf (.sourceRelease page) s (fun s => s.releaseSources page.toNat)

/-- SWEEPER_VISIT (R257). -/
def execSweeperVisit (s : State) : Res := runWf .sweeperVisit s (fun s => s.background (fun s => s.sweep))

/-- MIG_OVERLOAD_MS (R267). -/
def execMigOverloadMs (s : State) : Res := runWf .migOverloadMs s (fun s => s.overloadMs)

/-- LENT_READ_COMPLETION (R282). -/
def execLentReadCompletion (id : Nat) (good : Bool) (s : State) : Res :=
  runWf (.lentReadCompletion id good) s (fun s => s.lentDone id good)

/-- LENT_READ_TIMEOUT (R282). -/
def execLentReadTimeout (id : Nat) (s : State) : Res := runWf (.lentReadTimeout id) s (fun s => s.lentTimeout id)

/-- CLONE_START (R268). -/
def execCloneStart (w : Who) (s : State) : Res := runWf (.cloneStart w) s (fun s => s.write w Obj.cloneAction [1])

/-- CLONE_PAGE_INSTALL (R271). -/
def execClonePageInstall (s : State) : Res := runWf .clonePageInstall s (fun s => s.background (fun s => s.clonePage))

/-- LENT_REGISTER (R280). -/
def execLentRegister (w : Who) (r : Fin 64) (s : State) : Res :=
  runWf (.lentRegister w r) s (fun s => s.write w (Obj.lentAction r) [1])

/-- LENT_WITHDRAW (R284). -/
def execLentWithdraw (w : Who) (r : Fin 64) (s : State) : Res :=
  runWf (.lentWithdraw w r) s (fun s => s.write w (Obj.lentAction r) [2])

/-- WITHDRAW_COMPLETE (R284). -/
def execWithdrawComplete (r : Fin 64) (s : State) : Res := runWf (.withdrawComplete r) s (fun s => s.withdrawDone r)

/-- EVACUATE (R285), on the slot that SLOT_SELECT names. -/
def execEvacuate (w : Who) (s : State) : Res := runWf (.evacuate w) s (fun s => s.write w Obj.slotAction [1])

/-- POWER_OFF (R290). -/
def execPowerOff (w : Who) (s : State) : Res := runWf (.powerOff w) s (fun s => s.write w Obj.slotAction [2])

/-- SLOT_OFF (R482). -/
def execSlotOff (slot : Fin 48) (s : State) : Res := runWf (.slotOff slot) s (fun s => s.slotOffDone slot)

/-- RETURN (R292). -/
def execReturn (w : Who) (spd : Option Spd) (powerOk trainOk : Bool) (s : State) : Res :=
  runWf (.return_ w spd powerOk trainOk) s (fun s => s.returnIn w spd powerOk trainOk)

/-- SLOT_FILL_COMPLETE (R293). -/
def execSlotFillComplete (slot : Fin 48) (s : State) : Res := runWf (.slotFillComplete slot) s (fun s => s.slotFilled slot)

/-- SLOT_CANCEL (R289). -/
def execSlotCancel (w : Who) (s : State) : Res := runWf (.slotCancel w) s (fun s => s.write w Obj.slotAction [4])

/-- NEAR_RESERVABLE_CAP_WRITE (R223). -/
def execNearReservableCapWrite (w : Who) (v : BitVec 32) (s : State) : Res :=
  runWf (.nearReservableCapWrite w v) s (fun s => s.write w Obj.nearReservableCap (leBytes 4 v.toNat))

end Sys2Proof.Machine
end

