-- ==== Sys2Proof/Machine/UpdRows.lean ====
section
/-! DEFINITION. The meanings of the commands of the in-service update (chapter 15). -/

namespace Sys2Proof.Machine

/-- START (R699). -/
def execStart (w : Who) (s : State) : Res := runWf (.start w) s (fun s => s.write w Obj.updAction [1])

/-- BLOCK (R700). -/
def execBlock (w : Who) (body : List Byte) (s : State) : Res := runWf (.block w body) s (fun s => s.write w Obj.updBlock body)

/-- BLOCK_WRITTEN (R701). -/
def execBlockWritten (s : State) : Res := runWf .blockWritten s (fun s => s.blockWritten)

/-- VERIFY (R707). -/
def execVerify (w : Who) (s : State) : Res := runWf (.verify w) s (fun s => s.write w Obj.updAction [2])

/-- VERIFY_COMPLETE (R707). -/
def execVerifyComplete (s : State) : Res := runWf .verifyComplete s (fun s => s.verifyDone)

/-- ACTIVATE (R711). -/
def execActivate (w : Who) (s : State) : Res := runWf (.activate w) s (fun s => s.write w Obj.updAction [3])

/-- ACTIVATION_COMPLETE (R711). -/
def execActivationComplete (s : State) : Res := runWf .activationComplete s (fun s => s.activated)

/-- CONFIRM (R721). -/
def execConfirm (w : Who) (s : State) : Res := runWf (.confirm w) s (fun s => s.write w Obj.updAction [4])

/-- ABORT (R725). -/
def execAbort (w : Who) (s : State) : Res := runWf (.abort w) s (fun s => s.write w Obj.updAction [5])

/-- ROLLBACK (R723). -/
def execRollback (w : Who) (s : State) : Res := runWf (.rollback w) s (fun s => s.write w Obj.updAction [6])

/-- TRIAL_DEADLINE_EXPIRY (R722). -/
def execTrialDeadlineExpiry (s : State) : Res := runWf .trialDeadlineExpiry s (fun s => s.trialExpired)

/-- ROLLBACK_COMPLETE (R723). -/
def execRollbackComplete (s : State) : Res := runWf .rollbackComplete s (fun s => s.rollbackDone)

/-- ROOT_SLOT_REVOKE (R694). -/
def execRootSlotRevoke (w : Who) (v : BitVec 8) (s : State) : Res :=
  runWf (.rootSlotRevoke w v) s (fun s => s.write w Obj.rootSlotRevoke (leBytes 1 v.toNat))

/-- RELAY_HEADER (R704). -/
def execRelayHeader (f : RelayFrame) (s : State) : Res := runWf (.relayHeader f) s (fun s => s.relayHeader f)

/-- RELAY_DATA (R704). -/
def execRelayData (f : RelayFrame) (s : State) : Res := runWf (.relayData f) s (fun s => s.relayData f)

/-- RELAY_ACK (R705). -/
def execRelayAck (f : RelayFrame) (s : State) : Res := runWf (.relayAck f) s (fun s => s.relayAcked f)

/-- RELAY_ACK_TIMEOUT (R705). -/
def execRelayAckTimeout (blk : BitVec 32) (s : State) : Res := runWf (.relayAckTimeout blk) s (fun s => s.relayTimeout blk.toNat)

/-- RELAY_ACK_TICK (R704). -/
def execRelayAckTick (s : State) : Res := runWf .relayAckTick s (fun s => s.relayTick)

end Sys2Proof.Machine
end

