-- ==== Sys2Proof/Machine/Dispatch.lean ====
section
/-! DEFINITION. The dispatch of the commands: one arm for each constructor of `Instr`. -/

namespace Sys2Proof.Machine

/-- A command's effect on everything but the queue. -/
def exec (i : Instr) (s : State) : Host.Outcome State Fault Refusal :=
  match i with
  | .flitReceived p f => Sys2Proof.Machine.execFlitReceived p f s
  | .replayReq p seq => Sys2Proof.Machine.execReplayReq p seq s
  | .degradeReq p half at_ => Sys2Proof.Machine.execDegradeReq p half at_ s
  | .degradeAck p at_ => Sys2Proof.Machine.execDegradeAck p at_ s
  | .upshiftReq p at_ => Sys2Proof.Machine.execUpshiftReq p at_ s
  | .upshiftAck p at_ => Sys2Proof.Machine.execUpshiftAck p at_ s
  | .widthSwitch p => Sys2Proof.Machine.execWidthSwitch p s
  | .param p x => Sys2Proof.Machine.execParam p x s
  | .resume p valid seq => Sys2Proof.Machine.execResume p valid seq s
  | .resetNotice p => Sys2Proof.Machine.execResetNotice p s
  | .controlRepeat p => Sys2Proof.Machine.execControlRepeat p s
  | .ackTimeout p => Sys2Proof.Machine.execAckTimeout p s
  | .degradeTimeout p => Sys2Proof.Machine.execDegradeTimeout p s
  | .laneSerCheck p counts => Sys2Proof.Machine.execLaneSerCheck p counts s
  | .upshiftSoakEnd p => Sys2Proof.Machine.execUpshiftSoakEnd p s
  | .laneDetect p lanes => Sys2Proof.Machine.execLaneDetect p lanes s
  | .trainingStart p => Sys2Proof.Machine.execTrainingStart p s
  | .trainingFailed p => Sys2Proof.Machine.execTrainingFailed p s
  | .creditCarrierTimeout p => Sys2Proof.Machine.execCreditCarrierTimeout p s
  | .messageStart p => Sys2Proof.Machine.execMessageStart p s
  | .rspHoldStart p => Sys2Proof.Machine.execRspHoldStart p s
  | .injectFlitCrc w p v => Sys2Proof.Machine.execInjectFlitCrc w p v s
  | .portEnableWrite w p v => Sys2Proof.Machine.execPortEnableWrite w p v s
  | .portWidthMaxWrite w p v => Sys2Proof.Machine.execPortWidthMaxWrite w p v s
  | .read h => Sys2Proof.Machine.execRead h s
  | .readExcl h => Sys2Proof.Machine.execReadExcl h s
  | .readOnce h => Sys2Proof.Machine.execReadOnce h s
  | .readHalf h => Sys2Proof.Machine.execReadHalf h s
  | .write h data => Sys2Proof.Machine.execWrite h data s
  | .writeMasked h mask data => Sys2Proof.Machine.execWriteMasked h mask data s
  | .writeback h data => Sys2Proof.Machine.execWriteback h data s
  | .releaseClean h => Sys2Proof.Machine.execReleaseClean h s
  | .fence h => Sys2Proof.Machine.execFence h s
  | .atomicAdd h a => Sys2Proof.Machine.execAtomicAdd h a s
  | .atomicCas h cmp swp => Sys2Proof.Machine.execAtomicCas h cmp swp s
  | .atomicFadd32 h a => Sys2Proof.Machine.execAtomicFadd32 h a s
  | .atomicBfadd h a => Sys2Proof.Machine.execAtomicBfadd h a s
  | .vecAccum h data => Sys2Proof.Machine.execVecAccum h data s
  | .bollardAdd h a => Sys2Proof.Machine.execBollardAdd h a s
  | .bollardSignal h a => Sys2Proof.Machine.execBollardSignal h a s
  | .bollardReset h a => Sys2Proof.Machine.execBollardReset h a s
  | .bollardWaitGe h a => Sys2Proof.Machine.execBollardWaitGe h a s
  | .bollardBarrierArrive h a => Sys2Proof.Machine.execBollardBarrierArrive h a s
  | .bollardCancel h a => Sys2Proof.Machine.execBollardCancel h a s
  | .snpAck m stag wbPending => Sys2Proof.Machine.execSnpAck m stag wbPending s
  | .snpData m stag data => Sys2Proof.Machine.execSnpData m stag data s
  | .requestGrant mismatch => Sys2Proof.Machine.execRequestGrant mismatch s
  | .transactionEnd line => Sys2Proof.Machine.execTransactionEnd line s
  | .channelAdmission c => Sys2Proof.Machine.execChannelAdmission c s
  | .controllerIssue c => Sys2Proof.Machine.execControllerIssue c s
  | .dramReadReturn c errs => Sys2Proof.Machine.execDramReadReturn c errs s
  | .lineStoreWritebackAccepted line => Sys2Proof.Machine.execLineStoreWritebackAccepted line s
  | .landingInstallComplete page blk => Sys2Proof.Machine.execLandingInstallComplete page blk s
  | .landingEviction page blk => Sys2Proof.Machine.execLandingEviction page blk s
  | .evictionAccepted page blk => Sys2Proof.Machine.execEvictionAccepted page blk s
  | .placementAccepted page => Sys2Proof.Machine.execPlacementAccepted page s
  | .farBayAvailable => Sys2Proof.Machine.execFarBayAvailable s
  | .jobDispatch => Sys2Proof.Machine.execJobDispatch s
  | .copyPassEnd page => Sys2Proof.Machine.execCopyPassEnd page s
  | .migrationSwitch page => Sys2Proof.Machine.execMigrationSwitch page s
  | .sourceRelease page => Sys2Proof.Machine.execSourceRelease page s
  | .sweeperVisit => Sys2Proof.Machine.execSweeperVisit s
  | .migOverloadMs => Sys2Proof.Machine.execMigOverloadMs s
  | .lentReadCompletion id good => Sys2Proof.Machine.execLentReadCompletion id good s
  | .lentReadTimeout id => Sys2Proof.Machine.execLentReadTimeout id s
  | .cloneStart w => Sys2Proof.Machine.execCloneStart w s
  | .clonePageInstall => Sys2Proof.Machine.execClonePageInstall s
  | .lentRegister w r => Sys2Proof.Machine.execLentRegister w r s
  | .lentWithdraw w r => Sys2Proof.Machine.execLentWithdraw w r s
  | .withdrawComplete r => Sys2Proof.Machine.execWithdrawComplete r s
  | .evacuate w => Sys2Proof.Machine.execEvacuate w s
  | .powerOff w => Sys2Proof.Machine.execPowerOff w s
  | .slotOff slot => Sys2Proof.Machine.execSlotOff slot s
  | .return_ w spd powerOk trainOk => Sys2Proof.Machine.execReturn w spd powerOk trainOk s
  | .slotFillComplete slot => Sys2Proof.Machine.execSlotFillComplete slot s
  | .slotCancel w => Sys2Proof.Machine.execSlotCancel w s
  | .nearReservableCapWrite w v => Sys2Proof.Machine.execNearReservableCapWrite w v s
  | .snoopTimeout m stag => Sys2Proof.Machine.execSnoopTimeout m stag s
  | .purgeEnd h => Sys2Proof.Machine.execPurgeEnd h s
  | .routeWrite w pod k v => Sys2Proof.Machine.execRouteWrite w pod k v s
  | .epGrantsWrite w v => Sys2Proof.Machine.execEpGrantsWrite w v s
  | .directorySweep => Sys2Proof.Machine.execDirectorySweep s
  | .dirFlipMask w v => Sys2Proof.Machine.execDirFlipMask w v s
  | .dirSplitWrite w v => Sys2Proof.Machine.execDirSplitWrite w v s
  | .bollardTimeout b src tag => Sys2Proof.Machine.execBollardTimeout b src tag s
  | .waiterDispatch => Sys2Proof.Machine.execWaiterDispatch s
  | .srSeedWrite w isMode v => Sys2Proof.Machine.execSrSeedWrite w isMode v s
  | .aluFlipMask w v => Sys2Proof.Machine.execAluFlipMask w v s
  | .bollardFlipMask w v => Sys2Proof.Machine.execBollardFlipMask w v s
  | .overdueSweep => Sys2Proof.Machine.execOverdueSweep s
  | .classCommit w => Sys2Proof.Machine.execClassCommit w s
  | .classDiscard w => Sys2Proof.Machine.execClassDiscard w s
  | .operatorCapWrite w v => Sys2Proof.Machine.execOperatorCapWrite w v s
  | .bankIdleTimeout c bank => Sys2Proof.Machine.execBankIdleTimeout c bank s
  | .refreshDue c => Sys2Proof.Machine.execRefreshDue c s
  | .rdWindowEnd m rank => Sys2Proof.Machine.execRdWindowEnd m rank s
  | .recalDue c => Sys2Proof.Machine.execRecalDue c s
  | .driftCheck m perMille => Sys2Proof.Machine.execDriftCheck m perMille s
  | .recalComplete c ok margin => Sys2Proof.Machine.execRecalComplete c ok margin s
  | .recalNow w u v => Sys2Proof.Machine.execRecalNow w u v s
  | .srEntry m => Sys2Proof.Machine.execSrEntry m s
  | .srExitComplete m => Sys2Proof.Machine.execSrExitComplete m s
  | .dimmTempPoll slot t => Sys2Proof.Machine.execDimmTempPoll slot t s
  | .trainingAttemptDone u ok => Sys2Proof.Machine.execTrainingAttemptDone u ok s
  | .splitWrite w u v => Sys2Proof.Machine.execSplitWrite w u v s
  | .scrubBurst k hits => Sys2Proof.Machine.execScrubBurst k hits s
  | .scrubPeriodEnd k complete => Sys2Proof.Machine.execScrubPeriodEnd k complete s
  | .remapInstallDone c entry => Sys2Proof.Machine.execRemapInstallDone c entry s
  | .softRepairDone c entry => Sys2Proof.Machine.execSoftRepairDone c entry s
  | .nearFillComplete => Sys2Proof.Machine.execNearFillComplete s
  | .farFillComplete => Sys2Proof.Machine.execFarFillComplete s
  | .realmEnable w r => Sys2Proof.Machine.execRealmEnable w r s
  | .realmDisable w r => Sys2Proof.Machine.execRealmDisable w r s
  | .keyReloadDone k r hubOk => Sys2Proof.Machine.execKeyReloadDone k r hubOk s
  | .eccFlipMask w v => Sys2Proof.Machine.execEccFlipMask w v s
  | .parityFlipPath w v => Sys2Proof.Machine.execParityFlipPath w v s
  | .selftestVector c ok => Sys2Proof.Machine.execSelftestVector c ok s
  | .selftestPeriodEnd => Sys2Proof.Machine.execSelftestPeriodEnd s
  | .configCompareSweep mismatch => Sys2Proof.Machine.execConfigCompareSweep mismatch s
  | .safetyAck w v => Sys2Proof.Machine.execSafetyAck w v s
  | .alertTest w v => Sys2Proof.Machine.execAlertTest w v s
  | .alertTestEnd => Sys2Proof.Machine.execAlertTestEnd s
  | .forceSafe w v => Sys2Proof.Machine.execForceSafe w v s
  | .memoryReadTlp t => Sys2Proof.Machine.execMemoryReadTlp t s
  | .memoryWriteTlp t be data => Sys2Proof.Machine.execMemoryWriteTlp t be data s
  | .fetchAddTlp t a => Sys2Proof.Machine.execFetchAddTlp t a s
  | .casTlp t cmp swp => Sys2Proof.Machine.execCasTlp t cmp swp s
  | .swapTlp t => Sys2Proof.Machine.execSwapTlp t s
  | .configRequest id op => Sys2Proof.Machine.execConfigRequest id op s
  | .invalidateRequest base len => Sys2Proof.Machine.execInvalidateRequest base len s
  | .invalidationComplete => Sys2Proof.Machine.execInvalidationComplete s
  | .atsTranslationComplete id ok => Sys2Proof.Machine.execAtsTranslationComplete id ok s
  | .dmaCompletion ch id ep => Sys2Proof.Machine.execDmaCompletion ch id ep s
  | .completionTimeout ch id => Sys2Proof.Machine.execCompletionTimeout ch id s
  | .functionLevelReset => Sys2Proof.Machine.execFunctionLevelReset s
  | .flrComplete => Sys2Proof.Machine.execFlrComplete s
  | .perstNAssert => Sys2Proof.Machine.execPerstNAssert s
  | .perstNDeassert => Sys2Proof.Machine.execPerstNDeassert s
  | .pcieLinkUp width rate => Sys2Proof.Machine.execPcieLinkUp width rate s
  | .snoopAnswer stag => Sys2Proof.Machine.execSnoopAnswer stag s
  | .sqHeadWrite v => Sys2Proof.Machine.execSqHeadWrite v s
  | .intxCauseWrite v => Sys2Proof.Machine.execIntxCauseWrite v s
  | .bar0BadAccess isWrite => Sys2Proof.Machine.execBar0BadAccess isWrite s
  | .dmaRestart w v => Sys2Proof.Machine.execDmaRestart w v s
  | .registerWrite r v => Sys2Proof.Machine.execRegisterWrite r v s
  | .ringEnable => Sys2Proof.Machine.execRingEnable s
  | .ringBindComplete => Sys2Proof.Machine.execRingBindComplete s
  | .ringOffer => Sys2Proof.Machine.execRingOffer s
  | .ringDisable => Sys2Proof.Machine.execRingDisable s
  | .cmdTailWrite v => Sys2Proof.Machine.execCmdTailWrite v s
  | .ringHeadWrite r v => Sys2Proof.Machine.execRingHeadWrite r v s
  | .shadowWrite => Sys2Proof.Machine.execShadowWrite s
  | .nop e => Sys2Proof.Machine.execNop e s
  | .ringDictRead e => Sys2Proof.Machine.execRingDictRead e s
  | .ringDictWrite e => Sys2Proof.Machine.execRingDictWrite e s
  | .backupLogDump e => Sys2Proof.Machine.execBackupLogDump e s
  | .updHeader e => Sys2Proof.Machine.execUpdHeader e s
  | .updBlock e => Sys2Proof.Machine.execUpdBlock e s
  | .updVerify e => Sys2Proof.Machine.execUpdVerify e s
  | .updActivate e => Sys2Proof.Machine.execUpdActivate e s
  | .updConfirm e => Sys2Proof.Machine.execUpdConfirm e s
  | .updAbort e => Sys2Proof.Machine.execUpdAbort e s
  | .updRollback e => Sys2Proof.Machine.execUpdRollback e s
  | .watchdogExpiry c => Sys2Proof.Machine.execWatchdogExpiry c s
  | .watchdogKick c => Sys2Proof.Machine.execWatchdogKick c s
  | .lockstepMismatch c => Sys2Proof.Machine.execLockstepMismatch c s
  | .fetchFault c => Sys2Proof.Machine.execFetchFault c s
  | .unhandledTrap c => Sys2Proof.Machine.execUnhandledTrap c s
  | .coreRestartDone c digestOk => Sys2Proof.Machine.execCoreRestartDone c digestOk s
  | .coreRestart w v => Sys2Proof.Machine.execCoreRestart w v s
  | .lockstepInject w v => Sys2Proof.Machine.execLockstepInject w v s
  | .corePLoop x => Sys2Proof.Machine.execCorePLoop x s
  | .aonJunctionCheck tj => Sys2Proof.Machine.execAonJunctionCheck tj s
  | .bootComplete x => Sys2Proof.Machine.execBootComplete x s
  | .backupLogClear w v => Sys2Proof.Machine.execBackupLogClear w v s
  | .dictRead h => Sys2Proof.Machine.execDictRead h s
  | .dictWrite h value => Sys2Proof.Machine.execDictWrite h value s
  | .open_ w auth => Sys2Proof.Machine.execOpen w auth s
  | .prove w value => Sys2Proof.Machine.execProve w value s
  | .close w => Sys2Proof.Machine.execClose w s
  | .describe w => Sys2Proof.Machine.execDescribe w s
  | .sessionIdleTimeout path session => Sys2Proof.Machine.execSessionIdleTimeout path session s
  | .pendingSessionTimeout path session => Sys2Proof.Machine.execPendingSessionTimeout path session s
  | .assemblyTimeout path session => Sys2Proof.Machine.execAssemblyTimeout path session s
  | .authLockoutEnd path auth => Sys2Proof.Machine.execAuthLockoutEnd path auth s
  | .changeRecordComplete index sub => Sys2Proof.Machine.execChangeRecordComplete index sub s
  | .configReset w v => Sys2Proof.Machine.execConfigReset w v s
  | .noticeAck w index v => Sys2Proof.Machine.execNoticeAck w index v s
  | .neighborSolicitation peer target => Sys2Proof.Machine.execNeighborSolicitation peer target s
  | .echoRequest peer data => Sys2Proof.Machine.execEchoRequest peer data s
  | .t1sDiscard => Sys2Proof.Machine.execT1sDiscard s
  | .regionCommit w k => Sys2Proof.Machine.execRegionCommit w k s
  | .commitComplete k => Sys2Proof.Machine.execCommitComplete k s
  | .regionSeal w k => Sys2Proof.Machine.execRegionSeal w k s
  | .ingestValidation k => Sys2Proof.Machine.execIngestValidation k s
  | .sealingComplete k => Sys2Proof.Machine.execSealingComplete k s
  | .regionRetire w k => Sys2Proof.Machine.execRegionRetire w k s
  | .retirementComplete k => Sys2Proof.Machine.execRetirementComplete k s
  | .regionDiscard w k => Sys2Proof.Machine.execRegionDiscard w k s
  | .sessionOpen w n => Sys2Proof.Machine.execSessionOpen w n s
  | .sessionResize w n => Sys2Proof.Machine.execSessionResize w n s
  | .sessionClose w n => Sys2Proof.Machine.execSessionClose w n s
  | .retable w k => Sys2Proof.Machine.execRetable w k s
  | .retableComplete => Sys2Proof.Machine.execRetableComplete s
  | .codecFlipMask w v => Sys2Proof.Machine.execCodecFlipMask w v s
  | .start w => Sys2Proof.Machine.execStart w s
  | .block w body => Sys2Proof.Machine.execBlock w body s
  | .blockWritten => Sys2Proof.Machine.execBlockWritten s
  | .verify w => Sys2Proof.Machine.execVerify w s
  | .verifyComplete => Sys2Proof.Machine.execVerifyComplete s
  | .activate w => Sys2Proof.Machine.execActivate w s
  | .activationComplete => Sys2Proof.Machine.execActivationComplete s
  | .confirm w => Sys2Proof.Machine.execConfirm w s
  | .abort w => Sys2Proof.Machine.execAbort w s
  | .rollback w => Sys2Proof.Machine.execRollback w s
  | .trialDeadlineExpiry => Sys2Proof.Machine.execTrialDeadlineExpiry s
  | .rollbackComplete => Sys2Proof.Machine.execRollbackComplete s
  | .rootSlotRevoke w v => Sys2Proof.Machine.execRootSlotRevoke w v s
  | .relayHeader f => Sys2Proof.Machine.execRelayHeader f s
  | .relayData f => Sys2Proof.Machine.execRelayData f s
  | .relayAck f => Sys2Proof.Machine.execRelayAck f s
  | .relayAckTimeout blk => Sys2Proof.Machine.execRelayAckTimeout blk s
  | .relayAckTick => Sys2Proof.Machine.execRelayAckTick s
  | .powerOn => Sys2Proof.Machine.execPowerOn s
  | .resetN => Sys2Proof.Machine.execResetN s
  | .deviceReset w v => Sys2Proof.Machine.execDeviceReset w v s
  | .commandReset => Sys2Proof.Machine.execCommandReset s
  | .pwrgoodFall => Sys2Proof.Machine.execPwrgoodFall s
  | .railFault rail => Sys2Proof.Machine.execRailFault rail s
  | .clockLoss => Sys2Proof.Machine.execClockLoss s
  | .resetRelease straps => Sys2Proof.Machine.execResetRelease straps s
  | .leaveInit => Sys2Proof.Machine.execLeaveInit s
  | .memholdActive => Sys2Proof.Machine.execMemholdActive s
  | .holdEntryComplete => Sys2Proof.Machine.execHoldEntryComplete s
  | .holdReminder => Sys2Proof.Machine.execHoldReminder s
  | .memholdInactive => Sys2Proof.Machine.execMemholdInactive s
  | .holdExitComplete => Sys2Proof.Machine.execHoldExitComplete s
  | .tamperActive => Sys2Proof.Machine.execTamperActive s
  | .pinChatterAck w v => Sys2Proof.Machine.execPinChatterAck w v s
  | .mainPowerLoss => Sys2Proof.Machine.execMainPowerLoss s
  | .vbatLoss => Sys2Proof.Machine.execVbatLoss s
  | .backupSample mv temp tamper => Sys2Proof.Machine.execBackupSample mv temp tamper s
  | .backupAlarmAck w v => Sys2Proof.Machine.execBackupAlarmAck w v s
  | .cntSnapshot w v => Sys2Proof.Machine.execCntSnapshot w v s
  | .cntClear w all j v => Sys2Proof.Machine.execCntClear w all j v s
  | .counterConfigWrite w j isFilter v => Sys2Proof.Machine.execCounterConfigWrite w j isFilter v s
  | .tpControlWrite w pt v => Sys2Proof.Machine.execTpControlWrite w pt v s
  | .traceModeWrite w v => Sys2Proof.Machine.execTraceModeWrite w v s
  | .traceRead w => Sys2Proof.Machine.execTraceRead w s
  | .streamEnableWrite w v => Sys2Proof.Machine.execStreamEnableWrite w v s
  | .streamHeadWrite w v => Sys2Proof.Machine.execStreamHeadWrite w v s
  | .streamWrite => Sys2Proof.Machine.execStreamWrite s
  | .laneLockLost p lane => Sys2Proof.Machine.execLaneLockLost p lane s
  | .pcieLinkDown => Sys2Proof.Machine.execPcieLinkDown s
  | .endpointReady => Sys2Proof.Machine.execEndpointReady s
  | .vbatReturn => Sys2Proof.Machine.execVbatReturn s
  | .mainRailsRise => Sys2Proof.Machine.execMainRailsRise s
  | .tamperInactive => Sys2Proof.Machine.execTamperInactive s
  | .sealTableBuilt k => Sys2Proof.Machine.execSealTableBuilt k s
  | .t1sLinkChange st => Sys2Proof.Machine.execT1sLinkChange st s

end Sys2Proof.Machine
end

