-- ==== Sys2Proof/Machine/Tick.lean ====
section
/-! DEFINITION. What one cycle of the 2 GHz clock does when no command waits (log 1). -/

namespace Sys2Proof.Machine

namespace State

/-- What a step does with an empty queue. -/
def tick (s : State) : State := s.ran cycle

end State

end Sys2Proof.Machine
end

