-- ==== Sys2Proof/Safety.lean ====
section
/-! DEFINITION. What counts as a safe step, when nothing follows a command's own effect in the same step, and which dictionary
writes are admitted. -/

namespace Sys2Proof

/-- A step from `s` is safe when it answers a next state: neither a fault nor a refusal. -/
def SafeStep (s : Machine.State) : Prop := ∃ t, Machine.step s = .next t

/-- The notices and counts that follow the state have followed it: near bays, capacity ebbing, backing records and slots. -/
def Machine.State.noted (s : State) : Bool :=
  s.num Obj.nearFreeLevel == s.nearFree && s.ebbOn == s.tide.ebbing
    && s.num Obj.dirRecordsUsed == (s.dir.ents.filter (fun e => !e.2.cached)).length
    && s.num (okey 0x7042 1) == s.slots.length * 1000 / 65536

/-- Nothing that an earlier cycle decided is due: no injected mismatch, no HOLD and no TAMPER reset. -/
def Machine.State.punctual (s : State) : Bool :=
  s.mgmt.inject.isEmpty && (s.mgmt.power.tampDue == 0 || decide (s.aonCycle < s.mgmt.power.tampDue))
    && (s.mgmt.power.holdDue == 0 || decide (s.aonCycle < s.mgmt.power.holdDue))

/-- Nothing in the state can go on by itself: no request is held, no completion, doorbell, snoop, lent read, recalibration or
interrupt is on its way, no ring is ACTIVE, no message can start, nothing is due, and every notice has followed. -/
def Machine.State.quiet (s : State) : Bool :=
  s.punctual && s.noted && s.path.reqs.isEmpty && s.path.work.isEmpty && s.path.store.isEmpty && s.path.epDone.isEmpty && s.mgmt.ring.bells.isEmpty
    && s.mgmt.ring.st != 3 && s.dir.snoops.isEmpty && s.tide.lentRds.isEmpty && s.dram.chans.all (fun e => !e.2.recalDue)
    && s.aon.irqs.isEmpty && (List.finRange 16).all (fun p => s.ports[p].stalled || s.ports[p].ready.isEmpty || !sends s.ports[p])

namespace Machine

/-- The command's own effect leaves `u`: it answers the next state that `u` and what follows it in the same step give. -/
def Leaves (c : Instr) (s u : State) : Prop := exec c s = .next (s.ran (fun _ => u))

/-- The parts of the state. -/
inductive Part where
  | queue | dev | objs | ports | path | dir | tide | dram | ctl | ep | aon | mgmt | flash | out
  deriving DecidableEq, Repr

/-- A part is in `u` as in `s`. -/
def Part.same (s u : State) : Part → Prop
  | .queue => u.pending = s.pending
  | .dev => u.dev = s.dev
  | .objs => u.objs = s.objs
  | .ports => u.ports = s.ports
  | .path => u.path = s.path
  | .dir => u.dir = s.dir
  | .tide => u.tide = s.tide
  | .dram => u.dram = s.dram
  | .ctl => u.ctl = s.ctl
  | .ep => u.ep = s.ep
  | .aon => u.aon = s.aon
  | .mgmt => u.mgmt = s.mgmt
  | .flash => u.flash = s.flash
  | .out => u.out = s.out

/-- Every part of the state but the listed ones is in `u` as in `s`. -/
def State.changesOnly (s u : State) (ps : List Part) : Prop := ∀ x, x ∉ ps → x.same s u

/-- Every other port is in `u` as in `s`. -/
def State.onlyPort (s u : State) (p : Fin 16) : Prop := ∀ q : Fin 16, q ≠ p → u.ports[q] = s.ports[q]

/-- An output of `u` that `s` has not. -/
def State.sent (s u : State) (o : Out) : Prop := ∃ xs ys, u.out = s.out ++ xs ++ o :: ys

end Machine

namespace Machine.State

/-- The objects that a report itself may count in: events and log entries dropped, and the trace buffer's. -/
def reportObj (k : Nat) : Bool :=
  k == Obj.eventsDropped || k == Obj.logDropped || k == Obj.traceSeq || k == Obj.traceDrops

/-- The state in which Core L checks a request's authority: the request is counted. -/
def counted (s : State) (w : Who) : State :=
  let s : State := if w.path = .window ∧ w.peer ≠ 0 then s else s.bump (Obj.requests (pathNum w.path - 1))
  if w.path = .t1s then s.bump Obj.t1sFramesRx else s

/-- The state in which an admitted request is performed: it is counted, and its session is touched (R677, R679). -/
def taken (s : State) (w : Who) : State :=
  (s.counted w).updSess w (fun x => { taking x w.reqId with since := s.dev.now })

/-- Whether a WRITE of a T1S node or of the host's window reaches its object (R655–R658, R670): Core L runs and serves, the
authority suffices, and no lock forbids it. -/
def served (s : State) (w : Who) (key : Nat) (r : ORow) (v : List Byte) : Bool :=
  s.dev.state != .off && s.dev.state != .backup && s.dev.state != .reset && s.dev.state != .safe && !s.mgmt.power.boot
    && s.coreRuns 2 && (match w.path with | .link _ => false | .window => w.peer == 0 && !s.mgmt.dict.winBusy | .t1s => true)
    && (match (s.counted w).authOf (askWrite w key v) with | .ok a => decide (r.wa ≤ a ∧ (s.num Obj.ownerLock ≠ 1 ∨ r.store = false ∨ 3 ≤ a)) | _ => false)
    && r.acc != .ro && r.acc != .const && !(r.acc == .rwl && s.groupLocked (key / 256))

/-- Whether a value of fixed length reaches its object and has the object's form and range (R645, R662). -/
def admits (s : State) (w : Who) (key : Nat) (r : ORow) (v : List Byte) : Bool :=
  s.served w key r v && r.ty.bytes.isSome && formOk key r v && rangeOk r v

/-- Core L takes a request of a T1S node or of the host's window (R655, R669). -/
def listens (s : State) (w : Who) : Bool :=
  s.dev.state != .off && s.dev.state != .backup && s.dev.state != .reset && !s.mgmt.power.boot && s.coreRuns 2
    && (match w.path with | .link _ => false | .window => w.peer == 0 && !s.mgmt.dict.winBusy | .t1s => true)

/-- The one output is the reply to a request: its body, and a TAG where its session has one. -/
def replies (s u : State) (w : Who) (op : Nat) (st : Status) (ty : Nat) (val : List Byte) (total : Nat) : Prop :=
  ∃ tag, u.out = s.out ++ [.dictReply (pathNum w.path) w.peer (replyBody op w.reqId.toNat st 0 ty 0 val total ++ tag)]

/-- What an admitted write answers: at once with success, the object's change record due and the reply sent. -/
def granted (s : State) (w : Who) (key : Nat) (r : ORow) (v : List Byte) : State :=
  (s.change key r v).reply w 2 .ok 0 r.ty.code 0 [] 0 false

/-- A write reaches its object: its row is in the tables, and nothing turns it away. -/
def allows (s : State) (w : Who) (key : Nat) (v : List Byte) : Prop :=
  ∃ r, objRow (key / 256) (key % 256) = some r ∧ s.admits w key r v = true

/-- The counters of the dictionary server, which every request moves. -/
def askObj (k : Nat) : Bool := k / 256 == 0x1104 || k == Obj.t1sFramesRx || k == Obj.t1sFramesTx

/-- The same for a whole value of an object without a fixed length (R662). -/
def allowsBlob (s : State) (w : Who) (key : Nat) (v : List Byte) : Prop :=
  ∃ r, objRow (key / 256) (key % 256) = some r ∧ s.served w key r v = true ∧ r.ty.bytes = none ∧ formOk key r v = true ∧ rangeOk r v = true

/-- No stored number is other than before, but the listed ones and the dictionary server's counters. -/
def keepsObjs (s u : State) (ks : List Nat) : Prop := ∀ k, k ∉ ks → askObj k = false → u.num k = s.num k

/-- The outputs are what `s` sent, then some others, then the reply with a status to a write. -/
def replied (s u : State) (w : Who) (st : Status) (evs : List Out) : Prop :=
  ∃ hint ty tail, u.out = s.out ++ evs ++ [.dictReply (pathNum w.path) w.peer (replyBody 2 w.reqId.toNat st hint ty 0 [] 0 ++ tail)]

/-- The write `c` of a value to an object of numbers: it is stored and answered OK, and nothing else changes. -/
def stores (s : State) (c : Instr) (w : Who) (key : Nat) (v : List Byte) (n : Nat) : Prop :=
  s.allows w key v → ∃ u, Leaves c s u ∧ u.num key = n ∧ s.keepsObjs u [key] ∧ s.changesOnly u [.objs, .mgmt, .out]
    ∧ u.mgmt = { s.mgmt with dict := u.mgmt.dict } ∧ s.replied u w .ok []

/-- The write `c` of a value, where it reaches its object, is answered OK after the outputs `evs`: only the listed parts change, and
`P` holds of what it leaves. -/
def obeys (s : State) (c : Instr) (w : Who) (key : Nat) (v : List Byte) (evs : List Out) (ps : List Part) (P : State → Prop) : Prop :=
  s.allows w key v → ∃ u, Leaves c s u ∧ P u ∧ s.changesOnly u ps ∧ s.replied u w .ok evs

/-- The write `c` of a value, where it reaches its object, begins an action whose reply follows later (R659). -/
def begins (s : State) (c : Instr) (w : Who) (key : Nat) (v : List Byte) (evs : List Out) (ps : List Part) (P : State → Prop) : Prop :=
  s.allows w key v → ∃ u, Leaves c s u ∧ P u ∧ s.changesOnly u ps ∧ u.out = s.out ++ evs

/-- The write `c` of a value, where it reaches its object, is answered OK after some outputs. -/
def acts (s : State) (c : Instr) (w : Who) (key : Nat) (v : List Byte) (ps : List Part) (P : State → Prop) : Prop :=
  s.allows w key v → ∃ u evs, Leaves c s u ∧ P u ∧ s.changesOnly u ps ∧ s.replied u w .ok evs

/-! ## Requests of a port -/

/-- A request that a port forms and that steps 1 to 3 let through in this cycle: the port is UP and within its credits, the tag is
free, the entry checks hold, no other request is held, no migration job runs, H2 has not arbitrated yet, and its class has a slot and
either tokens or the cap's bytes. -/
def alone (s : State) (p : Fin 16) (h : Hdr) (op : ReqOp) : Bool :=
  h.src == .port p && h.node.isSome == s.ports[p].relay && s.ports[p].state == .up && !s.ports[p].rspHold
    && (match h.node with | some n => n.scope == 0 | none => true) && decide (unitsOut s.ports[p] .req + op.units h ≤ advertised .req) && !s.tagHeld p h.tag && (s.entryStatus h op).isNone
    && s.num Obj.parityFlipPath == 0 && s.path.reqs.isEmpty && s.path.work.isEmpty && s.tide.jobs.isEmpty
    && s.ctl.water.ranAt != s.dev.now + 1 && s.canTake (s.slots ++ s.freedSlots) h.cls.toNat
    && decide (s.dev.now < s.ctl.water.filled)
    && (decide (0 < s.ctl.water.cap) || s.green (s.newReq s.dev.serial h op 0 .link))

/-- Step 4 lets a line request through under the mode set `m` (R142). -/
def reaches (s : State) (p : Fin 16) (h : Hdr) (op : ReqOp) (m : Mode) : Prop :=
  s.alone p h op = true ∧ addrView h.addr = 0 ∧ s.resolve (s.newReq s.dev.serial h op 0 .link) = .inr m

/-- A metadata granule whose records read back as they were written, without a correction. -/
def pristine (s : State) (k : Nat) : Bool := s.gmeta k == GMeta.clean

/-- A line's bucket reads back in both copies. -/
def bucketSound (s : State) (l : Nat) : Bool :=
  let b := bucketOf l
  !s.unitFenced (b % 8) && !s.unitFenced ((b + 4) % 8)
    && (List.range 4).all (fun g => s.pristine (bucketKey b false g) && s.pristine (bucketKey b true g))

/-- Nothing runs on a line and its page: no purge, no transaction, equal copies of its entry, no fence, no placement, no clone; and what a
lookup of the line or of its page reads is sound. -/
def calm (s : State) (l : Nat) : Bool :=
  s.dir.purges.isEmpty && (s.txn l).isNone && FMap.find 0 s.dir.badA l == FMap.find 0 s.dir.badB l && !s.lineFenced l && !s.aluFenced
    && s.bucketSound l && !s.tide.placing.contains (l / 512) && s.tide.clone.isNone && !(s.entry (l / 512)).bad && !s.stripeFaulted (l / 512)
    && (s.tide.mapCache.contains (l / 512) || s.pristine (mapKey (l / 512)))

/-- A page whose one copy is raw and lies in DRAM that is not fenced. -/
def rawPage (s : State) (pg : Nat) : Bool :=
  let a := (s.entry pg).a
  (s.entry pg).pstate == .resident && (s.entry pg).role == .none && (a.tier == 1 || a.tier == 2) && !a.comp && !s.copyFenced a

/-- The line's set in the directory cache has a free way. -/
def wayFree (s : State) (l : Nat) : Bool := decide ((s.dir.ents.filter (fun e => e.2.cached && setOf e.1 == setOf l)).length < 16)

/-- A request's completion is staged at its port, after what waits there. -/
def completes (s u : State) (p : Fin 16) (h : Hdr) (c : Cpl) (line : Option Nat) : Prop :=
  u.ports[p].ready = s.ports[p].ready ++ [c.msg .rsp h.tag line (some (h.cls.toNat, false))]

/-- A response of n units comes within a port's credits. -/
def takesRsp (s : State) (p : Fin 16) (n : Nat) : Bool :=
  s.ports[p].state == .up && decide (unitsOut s.ports[p] .rsp + n ≤ advertised .rsp)

/-- A write of one granule of a request waits at its channel (R34). -/
def writeWaits (s : State) (id : Nat) (w : GW) : Prop :=
  ∃ a ∈ (s.chan (chanOf w.key)).wait, a.write = true ∧ a.owner = some id ∧ w ∈ a.wr

/-! ## The host -/

/-- The line request that a TLP of one line forms (R571). -/
def tlpReq (s : State) (a : Nat) (op : ReqOp) (attr : BitVec 8) : Req :=
  s.newReq (s.dev.serial + 1) ⟨.ep, 0, 0, 0, false, attr, BitVec.ofNat 64 a, none⟩ op 0 (.tlp s.dev.serial 0)

/-- That request is let through by steps 1 to 4 in this cycle, under the mode set `m`: the endpoint decodes memory TLPs, nothing else is
in flight, H2 has not arbitrated yet, and the class has a slot and either tokens or the cap's bytes. -/
def tlpReaches (s : State) (a : Nat) (op : ReqOp) (attr : BitVec 8) (m : Mode) : Prop :=
  let r := s.tlpReq a op attr
  s.decodes = true ∧ (s.entryStatus r.hdr op).isNone = true ∧ s.num Obj.parityFlipPath = 0 ∧ s.path.reqs = [] ∧ s.path.work = []
    ∧ s.path.epDone = [] ∧ s.tide.jobs = [] ∧ s.ctl.water.ranAt ≠ s.dev.now + 1 ∧ s.canTake (s.slots ++ s.freedSlots) r.cls = true ∧ s.dev.now < s.ctl.water.filled
    ∧ (0 < s.ctl.water.cap ∨ s.green r = true) ∧ addrView r.hdr.addr = 0 ∧ s.resolve r = .inr m
    ∧ ∀ x ∈ s.ep.tlps, x.serial ≠ s.dev.serial

/-- The doorbell that `c` writes waits for earlier write TLPs; with none in flight and no other doorbell waiting, its effect `P` is next
(R620). -/
def rings (s : State) (c : Instr) (b : Bell) (P : State → Prop) : Prop :=
  s.decodes = true → ∃ u, Leaves c s u ∧ s.changesOnly u [.mgmt]
    ∧ u.mgmt = { s.mgmt with ring := { s.mgmt.ring with bells := s.mgmt.ring.bells ++ [(s.writesInFlight, b)] } }
    ∧ (s.mgmt.ring.bells = [] → s.writesInFlight = [] → P (State.pumpBells 1 u))

end Machine.State

end Sys2Proof
end

