-- ==== Sys2Proof/Certificates/Slice0/Obligations.lean ====
section
/-! DEFINITION. The statements for the provers. -/

open Sys2Proof Sys2Proof.Machine

/-! ## Every step -/

/-- A step runs the command at the front of the queue on the state with the queue's rest. -/
def Obligations.StepRunsTheFrontCommand : Prop :=
  ∀ (s : State) (c : Instr) (rest : List Instr), step { s with pending := c :: rest } = exec c { s with pending := rest }

/-- With an empty queue one cycle of the clock passes (the model's choice, log 1). -/
def Obligations.EmptyQueueTicks : Prop :=
  ∀ s : State, s.pending = [] → step s = .next s.tick ∧ s.tick.pending = []

/-- Every well-formed command answers a next state and leaves the queue; every other command stops as ill-formed. -/
def Obligations.WellFormedCommandsComplete : Prop :=
  ∀ (c : Instr) (s : State),
    (WellFormed c = true → ∃ t, exec c s = .next t ∧ t.pending = s.pending)
    ∧ (WellFormed c = false → exec c s = .fault .illFormed)

/-- Memory in canonical form: every step keeps it, from every state that has it. -/
def Obligations.StepsKeepMemoryCanonical : Prop :=
  ∀ s t : State, s.memWf = true → step s = .next t → t.memWf = true

/-- Reset's memory has the canonical form and reads as zeros without poison. -/
def Obligations.ResetMemoryCanonical : Prop :=
  State.reset.memWf = true ∧ ∀ a, State.reset.memByte a = 0 ∧ State.reset.gmeta a = GMeta.clean

/-- A quiet state has nothing that follows in the same step: the command's own effect, and the IDLE flits that are due (R47, R56), are
the whole step. -/
def Obligations.QuietEffectIsTheStep : Prop :=
  ∀ (c : Instr) (s u : State), Leaves c s u → u.quiet = true → u.memWf = true → u.pending = s.pending → exec c s = .next (u.idles s.out.length)

/-! ## Links -/

/-- A PAYLOAD flit of pad units that is accepted is applied, its SEQ, ACK and credits and nothing else (R52, R55, R59, R74); one that cannot be
accepted is asked for again (R52, R87), and further PAYLOAD flits wait for the replay. -/
def Obligations.FlitsAreAppliedOrAskedFor : Prop :=
  (∀ (s : State) (p : Fin 16) (f : Flit), s.ports[p].state = .up → f.sound = true → f.kind = 0 → f.seq = s.ports[p].rxLast + 1 →
    s.ports[p].rxPart = [] → f.units = List.replicate 31 0 →
    Leaves (.flitReceived p f) s (s.updPort p (fun x => { State.addCredit x s.dev.now (VC.ofCode f.cvc.toNat) f.ccnt.toNat with
      rxLast := f.seq, retry := freeThrough f.ack x.retry
      replayWait := false, replayFails := 0, replayLane := none, ctrl := x.ctrl.filter (fun c => !c.isReplay), rxPart := [] })))
  ∧ (∀ (s : State) (p : Fin 16) (f : Flit), f.units.length = 31 → s.ports[p].state = .up →
    (f.sound = false ∨ (f.kind = 0 ∧ f.seq ≠ s.ports[p].rxLast + 1 ∧ s.ports[p].replayWait = false)) →
    s.ports[p].replayFails + 1 < s.num (Obj.replayEscCount p) →
    ∃ u, Leaves (.flitReceived p f) s u ∧ s.changesOnly u [.objs, .ports, .out] ∧ s.onlyPort u p
      ∧ u.ports[p].rxLast = s.ports[p].rxLast ∧ u.ports[p].retry = s.ports[p].retry ∧ u.ports[p].rxPart = s.ports[p].rxPart
      ∧ u.ports[p].replayWait = true ∧ u.out = s.out ++ [s.ctlOut p (.replayReq (s.ports[p].rxLast + 1))]
      ∧ u.num (Obj.replayCount p) = s.num (Obj.replayCount p) + 1)
  ∧ (∀ (s : State) (p : Fin 16) (f : Flit), f.units.length = 31 → s.ports[p].state = .up → f.sound = true → f.kind = 0 →
    f.seq ≠ s.ports[p].rxLast + 1 → s.ports[p].replayWait = true → Leaves (.flitReceived p f) s s)

/-- A replayed flit carries its original SEQ, payload, CVC and CCNT, with a current ACK (R88). -/
def Obligations.ReplayRepeatsHeldFlits : Prop :=
  ∀ (s : State) (p : Fin 16) (seq : BitVec 10) (f : SentFlit) (fs : List SentFlit), s.ports[p].state = .up →
    freeThrough (seq - 1) s.ports[p].retry = f :: fs → f.seq = seq → s.ports[p].inject = 0 →
    ∃ u, Leaves (.replayReq p seq) s u ∧ s.changesOnly u [.objs, .ports, .mgmt, .out] ∧ s.onlyPort u p
      ∧ u.mgmt = { s.mgmt with gauge := u.mgmt.gauge } ∧ u.ports[p].retry = f :: fs ∧ u.num (Obj.replayCount p) = s.num (Obj.replayCount p) + 1
      ∧ u.out = s.out ++ (f :: fs).map (fun g => .flit p 0 g.seq s.ports[p].rxLast g.cvc g.ccnt g.units false)

/-- The width handshakes (R89, R90, R411): each request is answered at its codeword, each answer is taken, and the switch
changes the lanes in use and nothing that is in flight. -/
def Obligations.WidthHandshakes : Prop :=
  ∀ (s : State) (p : Fin 16) (h : Half) (a : BitVec 12), s.ports[p].state = .up →
    (s.ports[p].width = 16 →
      ∃ u, Leaves (.degradeReq p h a) s u ∧ s.changesOnly u [.objs, .ports, .out] ∧ s.onlyPort u p
        ∧ u.ports[p].switchAt = some (a, some h) ∧ u.ports[p].width = 16 ∧ u.out = s.out ++ [s.ctlOut p (.degradeAck a)]
        ∧ u.num (Obj.degradeCount p) = s.num (Obj.degradeCount p) + 1)
    ∧ (s.ports[p].ctrl.findSome? (Ctl.degradeAt a) = some h →
      ∃ u, Leaves (.degradeAck p a) s u ∧ s.changesOnly u [.ports] ∧ s.onlyPort u p ∧ u.ports[p].switchAt = some (a, some h)
        ∧ u.ports[p].ctrl = s.ports[p].ctrl.filter (fun c => !(c.degradeAt a).isSome) ∧ u.ports[p].retry = s.ports[p].retry)
    ∧ (s.ports[p].width = 8 → s.num (Obj.portWidthMax p) = 16 →
      ∃ u, Leaves (.upshiftReq p a) s u ∧ s.changesOnly u [.ports, .out] ∧ s.onlyPort u p
        ∧ u.ports[p].switchAt = some (a, none) ∧ u.ports[p].width = 8 ∧ u.out = s.out ++ [s.ctlOut p (.upshiftAck a)])
    ∧ (s.ports[p].ctrl.any (Ctl.isUpshift a) = true →
      ∃ u, Leaves (.upshiftAck p a) s u ∧ s.changesOnly u [.ports] ∧ s.onlyPort u p ∧ u.ports[p].switchAt = some (a, none)
        ∧ u.ports[p].ctrl = s.ports[p].ctrl.filter (fun c => !Ctl.isUpshift a c) ∧ u.ports[p].retry = s.ports[p].retry)
    ∧ (∀ t : Option Half, s.ports[p].switchAt = some (a, t) →
      ∃ u, Leaves (.widthSwitch p) s u ∧ s.changesOnly u [.objs, .ports, .aon, .mgmt, .out] ∧ s.onlyPort u p
        ∧ u.ports[p].switchAt = none ∧ u.ports[p].width = (if t.isSome then 8 else 16) ∧ u.ports[p].half = t.getD .low
        ∧ u.ports[p].retry = s.ports[p].retry ∧ u.ports[p].ready = s.ports[p].ready ∧ u.ports[p].rxPart = s.ports[p].rxPart
        ∧ s.sent u (.event (if t.isSome then 0x1020 else 0x1021) p))

/-- Training (R71, R72, R78–R81, R91–R95): PARAM brings the port UP on the clean lanes with the credits that the partner
advertises or fails the attempt, RESUME ends a reset resumed or fresh, and RESET_NOTICE resets the port with
cause 6 and takes back the lower rungs of its cycle (R86). -/
def Obligations.TrainingAndResets : Prop :=
  (∀ (s : State) (p : Fin 16), s.portsLive = true → s.ports[p].state = .down → s.ports[p].fence ≠ .checker →
    ∃ u, Leaves (.trainingStart p) s u ∧ Leaves (.laneDetect p true) s u ∧ s.changesOnly u [.ports, .out] ∧ s.onlyPort u p
      ∧ u.ports[p].state = .training ∧ u.ports[p].ctrl = [s.ownParam p] ∧ u.out = s.out ++ [s.ctlOut p (s.ownParam p)])
  ∧ (∀ (s : State) (p : Fin 16), s.ports[p].state = .training → s.ports[p].fence ≠ .checker →
    ∃ u, Leaves (.laneDetect p false) s u ∧ s.changesOnly u [.ports] ∧ s.onlyPort u p ∧ u.ports[p].state = .down)
  ∧ (∀ (s : State) (p : Fin 16), s.ports[p].state = .training → s.ports[p].fence ≠ .checker →
      s.ports[p].attempts + 1 < s.num (Obj.retrainAttempts p) →
    ∃ u, Leaves (.trainingFailed p) s u ∧ s.changesOnly u [.objs, .ports, .aon, .mgmt, .out] ∧ s.onlyPort u p
      ∧ u.ports[p].state = .training ∧ u.ports[p].attempts = s.ports[p].attempts + 1 ∧ u.out = s.out ++ [.event 0x1003 p])
  ∧ (∀ (s : State) (p : Fin 16) (m : ParamMsg), s.ports[p].state = .training → s.ports[p].fence = .none → s.ports[p].inReset = false →
      17 ≤ m.advRsp → (if m.features.getLsbD 0 then 3 else 2) ≤ m.advSnp → 194 ≤ m.advMgmt → (m.lowClean = true ∨ m.highClean = true) →
    ∃ u, Leaves (.param p m) s u ∧ (s.dev.state ≠ .hold → s.changesOnly u [.objs, .ports, .aon, .mgmt, .out] ∧ s.onlyPort u p)
      ∧ u.ports[p].state = .up ∧ u.ports[p].node = m.node
      ∧ u.ports[p].width = (if m.lowClean && m.highClean && s.num (Obj.portWidthMax p) == 16 then 16 else 8)
      ∧ u.ports[p].half = (if m.lowClean then .low else .high)
      ∧ u.ports[p].credit = ⟨m.advReq, m.advRsp, m.advSnp, m.advMgmt⟩
      ∧ s.sent u (.event 0x1001 (u.ports[p].width + 256 * m.node.toNat)))
  ∧ (∀ (s : State) (p : Fin 16) (m : ParamMsg), s.ports[p].state = .training → s.ports[p].fence ≠ .checker →
      (m.advRsp < 17 ∨ m.advSnp < (if m.features.getLsbD 0 then 3 else 2) ∨ m.advMgmt < 194) → s.ports[p].attempts + 1 < s.num (Obj.retrainAttempts p) →
    ∃ u, Leaves (.param p m) s u ∧ u.ports[p].state = .training ∧ u.ports[p].attempts = s.ports[p].attempts + 1
      ∧ u.out = s.out ++ [.event 0x1003 p])
  ∧ (∀ (s : State) (p : Fin 16) (seq last : BitVec 10), s.ports[p].state = .recovering → s.ports[p].forceFresh = false →
      s.ports[p].ctrl = [.resume true last] → s.ports[p].inject = 0 →
    ∃ u, Leaves (.resume p true seq) s u ∧ (s.dev.state ≠ .hold → s.onlyPort u p) ∧ u.ports[p].state = .up ∧ u.num (Obj.lastResetMode p) = 1
      ∧ u.ports[p].retry = freeThrough seq s.ports[p].retry ∧ u.ports[p].credit = s.ports[p].credit ∧ s.sent u (.event 0x1030 p))
  ∧ (∀ (s : State) (p : Fin 16) (valid : Bool) (seq : BitVec 10) (mine : Bool) (last : BitVec 10), s.ports[p].state = .recovering →
      s.ports[p].ctrl = [.resume mine last] → (mine && valid && !s.ports[p].forceFresh) = false →
    ∃ u, Leaves (.resume p valid seq) s u ∧ u.ports[p].state = .up ∧ u.num (Obj.lastResetMode p) = 2
      ∧ u.ports[p].retry = [] ∧ u.ports[p].credit = s.ports[p].adv
      ∧ u.ports[p].ready.head? = some (State.lostReport (s.tagsNow p).1 (s.tagsNow p).2.1 (s.tagsNow p).2.2)
      ∧ s.sent u (.event 0x1031 p))
  ∧ (∀ (s : State) (p : Fin 16), s.ports[p].state = .up → s.num (Obj.resumeEnable p) ≠ 0 →
    ∃ u, Leaves (.resetNotice p) s u ∧ s.changesOnly u [.objs, .ports, .out] ∧ s.onlyPort u p ∧ u.ports[p].state = .recovering
      ∧ u.num (Obj.lastResetCause p) = 6 ∧ u.num (Obj.resetCount p) = s.num (Obj.resetCount p) + 1
      ∧ u.ports[p].retry = s.ports[p].retry
      ∧ (s.ports[p].replayAt = s.dev.now + 1 → u.num (Obj.replayCount p) = s.num (Obj.replayCount p) - s.ports[p].replayN)
      ∧ (s.ports[p].degradeAt = s.dev.now + 1 → u.num (Obj.degradeCount p) = s.num (Obj.degradeCount p) - 1)
      ∧ (s.ports[p].replayAt ≠ s.dev.now + 1 → s.ports[p].degradeAt ≠ s.dev.now + 1 → u.out = s.out ++ [s.ctlOut p .resetNotice]))

/-- The link's timers and lane checks (R57, R90, R800, Table 02-11). -/
def Obligations.LinkTimersAndLanes : Prop :=
  (∀ (s : State) (p : Fin 16), ∃ u, Leaves (.controlRepeat p) s u ∧ s.changesOnly u [.out]
      ∧ u.out = s.out ++ s.ports[p].ctrl.map (fun c => s.ctlOut p c))
  ∧ (∀ (s : State) (p : Fin 16), s.ports[p].state = .up → s.num (Obj.resumeEnable p) ≠ 0 → s.ports[p].degradeAt ≠ s.dev.now + 1 →
      s.ports[p].replayAt ≠ s.dev.now + 1 →
    (s.ports[p].retry ≠ [] → ∃ u, Leaves (.ackTimeout p) s u ∧ s.onlyPort u p ∧ u.ports[p].state = .recovering
      ∧ u.num (Obj.lastResetCause p) = 2 ∧ u.out = s.out ++ [.event 0x1011 p, s.ctlOut p .resetNotice])
    ∧ (s.ports[p].degrading = true → ∃ u, Leaves (.degradeTimeout p) s u ∧ s.onlyPort u p ∧ u.ports[p].state = .recovering
      ∧ u.num (Obj.lastResetCause p) = 3 ∧ u.out = s.out ++ [.event 0x1022 p, s.ctlOut p .resetNotice])
    ∧ (∀ lane : Fin 16, s.ports[p].width = 8 → State.halfOf lane.val = s.ports[p].half →
      ∃ u, Leaves (.laneLockLost p lane) s u ∧ s.onlyPort u p ∧ u.ports[p].state = .recovering
        ∧ u.num (Obj.lastResetCause p) = 4 ∧ u.out = s.out ++ [s.ctlOut p .resetNotice]))
  ∧ (∀ (s : State) (p : Fin 16) (cs : List Nat), cs.length = 16 → s.ports[p].state = .up → s.ports[p].width = 16 →
      (∀ i < 16, cs.getD i 0 ≤ s.num (Obj.laneSerThreshold p)) →
    ∃ u, Leaves (.laneSerCheck p cs) s u ∧ s.changesOnly u [.objs] ∧ s.onlyPort u p
      ∧ ∀ i < 16, u.num (Obj.laneErrors p i) = s.num (Obj.laneErrors p i) + cs.getD i 0)
  ∧ (∀ (s : State) (p : Fin 16), s.ports[p].state = .up → s.ports[p].width = 8 → s.num (Obj.portWidthMax p) = 16 →
      s.num (Obj.autoUpshift p) = 1 → s.ports[p].switchAt = none → s.ports[p].soakBad ≠ s.dev.now + 1 →
    ∃ u a, Leaves (.upshiftSoakEnd p) s u ∧ s.changesOnly u [.dev, .ports, .out] ∧ s.onlyPort u p
      ∧ u.ports[p].ctrl = s.ports[p].ctrl ++ [.upshiftReq a] ∧ u.out = s.out ++ [s.ctlOut p (.upshiftReq a)])

/-- Credits (R69, R73, R74, R77): a flit of pad units carries the credits that are due, a message starts against its channel's
credits, and a completion that waits for RSP credits holds its port. -/
def Obligations.CreditsCarryMessages : Prop :=
  (∀ (s : State) (p : Fin 16) (v : VC), s.ports[p].state = .up → nextCvc s.ports[p] = some v → s.ports[p].retry.length < 512 →
    ∃ u, Leaves (.creditCarrierTimeout p) s u ∧ s.changesOnly u [.ports, .out] ∧ s.onlyPort u p
      ∧ u.ports[p].pendRet.get v = s.ports[p].pendRet.get v - min (s.ports[p].pendRet.get v) 255
      ∧ u.ports[p].retry.length = s.ports[p].retry.length + 1
      ∧ u.out = s.out ++ [.flit p 0 s.ports[p].txNext s.ports[p].rxLast (BitVec.ofNat 2 v.code)
          (BitVec.ofNat 8 (min (s.ports[p].pendRet.get v) 255)) (List.replicate 31 0) (decide (0 < s.ports[p].inject))])
  ∧ (∀ (s : State) (p : Fin 16) (m : Msg), s.ports[p].state = .up → s.ports[p].ready = [m] →
      m.units.length ≤ State.usable s.ports[p] s.dev.now m.vc → m.units.length ≤ State.retryRoom s.ports[p] →
    ∃ u, Leaves (.messageStart p) s u ∧ s.onlyPort u p ∧ u.ports[p].ready = []
      ∧ u.ports[p].credit = s.ports[p].credit.put m.vc (s.ports[p].credit.get m.vc - m.units.length)
      ∧ u.ports[p].retry.length = s.ports[p].retry.length + (m.units.length + 30) / 31)
  ∧ (∀ (s : State) (p : Fin 16), s.ports[p].state = .up → s.ports[p].rspHold = false → State.rspWaits s.ports[p] s.dev.now = true →
    ∃ u, Leaves (.rspHoldStart p) s u ∧ s.changesOnly u [.objs, .ports, .aon, .mgmt, .out] ∧ s.onlyPort u p
      ∧ u.ports[p].rspHold = true ∧ bit (u.num Obj.portRspHold) p = true ∧ u.out = s.out ++ [.event 0x5006 p])

/-- An armed injection waits in its object (R111, R213, R352, R399, R400, R483, R529, R530): the write stores the mask, the path or
the count, is answered, and changes nothing else; a split write of a channel that is EMPTY or FENCED is refused. -/
def Obligations.InjectionsAreArmed : Prop :=
  ∀ (s : State) (w : Who), w.ok = true →
    (∀ v : BitVec 32, s.stores (.dirFlipMask w v) w Obj.dirFlipMask (leBytes 4 v.toNat) v.toNat
      ∧ s.stores (.aluFlipMask w v) w Obj.aluFlipMask (leBytes 4 v.toNat) v.toNat
      ∧ s.stores (.bollardFlipMask w v) w Obj.bollardFlipMask (leBytes 4 v.toNat) v.toNat
      ∧ s.stores (.eccFlipMask w v) w Obj.eccFlipMask (leBytes 4 v.toNat) v.toNat
      ∧ s.stores (.codecFlipMask w v) w Obj.codecFlipMask (leBytes 4 v.toNat) v.toNat)
    ∧ (∀ v : BitVec 8, 1 ≤ v.toNat → v.toNat ≤ 8 → s.stores (.parityFlipPath w v) w Obj.parityFlipPath (leBytes 1 v.toNat) v.toNat)
    ∧ s.stores (.dirSplitWrite w 1) w Obj.dirSplitWrite (leBytes 1 1) 1
    ∧ (∀ (x : DUnit) (v : BitVec 8), v = 1 ∨ v = 2 →
      (∀ m, x = .chan m → (s.unit (8 + m)).st ≠ .empty ∧ (s.unit (8 + m)).st ≠ .fenced) →
      s.stores (.splitWrite w x v) w (State.splitObj x) (leBytes 1 v.toNat) v.toNat)
    ∧ (∀ (m : Fin 24) (v : BitVec 8), v = 1 ∨ v = 2 → ((s.unit (8 + m)).st = .empty ∨ (s.unit (8 + m)).st = .fenced) →
      s.allows w (Obj.chSplitWrite m) (leBytes 1 v.toNat) →
      ∃ u, Leaves (.splitWrite w (.chan m) v) s u ∧ s.changesOnly u [.objs, .mgmt, .out] ∧ s.replied u w .modeConflict []
        ∧ u.num (Obj.chSplitWrite m) = s.num (Obj.chSplitWrite m))
    ∧ (∀ (p : Fin 16) (v : BitVec 8), v ≠ 0 → s.allows w (Obj.injectFlitCrc p) (leBytes 1 v.toNat) →
      ∃ u, Leaves (.injectFlitCrc w p v) s u ∧ u.ports[p] = { s.ports[p] with inject := v.toNat } ∧ s.onlyPort u p
        ∧ s.keepsObjs u [] ∧ s.changesOnly u [.objs, .ports, .mgmt, .out] ∧ s.replied u w .ok [])

/-! ## Control of ports, classes, routes, snoops and Bollards -/

/-- Writes to a port's configuration (R90, R102): PORT_ENABLE 0 disables, 1 after a failed training trains anew with cause 7, a
checker's fence only stores; PORT_WIDTH_MAX 8 begins a degrade, 16 is stored. -/
def Obligations.PortConfigWrites : Prop :=
  ∀ (s : State) (w : Who) (p : Fin 16), w.ok = true →
    (s.ports[p].fence ≠ .checker → s.ports[p].state ≠ .fenced → s.ports[p].state ≠ .disabled →
      s.obeys (.portEnableWrite w p 0) w (Obj.portEnable p) (leBytes 1 0) [.event 0x1002 p] [.objs, .ports, .aon, .mgmt, .out]
        (fun u => u.ports[p].state = .disabled ∧ u.ports[p].width = 0 ∧ u.ports[p].retry = s.ports[p].retry
          ∧ u.ports[p].ready = s.ports[p].ready ∧ u.num (Obj.portEnable p) = 0 ∧ s.onlyPort u p))
    ∧ (s.ports[p].state = .fenced → s.ports[p].fence = .training → s.num (Obj.portEnable p) = 0 →
      s.obeys (.portEnableWrite w p 1) w (Obj.portEnable p) (leBytes 1 1) [] [.objs, .ports, .mgmt, .out]
        (fun u => u.ports[p] = { s.ports[p] with state := .training, attempts := 0 } ∧ u.num (Obj.portEnable p) = 1
          ∧ u.num (Obj.lastResetCause p) = 7 ∧ u.num (Obj.resetCount p) = s.num (Obj.resetCount p) + 1 ∧ s.onlyPort u p))
    ∧ (s.ports[p].fence = .checker → ∀ v : BitVec 8, s.stores (.portEnableWrite w p v) w (Obj.portEnable p) (leBytes 1 v.toNat) v.toNat)
    ∧ (s.ports[p].state = .up → s.ports[p].width = 16 → s.ports[p].degrading = false → s.ports[p].switchAt = none →
      s.obeys (.portWidthMaxWrite w p 8) w (Obj.portWidthMax p) (leBytes 1 8)
        [s.ctlOut p (.degradeReq .low (s.drawFresh.1.setWidth 12))] [.dev, .objs, .ports, .mgmt, .out]
        (fun u => u.ports[p].degrading = true ∧ u.ports[p].width = 16 ∧ u.num (Obj.portWidthMax p) = 8
          ∧ u.num (Obj.degradeCount p) = s.num (Obj.degradeCount p) + 1 ∧ s.onlyPort u p))
    ∧ s.stores (.portWidthMaxWrite w p 16) w (Obj.portWidthMax p) (leBytes 1 16) 16

/-- In-band dictionary requests hold authority Q only (R105): whatever their operation, object and value, they change nothing but
the counters and the port that carries them. -/
def Obligations.InBandRequestsChangeNothing : Prop :=
  ∀ (s : State) (p : Fin 16) (h : DictHdr) (w : Who) (c : Instr) (value : List Byte) (auth : BitVec 8), WellFormed c = true →
    h.who.path = .link p → w.path = .link p → c ∈ [.dictRead h, .dictWrite h value, .open_ w auth, .prove w value, .close w, .describe w] →
    (∀ x ∈ s.mgmt.dict.sess, x.path ≠ 3) →
    ∃ u, Leaves c s u ∧ s.onlyPort u p ∧ s.changesOnly u [.objs, .ports, .aon, .mgmt, .out]
      ∧ (∀ k, State.askObj k = false → State.reportObj k = false → k ≠ Obj.tagReuseDrops p → u.num k = s.num k)
      ∧ u.objs.blobs = s.objs.blobs ∧ u.objs.force = s.objs.force ∧ u.mgmt.dict = s.mgmt.dict
      ∧ u.mgmt.upd = s.mgmt.upd ∧ u.mgmt.power = s.mgmt.power ∧ u.mgmt.ring = s.mgmt.ring
      ∧ u.ports[p].state = s.ports[p].state ∧ u.ports[p].retry = s.ports[p].retry

/-- Settings of the stochastic generator, the operator's cap, the endpoint's grants and the near capacity (R221, R381, R435, R329). -/
def Obligations.SettingsTakeEffect : Prop :=
  ∀ (s : State) (w : Who), w.ok = true →
    (∀ v : U64, v ≠ 0 → s.obeys (.srSeedWrite w false v) w Obj.srSeed (leBytes 8 v.toNat) [] [.objs, .path, .mgmt, .out]
      (fun u => u.num Obj.srSeed = v.toNat ∧ u.path = { s.path with sr := if s.num Obj.srSeedMode = 1 then v else s.path.sr }))
    ∧ s.obeys (.srSeedWrite w true 1) w Obj.srSeedMode (leBytes 1 1) [] [.objs, .path, .mgmt, .out]
      (fun u => u.num Obj.srSeedMode = 1 ∧ u.path = { s.path with sr := BitVec.ofNat 64 (s.num Obj.srSeed) })
    ∧ (∀ v : BitVec 16, (1000 ≤ min (s.num Obj.thermalCap) (s.num Obj.operatorCap) ↔ 1000 ≤ min (s.num Obj.thermalCap) v.toNat) →
      s.stores (.operatorCapWrite w v) w Obj.operatorCap (leBytes 2 v.toNat) v.toNat)
    ∧ (∀ v : BitVec 16, 1000 ≤ min (s.num Obj.thermalCap) (s.num Obj.operatorCap) → v.toNat < 1000 →
      s.obeys (.operatorCapWrite w v) w Obj.operatorCap (leBytes 2 v.toNat) [.event 0x5004 (min (s.num Obj.thermalCap) v.toNat)]
        [.objs, .aon, .mgmt, .out] (fun u => u.num Obj.operatorCap = v.toNat))
    ∧ s.stores (.epGrantsWrite w 1) w Obj.epGrants (leBytes 1 1) 1
    ∧ (s.dir.snoops = [] → s.obeys (.epGrantsWrite w 0) w Obj.epGrants (leBytes 1 0) [.event 0x4004 16] [.objs, .dir, .aon, .mgmt, .out]
      (fun u => u.num Obj.epGrants = 0 ∧ bit (u.num Obj.dirPurgeActive) 16 = true
        ∧ u.dir = { s.dir with purges := s.dir.purges.filter (fun q => q.who != .ep) ++ [⟨.ep, 0, none⟩] }))
    ∧ (∀ v : BitVec 32, s.nearLimits ≤ min v.toNat (s.liveStacks * (2 ^ 20 - State.metaBays)) →
      s.stores (.nearReservableCapWrite w v) w Obj.nearReservableCap (leBytes 4 v.toNat) v.toNat)

/-- A class commit installs every staged value in one step or names the first check that fails; a discard stages what is in force
(R429–R431); the next arbitration is in the next cycle, under the new values. The sweeper sets the OVERDUE flag of the granted requests, and of
the accesses that wait, that the modular test finds overdue, and clears none (R424). -/
def Obligations.ClassesCommitAndSweepsMark : Prop :=
  (∀ (s : State) (w : Who), w.ok = true →
    (State.classFault ((List.range 64).map s.stagedClass) = none →
      s.obeys (.classCommit w) w Obj.classAction (leBytes 1 1) [.event 0x5002 0] [.objs, .ctl, .aon, .mgmt, .out]
        (fun u => (∀ c < 64, u.classOf c = s.stagedClass c) ∧ u.num Obj.classReason = 0
          ∧ u.num Obj.classCommits = s.num Obj.classCommits + 1
          ∧ u.ctl.water.tokens = s.ctl.water.tokens.map (fun e =>
              (e.1, min e.2 (((s.stagedClass (e.1 % 64)).burst * 1024 * 40000 : Nat) : Int)))
          ∧ u.ctl = { s.ctl with water := { s.ctl.water with cls := u.ctl.water.cls, tokens := u.ctl.water.tokens, ranAt := s.dev.now + 1 } }))
    ∧ (∀ r src c, State.classFault ((List.range 64).map s.stagedClass) = some (r, src, c) → s.allows w Obj.classAction (leBytes 1 1) →
      ∃ u, Leaves (.classCommit w) s u ∧ s.replied u w .modeConflict [] ∧ s.changesOnly u [.objs, .mgmt, .out]
        ∧ u.num Obj.classReason = r ∧ u.num Obj.classReasonSource = src ∧ u.num Obj.classReasonClass = c)
    ∧ s.obeys (.classDiscard w) w Obj.classAction (leBytes 1 2) [] [.objs, .mgmt, .out]
      (fun u => ∀ c < 64, u.stagedClass c = { s.classOf c with min := (List.range 17).map (fun p => (s.classOf c).min.getD p 0) }))
  ∧ (∀ s : State,
    let late (stamp : Nat) : Bool := decide (1 ≤ (s.now16 + 2 ^ 24 - stamp % 2 ^ 24) % 2 ^ 24 ∧ (s.now16 + 2 ^ 24 - stamp % 2 ^ 24) % 2 ^ 24 < 2 ^ 23)
    ∃ u, Leaves .overdueSweep s u ∧ s.changesOnly u [.path, .dram]
      ∧ u.path = { s.path with reqs := s.path.reqs.map (fun r => { r with overdue := r.overdue || (r.stage != .waiting && late r.stamp) }) }
      ∧ (∀ c, (u.chan c) = { s.chan c with wait := (s.chan c).wait.map (fun a => { a with overdue := a.overdue || late a.stamp }) })
      ∧ u.dram.mem = s.dram.mem ∧ u.dram.gmeta = s.dram.gmeta)

/-- Routes and purges (R306, R329, R332): a route write purges its holders before it is answered, a purge's end leaves no line with
the lost holder and sets a route that waited, and the sweep compares one set and moves on (R350). -/
def Obligations.RoutesAndPurges : Prop :=
  (∀ (s : State) (w : Who) (pod : Bool) (i : BitVec 6) (v : BitVec 8), w.ok = true → s.dir.snoops = [] →
    s.begins (.routeWrite w pod i v) w (State.routeObj pod i) (leBytes 1 v.toNat) [.event 0x4004 17] [.objs, .dir, .aon, .mgmt, .out]
      (fun u => (⟨.route pod i, 0, some (w, v)⟩ : Purge) ∈ u.dir.purges ∧ bit (u.num Obj.dirPurgeActive) 17 = true
        ∧ u.num (State.routeObj pod i) = s.num (State.routeObj pod i) ∧ u.dir.ents = s.dir.ents))
  ∧ (∀ (s : State) (h : Holder) (n : Nat), s.dir.purges = [⟨h, n, none⟩] →
    ∃ u, Leaves (.purgeEnd h) s u ∧ u.dir.purges = [] ∧ bit (u.num Obj.dirPurgeActive) (State.purgeBit h) = false
      ∧ ∀ l, s.lostOwner h (u.line l) = false ∧ ((u.line l).st = .shared → s.clearHolder h (u.line l) = u.line l))
  ∧ (∀ (s : State) (w : Who) (pod : Bool) (i : BitVec 6) (v : BitVec 8) (n : Nat), (w.path = .t1s ∨ (w.path = .window ∧ w.peer = 0)) →
      s.dir.purges = [⟨.route pod i, n, some (w, v)⟩] →
    ∃ u evs, Leaves (.purgeEnd (.route pod i)) s u ∧ u.num (State.routeObj pod i) = v.toNat ∧ u.dir.purges = [] ∧ s.replied u w .ok evs)
  ∧ (∀ s : State, s.dir.badA = [] → s.dir.badB = [] →
    Leaves .directorySweep s { s with dir := { s.dir with sweep := (s.dir.sweep + 1) % 65536 } })
  ∧ (∀ (s : State) (l : Nat) (m : BitVec 192), s.dir.badA = [(l, m)] → s.dir.badB = [] → m ≠ 0 → State.maskValid m = false →
      State.setOf l = s.dir.sweep →
    ∃ u, Leaves .directorySweep s u ∧ s.changesOnly u [.objs, .dir, .aon, .mgmt, .out] ∧ u.dir.badA = [] ∧ u.dir.ents = s.dir.ents
      ∧ u.dir.sweep = (s.dir.sweep + 1) % 65536 ∧ u.num Obj.copyMismatchesCorrected = s.num Obj.copyMismatchesCorrected + 1
      ∧ s.sent u (.event 0x4001 l))

/-- Snoops and transactions: an answer counts down PEND or begins the wait for the WRITEBACK, returned data is written home,
data that answers a group's or a pod's snoop is a protocol error, a timeout resets the port fresh or ends the endpoint's grants, and the end of a transaction installs its state (R317–R328, R337). -/
def Obligations.SnoopsAndTransactions : Prop :=
  (∀ (s : State) (p : Fin 16) (tag : BitVec 12) (x : Snoop) (t : Txn), s.takesRsp p 1 = true → s.txn x.line = some t →
      s.dir.snoops.find? (fun y => y.master == .port p && y.tag == tag && !y.waitWb) = some x →
    (∃ u, Leaves (.snpAck (.port p) tag false) s u ∧ s.changesOnly u [.objs, .ports, .path, .dir]
      ∧ u.txn x.line = some { t with pend := t.pend - 1 }
      ∧ u.dir.snoops = s.dir.snoops.filter (fun y => !(y.master == .port p && y.tag == tag))
      ∧ (x.level = 0 → (s.line x.line).st = .shared → (u.line x.line).l0 = (s.line x.line).l0 &&& ~~~(1#17 <<< p.val)))
    ∧ (t.wbGot = false → ∃ u, Leaves (.snpAck (.port p) tag true) s u ∧ s.changesOnly u [.objs, .ports, .dir]
      ∧ u.txn x.line = some { t with pend := t.pend - 1, wbWait := true } ∧ u.num Obj.wbPendingWaits = s.num Obj.wbPendingWaits + 1))
  ∧ (∀ (s : State) (p : Fin 16) (tag : BitVec 12) (x : Snoop) (t : Txn) (data : List Byte), data.length = 128 → s.takesRsp p 17 = true →
      s.txn x.line = some t → s.dir.snoops.find? (fun y => y.master == .port p && y.tag == tag && !y.waitWb) = some x → x.op ≠ .inv →
      x.scope = 0 → s.supersedes t = false →
    ∃ u, Leaves (.snpData (.port p) tag data) s u ∧ s.changesOnly u [.dev, .objs, .ports, .path, .dir]
      ∧ u.txn x.line = some { t with pend := t.pend - 1 }
      ∧ ∃ r, u.path.reqs = s.path.reqs ++ [r] ∧ r.via = .internal ∧ r.op = .write data ∧ r.line = x.line ∧ r.bad = 0)
  ∧ (∀ (s : State) (p : Fin 16) (tag : BitVec 12) (x : Snoop) (data : List Byte), data.length = 128 → s.takesRsp p 17 = true →
      s.dir.snoops.find? (fun y => y.master == .port p && y.tag == tag && !y.waitWb) = some x → x.scope ≠ 0 →
      s.num (Obj.resumeEnable p) ≠ 0 → s.ports[p].degradeAt ≠ s.dev.now + 1 →
    ∃ u, Leaves (.snpData (.port p) tag data) s u ∧ s.changesOnly u [.objs, .ports, .aon, .mgmt, .out]
      ∧ u.ports[p].state = .recovering ∧ u.num (Obj.lastResetCause p) = 5 ∧ s.sent u (.event 0x1040 p))
  ∧ (∀ (s : State) (p : Fin 16) (tag : BitVec 12), s.ports[p].state = .up → s.ports[p].degradeAt ≠ s.dev.now + 1 →
      s.dir.snoops.any (fun x => x.master == .port p && x.tag == tag) = true →
    ∃ u, Leaves (.snoopTimeout (.port p) tag) s u ∧ u.ports[p].state = .recovering ∧ u.ports[p].forceFresh = true
      ∧ u.num (Obj.lastResetCause p) = 5 ∧ u.num Obj.snoopTimeouts = s.num Obj.snoopTimeouts + 1
      ∧ u.dir.late = s.dir.late ++ [(.port p, tag)] ∧ s.sent u (.event 0x4003 p))
  ∧ (∀ (s : State) (tag : BitVec 12), s.dir.snoops.any (fun x => x.master == .ep && x.tag == tag) = true →
    ∃ u, Leaves (.snoopTimeout .ep tag) s u ∧ u.num Obj.epGrants = 0 ∧ u.dir.purges.any (fun q => q.who == .ep) = true
      ∧ s.sent u (.event 0x4003 16))
  ∧ (∀ (s : State) (line : BitVec 37) (t : Txn), s.txn line.toNat = some t → t.pend = 0 → t.wbWait = false → t.who = .evict →
      s.tide.jobs = [] → s.tide.clone = none → (∀ e ∈ s.ctl.regions, e.2.st = .open ∧ e.2.act = .none) →
      s.num Obj.dirFlipMask = 0 → s.num Obj.dirSplitWrite = 0 →
    ∃ u, Leaves (.transactionEnd line) s u ∧ s.changesOnly u [.objs, .path, .dir, .mgmt] ∧ u.txn line.toNat = none
      ∧ (u.line line.toNat).st = t.next.st
      ∧ (t.next.st ≠ .uncached → (u.line line.toNat).l0 = t.next.l0 ∧ (u.line line.toNat).l1 = t.next.l1
        ∧ (u.line line.toNat).l2 = t.next.l2 ∧ (u.line line.toNat).owner = t.next.owner))

/-- Bollards (R384–R395, Table 07-5): the operations on a counter without waiters' conflicts, each with its completion. -/
def Obligations.BollardOperations : Prop :=
  ∀ (s : State) (p : Fin 16) (h : Hdr) (a : U64),
    let b := h.addr.toNat
    let v := s.bollard b
    let t := h.attr.toNat % 32
    let free (k : BolOp) : Prop := s.alone p h (.bol k a) = true ∧ s.aluFenced = false ∧ s.path.bolPar.contains b = false
      ∧ s.path.bolBad.contains b = false ∧ s.num Obj.bollardFlipMask = 0
      ∧ bit (s.num (Obj.bollardGroupMask (b / 256))) p = true ∧ (∀ x ∈ s.path.waiters, x.req ≠ s.dev.serial)
    let ps : List Part := [.dev, .objs, .ports, .path, .ctl, .aon, .mgmt, .out]
    let others (u : State) : Prop := ∀ b', b' ≠ b → u.bollard b' = s.bollard b'
    (free .add → ∃ u, Leaves (.bollardAdd h a) s u ∧ s.changesOnly u ps ∧ u.bollard b = v + a ∧ others u
        ∧ s.completes u p h ⟨.ok, .dataWord, 0, 0, 0, unitBytes v⟩ none)
    ∧ (free .signal → ∃ u, Leaves (.bollardSignal h a) s u ∧ s.changesOnly u ps
        ∧ u.bollard b = (if (a - v).toNat < 2 ^ 63 then a else v) ∧ others u
        ∧ s.completes u p h ⟨.ok, .dataWord, 0, 0, 0, unitBytes v⟩ none)
    ∧ (free .reset → ∃ u, Leaves (.bollardReset h a) s u ∧ s.changesOnly u ps ∧ u.bollard b = a ∧ others u
        ∧ u.path.waiters = s.path.waiters.filter (fun x => x.bol != b)
        ∧ s.completes u p h ⟨.ok, .dataWord, 0, 0, 0, unitBytes v⟩ none)
    ∧ (free .waitGe →
        ((v - a).toNat < 2 ^ 63 → ∃ u, Leaves (.bollardWaitGe h a) s u ∧ s.changesOnly u ps ∧ u.path.waiters = s.path.waiters
          ∧ s.completes u p h ⟨.ok, .dataWord, 0, 0, 0, unitBytes v⟩ none)
        ∧ (2 ^ 63 ≤ (v - a).toNat → t = 0 → ∃ u, Leaves (.bollardWaitGe h a) s u ∧ u.path.waiters = s.path.waiters
          ∧ s.completes u p h ⟨.timeout, .done, 0, 0, 0, []⟩ none)
        ∧ (2 ^ 63 ≤ (v - a).toNat → t ≠ 0 → s.path.waiters.length < 16384 →
          ∃ u x, Leaves (.bollardWaitGe h a) s u ∧ s.changesOnly u ps ∧ u.path.waiters = s.path.waiters ++ [x] ∧ x.bol = b ∧ x.target = a
            ∧ x.tag = h.tag ∧ x.limit = (if t = 31 then none else some (2 ^ (t - 1) * cyclesUs)) ∧ u.ports[p].ready = s.ports[p].ready))
    ∧ (free .arrive → s.path.waiters.any (fun x => x.bol == b && x.n.isSome && x.n != some (a.toNat % 2 ^ 32)) = false →
        v.toNat + 2 ^ 32 < 2 ^ 64 → ((v.toNat + 1) % (a.toNat % 2 ^ 32) = 0 →
          ∃ u, Leaves (.bollardBarrierArrive h a) s u ∧ s.changesOnly u ps ∧ u.bollard b = v + 1 ∧ others u
            ∧ s.completes u p h ⟨.ok, .dataWord, 0, 0, 0, unitBytes (v + 1)⟩ none)
        ∧ ((v.toNat + 1) % (a.toNat % 2 ^ 32) ≠ 0 → t ≠ 0 → s.path.waiters = [] →
          ∃ u x, Leaves (.bollardBarrierArrive h a) s u ∧ s.changesOnly u ps ∧ u.bollard b = v + 1 ∧ others u ∧ u.path.waiters = [x]
            ∧ x.bol = b ∧ x.n = some (a.toNat % 2 ^ 32) ∧ u.ports[p].ready = s.ports[p].ready))
    ∧ (free .cancel → ∃ u, Leaves (.bollardCancel h a) s u ∧ s.changesOnly u ps ∧ u.path.bols = s.path.bols
        ∧ (let hit (x : Waiter) : Bool := x.bol == b && x.origin == s.originOf h && (bit a.toNat 63 || x.tag == a.setWidth 12)
          u.path.waiters = s.path.waiters.filter (fun x => !hit x)
            ∧ s.completes u p h ⟨.ok, .dataWord, 0, 0, 0, unitBytes (BitVec.ofNat 64 (s.path.waiters.filter hit).length)⟩ none))

/-- Waits end: a waiter that has timed out completes TIMEOUT, and ready waiters complete with the counter (R391, R394) in a cycle that
has not dispatched yet. -/
def Obligations.BollardWaitsEnd : Prop :=
  ∀ (s : State) (p : Fin 16) (x : Waiter) (r : Req), s.ports[p].state = .up → s.req x.req = some r → r.via = .link → r.hdr.src = .port p →
      r.stage = .bollard → r.wbFor = false →
    let done (u : State) (c : Cpl) : Prop := u.ports[p].ready = s.ports[p].ready ++ [c.msg .rsp r.hdr.tag none (some (r.cls, r.pool))]
      ∧ s.changesOnly u [.objs, .ports, .path, .aon, .mgmt, .out]
    (∀ b : BitVec 14, s.path.waiters = [x] → x.bol = b.toNat → x.limit.isSome = true → x.ready = none →
      ∃ u, Leaves (.bollardTimeout b x.src x.tag) s u ∧ done u ⟨.timeout, .done, 0, 0, 0, []⟩ ∧ u.path.waiters = []
        ∧ u.num Obj.bollardTimeouts = s.num Obj.bollardTimeouts + 1)
    ∧ (s.path.disp ≠ s.dev.now + 1 → s.path.waiters.filter (fun y => y.ready.isSome) = [x] →
      ∃ u, Leaves .waiterDispatch s u ∧ done u ⟨.ok, .dataWord, 0, 0, 0, unitBytes x.val⟩
        ∧ u.path.waiters = s.path.waiters.filter (fun y => !([x].contains y)))

/-! ## Requests of a port -/

/-- Reads of an UNWRITTEN page return zeros (R234), and READ and READ_EXCL leave the grant that the line's coherence gives
(Table 06-5): the requester is recorded, shared or exclusive, and its completion carries the grant. -/
def Obligations.ReadsReturnZerosWithGrants : Prop :=
  ∀ (s : State) (p : Fin 16) (h : Hdr) (m : Mode),
    let l := lineOf (addrOff h.addr)
    let fresh (op : ReqOp) : Prop := s.reaches p h op m ∧ s.calm l = true ∧ s.wayFree l = true ∧ (s.line l).st = .uncached
      ∧ s.storeLine l = none ∧ (s.entry (l / 512)).pstate = .unwritten
    let ps : List Part := [.dev, .objs, .ports, .path, .dir, .tide, .ctl, .aon, .mgmt, .out]
    let only (v : State) : Prop := s.changesOnly v ps ∧ v.tide = { s.tide with mapCache := v.tide.mapCache }
    let rd : Nat := if m.coh = 1 then 2 else if m.coh = 0 ∨ m.ro = true then 1 else 0
    let ex : Nat := if m.coh ≤ 1 then 2 else 0
    (fresh .read → ∃ u, Leaves (.read h) s u ∧ only u.pumpH8.settle
        ∧ s.completes u.pumpH8.settle p h ⟨.ok, .dataLine, rd, 0, 0, zeros 64 ++ zeros 64⟩ (if rd = 0 then none else some l)
        ∧ (u.pumpH8.settle.line l).st = (if m.coh = 1 then .exclusive else if m.coh = 0 then .shared else .uncached))
    ∧ (fresh .readExcl → ∃ u, Leaves (.readExcl h) s u ∧ only u.pumpH8.settle
        ∧ s.completes u.pumpH8.settle p h ⟨.ok, .dataLine, ex, 0, 0, zeros 64 ++ zeros 64⟩ (if ex = 0 then none else some l)
        ∧ (u.pumpH8.settle.line l).st = (if m.coh ≤ 1 then .exclusive else .uncached))
    ∧ (fresh .readOnce → ∃ u, Leaves (.readOnce h) s u ∧ only u.pumpH8.settle ∧ (u.pumpH8.settle.line l).st = .uncached
        ∧ s.completes u.pumpH8.settle p h ⟨.ok, .dataLine, 0, 0, 0, zeros 64 ++ zeros 64⟩ none)
    ∧ (fresh .readHalf → ∃ u, Leaves (.readHalf h) s u ∧ only u.pumpH8.settle ∧ (u.pumpH8.settle.line l).st = .uncached
        ∧ s.completes u.pumpH8.settle p h ⟨.ok, .dataHalf, 0, 0, 0, zeros 64⟩ none)

/-- Writes to a RESIDENT page whose copy is raw (R34, R35, R323): each stored granule waits for its channel with the data, and no
completion is sent until it is accepted; a WRITEBACK empties its owner's directory entry; a masked write first reads its granule. -/
def Obligations.WritesGoToTheirChannels : Prop :=
  ∀ (s : State) (p : Fin 16) (h : Hdr) (m : Mode) (d : List Byte),
    let l := lineOf (addrOff h.addr)
    let a := (s.entry (l / 512)).a
    let g := l * 2 % 1024
    let raw (op : ReqOp) : Prop := s.reaches p h op m ∧ s.calm l = true ∧ s.rawPage (l / 512) = true ∧ s.storeLine l = none
      ∧ s.path.store = [] ∧ s.keyFenced (a.key g) = false ∧ s.keyFenced (a.key (g + 1)) = false
    let both (v : State) : Prop := v.writeWaits s.dev.serial (s.granAt (l / 512) a (State.v0Of m) g ⟨slice d 0 64, false⟩)
      ∧ v.writeWaits s.dev.serial (s.granAt (l / 512) a (State.v0Of m) (g + 1) ⟨slice d 64 64, false⟩) ∧ v.ports[p].ready = s.ports[p].ready
    let ps : List Part := [.dev, .objs, .ports, .path, .dir, .tide, .dram, .ctl, .aon, .mgmt, .out]
    (d.length = 128 → raw (.write d) → (s.line l).st = .uncached →
      ∃ u, Leaves (.write h d) s u ∧ s.changesOnly u.pumpH8.settle ps ∧ both u.pumpH8.settle
        ∧ u.pumpH8.settle.dram.mem = s.dram.mem ∧ u.pumpH8.settle.dram.gmeta = s.dram.gmeta)
    ∧ (d.length = 128 → raw (.writeback d) → s.ownsLine (s.newReq s.dev.serial h (.writeback d) 0 .link) l = true →
      ∃ u, Leaves (.writeback h d) s u ∧ s.changesOnly u.pumpH8.settle ps ∧ both u.pumpH8.settle
        ∧ (u.pumpH8.settle.line l).st = .uncached)
    ∧ (∀ mask : BitVec 64, d.length = 64 → raw (.writeMasked mask d) → (s.line l).st = .uncached →
      let i := addrOff h.addr / 64 % 1024
      let k := a.key i
      ∃ u, Leaves (.writeMasked h mask d) s u ∧ s.changesOnly u.pumpH8.settle ps ∧ u.pumpH8.settle.ports[p].ready = s.ports[p].ready
        ∧ (mask = BitVec.allOnes 64 → u.pumpH8.settle.writeWaits s.dev.serial (s.granAt (l / 512) a (State.v0Of m) i ⟨d, false⟩))
        ∧ (mask ≠ BitVec.allOnes 64 → keyTier k ≠ 3 → ∃ r, u.pumpH8.settle.req s.dev.serial = some r ∧ r.stage = .mem ∧ r.need = [k]
          ∧ ∃ x ∈ (u.pumpH8.settle.chan (chanOf k)).wait, x.write = false ∧ x.owner = some s.dev.serial ∧ x.keys = [k]))

/-- RELEASE_CLEAN and FENCE (R321, R365): a release clears the requester's own record and completes OK, and a FENCE with nothing
before it completes at once. -/
def Obligations.ReleasesAndFences : Prop :=
  (∀ (s : State) (p : Fin 16) (h : Hdr) (m : Mode),
    let l := lineOf (addrOff h.addr)
    s.reaches p h .releaseClean m → s.calm l = true → m.coh ≤ 1 → h.node = none →
    ((s.line l).st = .exclusive → (s.line l).ownLocal = true → (s.line l).owner = BitVec.ofNat 18 p →
      ∃ u, Leaves (.releaseClean h) s u ∧ s.completes u p h ⟨.ok, .done, 0, 0, 0, []⟩ none ∧ (u.line l).st = .uncached
        ∧ s.changesOnly u [.dev, .objs, .ports, .path, .dir, .ctl, .aon, .mgmt, .out])
    ∧ ((s.line l).st = .shared →
      ∃ u, Leaves (.releaseClean h) s u ∧ s.completes u p h ⟨.ok, .done, 0, 0, 0, []⟩ none ∧ (u.line l).l0.getLsbD p = false
        ∧ s.changesOnly u [.dev, .objs, .ports, .path, .dir, .ctl, .aon, .mgmt, .out]))
  ∧ (∀ (s : State) (p : Fin 16) (h : Hdr), s.alone p h .fence = true →
    ∃ u, Leaves (.fence h) s u ∧ s.completes u.pumpH8.settle p h ⟨.ok, .done, 0, 0, 0, []⟩ none
      ∧ u.pumpH8.settle.num Obj.fences = s.num Obj.fences + 1
      ∧ s.changesOnly u.pumpH8.settle [.dev, .objs, .ports, .path, .ctl, .aon, .mgmt, .out])

/-- Atomics and VEC_ACCUM on a line that H7 holds (R373–R382): the old value in the completion, the new value in the line, and the
rest of the line as it was. -/
def Obligations.AtomicsOnHeldLines : Prop :=
  ∀ (s : State) (p : Fin 16) (h : Hdr) (m : Mode) (x : StoreLine),
    let l := lineOf (addrOff h.addr)
    let line := x.lo.bytes ++ x.hi.bytes
    let o := h.addr.toNat % 128
    let held (op : ReqOp) : Prop := s.reaches p h op m ∧ s.calm l = true ∧ (s.line l).st = .home ∧ (s.entry (l / 512)).pstate = .unwritten
      ∧ s.storeLine l = some x ∧ x.filling = false ∧ x.leaving = false ∧ x.badPar = false ∧ x.lo.poison = false ∧ x.hi.poison = false
      ∧ x.lo.bytes.length = 64 ∧ x.hi.bytes.length = 64 ∧ s.num Obj.aluFlipMask = 0
    let holds (v : State) (bs : List Byte) : Prop := ∃ y, v.storeLine l = some y ∧ y.lo.bytes ++ y.hi.bytes = bs
      ∧ y.lo.poison = false ∧ y.hi.poison = false
    let ps : List Part := [.dev, .objs, .ports, .path, .dir, .tide, .ctl, .aon, .mgmt, .out]
    let only (v : State) : Prop := s.changesOnly v ps ∧ v.tide = { s.tide with mapCache := v.tide.mapCache }
    let word (n : Nat) : Nat := leNat (slice line o n)
    let answers (u : State) (n : Nat) : Prop := s.completes u.pumpH8.settle p h ⟨.ok, .dataWord, 0, 0, 0, leBytes 8 (word n)⟩ none
      ∧ only u.pumpH8.settle
    let n := if h.attr.toNat % 4 = 3 then 8 else 4
    (∀ a : U64, held (.add a) → ∃ u, Leaves (.atomicAdd h a) s u ∧ answers u n
        ∧ holds u.pumpH8.settle (patch line o (leBytes n ((word n + a.toNat) % 2 ^ (8 * n)))))
    ∧ (∀ c v : U64, held (.cas c v) → ∃ u, Leaves (.atomicCas h c v) s u ∧ answers u n
        ∧ holds u.pumpH8.settle (if word n = c.toNat % 2 ^ (8 * n) then patch line o (leBytes n (v.toNat % 2 ^ (8 * n))) else line))
    ∧ (∀ a : U64, held (.fadd a) → ∃ u, Leaves (.atomicFadd32 h a) s u ∧ answers u 4
        ∧ holds u.pumpH8.settle (patch line o (leBytes 4 (fp32Add (word 4) (a.toNat % 2 ^ 32)))))
    ∧ (∀ a : U64, held (.bfadd a) →
        let st := bit h.attr.toNat 2
        let sr := if st then srDraw s.path.sr else s.path.sr
        ∃ u, Leaves (.atomicBfadd h a) s u ∧ answers u 2 ∧ u.pumpH8.settle.path.sr = sr
          ∧ holds u.pumpH8.settle (patch line o (leBytes 2 (bf16Add (word 2) (a.toNat % 2 ^ 16)
              (if st then some (sr.toNat % 2 ^ 16) else none)))))
    ∧ (∀ d : List Byte, d.length = 128 → held (.vec d) →
        let e := bits h.attr.toNat 5 3
        let r := vecSum e (bit h.attr.toNat 2) (128 / vecBytes e) s.path.sr line d
        ∃ u, Leaves (.vecAccum h d) s u ∧ s.completes u.pumpH8.settle p h ⟨.ok, .done, 0, 0, 0, []⟩ none
          ∧ only u.pumpH8.settle ∧ holds u.pumpH8.settle r.1
          ∧ u.pumpH8.settle.num Obj.vecAccums = s.num Obj.vecAccums + 1)

/-- DRAM channels in a 1 GHz cycle in which they have not acted yet (R34, R425, R443–R447, R490): an admitted write is accepted and completes its request, an admitted read enters the
read queue, a column write stores its granule, a column read goes in flight, and a returned read completes with the stored bytes. -/
def Obligations.ChannelsServeAccesses : Prop :=
  (∀ (s : State) (c : Chan) (a : Acc), (s.chan (chanNum c)).sr = .no → (s.chan (chanNum c)).admAt ≠ s.dev.now / 2 + 1 →
      s.pickAcc (chanNum c) = some a → a.write = true → a.purpose = .write →
      s.num Obj.parityFlipPath = 0 →
    (∃ u, Leaves (.channelAdmission c) s u
        ∧ (u.chan (chanNum c)).wait = (s.chan (chanNum c)).wait.filter (fun b => b.id != a.id)
        ∧ (u.chan (chanNum c)).wq = (s.chan (chanNum c)).wq ++ [{ a with entered := s.dev.serial }]
        ∧ u.dram.mem = s.dram.mem ∧ u.dram.gmeta = s.dram.gmeta
        ∧ ∀ (id : Nat) (r : Req) (p : Fin 16), a.owner = some id → s.req id = some r → r.id = id → r.writes = 1 → r.inv = false → r.via = .link →
          r.hdr.src = .port p → r.stage = .mem → s.ports[p].state = .up →
          u.ports[p].ready = s.ports[p].ready ++ [(Cpl.plain .ok).msg .rsp r.hdr.tag none (some (r.cls, r.pool))]))
  ∧ (∀ (s : State) (c : Chan) (a : Acc), (s.chan (chanNum c)).sr = .no → (s.chan (chanNum c)).admAt ≠ s.dev.now / 2 + 1 →
      s.pickAcc (chanNum c) = some a → a.write = false → a.keys ≠ [] →
      (∀ k ∈ a.keys, s.queued k = none) →
    ∃ u, Leaves (.channelAdmission c) s u ∧ s.changesOnly u [.dev, .objs, .dram, .mgmt]
      ∧ (u.chan (chanNum c)).wait = (s.chan (chanNum c)).wait.filter (fun b => b.id != a.id)
      ∧ (u.chan (chanNum c)).rq = (s.chan (chanNum c)).rq ++ [{ a with got := [], entered := s.dev.serial }])
  ∧ (∀ (s : State) (c : Chan) (a : Acc) (rest : List Acc) (w : GW), (s.chan (chanNum c)).sr = .no → (s.chan (chanNum c)).issAt ≠ s.dev.now / 2 + 1 →
      (s.chan (chanNum c)).recal = false →
      (s.chan (chanNum c)).wq = a :: rest → (s.chan (chanNum c)).rq = [] → (s.chan (chanNum c)).flight = [] → a.wr = [w] →
      chanOf w.key = chanNum c → keyTier w.key ≠ 3 → w.gran.poison = false → w.gran.bytes.length = 64 → s.num Obj.eccFlipMask = 0 →
      (∀ k : Fin 8, s.num (Obj.stackSplitWrite k) = 0) → (∀ k : Fin 24, s.num (Obj.chSplitWrite k) = 0) →
    ∃ u, Leaves (.controllerIssue c) s u ∧ s.changesOnly u [.objs, .dram, .aon, .mgmt, .out] ∧ (u.chan (chanNum c)).wq = rest
      ∧ u.memGran w.key = w.gran.bytes ∧ u.gmeta w.key = ⟨false, w.v0, [], w.tweak⟩
      ∧ ∀ a', (a' < w.key * 64 ∨ w.key * 64 + 64 ≤ a') → u.memByte a' = s.memByte a')
  ∧ (∀ (s : State) (c : Chan) (a : Acc) (rest : List Acc), (s.chan (chanNum c)).sr = .no → (s.chan (chanNum c)).issAt ≠ s.dev.now / 2 + 1 →
      (s.chan (chanNum c)).recal = false →
      (s.chan (chanNum c)).wq = [] → (s.chan (chanNum c)).rq = a :: rest →
      (∀ k ∈ a.keys, chanOf k = chanNum c) →
    ∃ u, Leaves (.controllerIssue c) s u ∧ s.changesOnly u [.objs, .dram, .aon, .mgmt, .out] ∧ (u.chan (chanNum c)).rq = rest
      ∧ (u.chan (chanNum c)).flight = (s.chan (chanNum c)).flight ++ [a] ∧ u.dram.mem = s.dram.mem ∧ u.dram.gmeta = s.dram.gmeta)
  ∧ (∀ (s : State) (c : Chan) (a : Acc) (r : Req) (m : Mode) (p : Fin 16) (k : Nat) (rest : List Acc),
      (s.chan (chanNum c)).flight = a :: rest → a.owner = some r.id → a.purpose = .read → a.keys = [k] → a.got = [] →
      s.req r.id = some r → r.via = .link → r.hdr.src = .port p → s.ports[p].state = .up → r.stage = .mem → r.op = .readHalf →
      addrView r.hdr.addr = 0 → r.mode = some m → r.need = [k] → r.got = [] → r.wbFor = false → r.grant = 0 →
      (s.copyA r.page).tier ≠ 0 → (s.copyA r.page).comp = false → (s.copyA r.page).key (addrOff r.hdr.addr / 64 % 1024) = k →
      (s.gmeta k).poison = false → (s.gmeta k).v0 = State.v0Of m → (s.gmeta k).errs = [] →
      (r.tweaks.find? (fun e => e.1 == k)).map (·.2) = some (s.seenTweak k) → s.dram.keyBad = [] → s.storeLine (addrOff r.hdr.addr / 64 / 2) = none → s.num Obj.parityFlipPath = 0 →
    ∃ u, Leaves (.dramReadReturn c []) s u ∧ s.changesOnly u [.objs, .ports, .path, .dram, .mgmt]
      ∧ (u.chan (chanNum c)).flight = rest ∧ u.req r.id = none
      ∧ u.ports[p].ready = s.ports[p].ready ++ [(⟨.ok, .dataHalf, 0, 0, 0, s.memGran k⟩ : Cpl).msg .rsp r.hdr.tag none (some (r.cls, r.pool))])

/-- The hub's stores (R36, R37, R42, R197, R198, R505): a line leaves H7 once its writeback is accepted, a decoded block is present, a
clean block leaves H8, and a placed page's requests go on. -/
def Obligations.StoresFillAndEmpty : Prop :=
  (∀ (s : State) (line : BitVec 37) (x : StoreLine), s.storeLine line.toNat = some x → x.leaving = true → s.req x.wb = none →
      s.txn line.toNat = none → (s.line line.toNat).st = .home →
    ∃ u, Leaves (.lineStoreWritebackAccepted line) s u ∧ s.changesOnly u [.path, .dir] ∧ u.storeLine line.toNat = none
      ∧ (u.line line.toNat).st = .uncached)
  ∧ (∀ (s : State) (page : BitVec 28) (blk : BitVec 4) (b : Block), s.block (page.toNat * 16 + blk.toNat) = some b →
    let k := page.toNat * 16 + blk.toNat
    (b.st = .installing → (s.copyA page.toNat).tier = 0 →
      ∃ u, Leaves (.landingInstallComplete page blk) s u ∧ s.changesOnly u [.path]
        ∧ u.block k = some { b with st := .present, grans := List.replicate 64 Gran.zero, used := s.path.useClock })
    ∧ (b.st = .present → b.dirty = false → ∃ u, Leaves (.landingEviction page blk) s u ∧ s.changesOnly u [.path] ∧ u.block k = none)
    ∧ (b.st = .evicting → b.dirty = true → ∃ u, Leaves (.evictionAccepted page blk) s u ∧ s.changesOnly u [.path]
        ∧ u.block k = some { b with st := .present, used := s.path.useClock })
    ∧ (b.st = .evicting → b.dirty = false → ∃ u, Leaves (.evictionAccepted page blk) s u ∧ u.block k = none
        ∧ u.dram = s.dram ∧ u.tide = s.tide))
  ∧ (∀ (s : State) (page : BitVec 28), s.tide.placing.contains page.toNat = true →
    ∃ u, Leaves (.placementAccepted page) s u ∧ s.changesOnly u [.path, .tide]
      ∧ u.tide = { s.tide with placing := s.tide.placing.filter (· != page.toNat) }
      ∧ ∀ r ∈ s.path.reqs, r.stage = .tide → r.page = page.toNat → (r.id, 6) ∈ u.path.work)

/-! ## The Tide engine, DRAM and integrity -/

/-- A migration's life (R236, R239–R243, R250): dispatch takes a bay of the wanted tier and begins COPYING with every block to copy, a pass
ends by copying the dirty blocks again or by DRAINING, the switch makes the destination copy A and keeps the far source as the LOWER
copy with the VERSION of the destination, and a source in no use is freed. -/
def Obligations.FloodRunsThroughItsPhases : Prop :=
  (∀ (s : State) (p : Nat) (j : Job), (s.dev.state = .service ∨ s.dev.state = .degraded) → s.tide.jobs = [j] → j.kind = .flood → j.phase = .queued →
      j.page = p → j.bay = 0 → s.refill = s → (∀ n < 48, (s.slot n).st ≠ .evacuating) → s.rawPage p = true → (s.entry p).a.tier = 2 →
      (s.entry p).bad = false → (s.tide.mapCache.contains p || s.pristine (State.mapKey p)) = true → s.stripeFaulted p = false →
      (s.pageMode p).mirror = false → s.isPacked p = false → 0 < s.nearFree → s.dir.ents = [] → s.dir.txns = [] → s.dir.censusBad = [] →
    ∃ u a, Leaves .jobDispatch s u ∧ s.changesOnly u [.objs, .tide, .ctl, .aon, .mgmt, .out]
      ∧ u.tide.jobs = [{ j with phase := .copying, dstA := a, dstB := Copy.none, started := s.dev.now, moveB := false
                                todo := List.range 16, first := true, ver := (s.entry p).version + 1 }] ∧ a.tier = 1
      ∧ (u.entry p) = { s.entry p with pstate := .copying } ∧ ∀ q, q ≠ p → u.entry q = s.entry q)
  ∧ (∀ (s : State) (p : BitVec 28) (j : Job), (s.dev.state = .service ∨ s.dev.state = .degraded) → s.tide.jobs = [j] → j.page = p.toNat →
      j.phase = .copying → j.kind = .flood → j.bay = 0 → j.todo = [] → (s.entry p.toNat).pstate = .copying → s.stripeFaulted p.toNat = false →
      s.copyFenced (s.entry p.toNat).a = false → s.copyFenced j.dstA = false → s.copyFenced j.dstB = false →
    (j.dirty.length ≤ s.num Obj.migDirtyMax ∨ s.num Obj.migPasses ≤ j.passes + 1 → j.rescan = [] → s.dir.txns = [] →
      ∃ u, Leaves (.copyPassEnd p) s u ∧ s.changesOnly u [.objs, .tide]
        ∧ u.tide.jobs = [{ j with passes := j.passes + 1, todo := j.dirty, dirty := [], first := false, phase := .draining, started := s.dev.now }]
        ∧ u.entry p.toNat = { s.entry p.toNat with pstate := .draining })
    ∧ (s.num Obj.migDirtyMax < j.dirty.length → j.passes + 1 < s.num Obj.migPasses →
      ∃ u, Leaves (.copyPassEnd p) s u ∧ s.changesOnly u [.objs, .tide]
        ∧ u.tide = { s.tide with jobs := [{ j with passes := j.passes + 1, todo := j.dirty, dirty := [], first := false }] }))
  ∧ (∀ (s : State) (p : BitVec 28) (j : Job), (s.dev.state = .service ∨ s.dev.state = .degraded) → s.tide.jobs = [j] → j.page = p.toNat →
      j.phase = .draining → j.kind = .flood → j.bay = 0 → j.todo = [] → j.dirty = [] → j.blks = [] → s.pinned p.toNat = false →
      (s.entry p.toNat).pstate = .draining → (s.entry p.toNat).role = .none → (s.entry p.toNat).a.tier = 2 → (s.entry p.toNat).a.vdelta < 15 →
      s.stripeFaulted p.toNat = false → s.copyFenced (s.entry p.toNat).a = false → s.copyFenced j.dstA = false → j.dstA.tier = 1 →
      j.dstB = Copy.none → j.moveB = false → (s.pageMode p.toNat).mirror = false → s.newerBlock p.toNat = false →
      (∀ n < 48, (s.slot n).st ≠ .evacuating) →
    ∃ u, Leaves (.migrationSwitch p) s u ∧ u.activeJob p.toNat = none ∧ u.num Obj.floods = s.num Obj.floods + 1
      ∧ u.entry p.toNat = { s.entry p.toNat with pstate := .resident, a := j.dstA, role := .lower
                                                 b := { (s.entry p.toNat).a with vdelta := (s.entry p.toNat).a.vdelta + 1 }
                                                 version := j.ver, flooded := true }
      ∧ ∀ q, q ≠ p.toNat → u.entry q = s.entry q)
  ∧ (∀ (s : State) (p : BitVec 28) (c : Copy) (twin : Bool), s.tide.leaving = [⟨p.toNat, c, twin⟩] → s.usesCopy c = false → c.tier ≠ 0 →
    ∃ u, Leaves (.sourceRelease p) s u ∧ u.tide.leaving = []
      ∧ ∀ b ∈ State.copyBays c, ({ s with tide := { s.tide with leaving := [] } }).bayShared c b = false → FMap.find 0 u.tide.bays b = 0)

/-- The sweeper, the overload count and the fill (R257, R260, R267, R503): the next near bay's pages decay, a ms with dropped hints lengthens
the run, and each slot that is being filled, and where no other request waits (R502), has one bay more. -/
def Obligations.SweeperAndFillAdvance : Prop :=
  (∀ (s : State) (b : Nat), (s.dev.state = .service ∨ s.dev.state = .degraded) →
      s.nearUsed.find? (fun x => decide (s.tide.sweepAt ≤ x)) = some b → (s.ebbOn = false ∨ s.queuedJobs < 4096) →
      (∀ q ∈ s.pagesIn b, (s.entry q).bad = false ∧ s.pageFaulted q = false ∧ (s.entry q).pstate ≠ .shared
        ∧ (s.tide.mapCache.contains q || s.pristine (State.mapKey q)) = true) →
    ∃ u, Leaves .sweeperVisit s u ∧ s.changesOnly u [.dev, .objs, .tide, .mgmt] ∧ u.tide.sweepAt = b + 1
      ∧ (∀ q ∈ s.pagesIn b, u.entry q = { s.entry q with acc := s.decayed (s.entry q), epoch := s.epochNow % 256 })
      ∧ ∀ q, q ∉ s.pagesIn b → u.entry q = s.entry q)
  ∧ (∀ s : State, ∃ u, Leaves .migOverloadMs s u ∧ s.changesOnly u [.objs, .tide, .aon, .mgmt, .out]
      ∧ u.tide = { s.tide with ovlRun := if s.tide.dropped then s.tide.ovlRun + 1 else 0, dropped := false }
      ∧ u.num (okey 0x3004 1) = u.tide.ovlRun)
  ∧ (∀ s : State, (s.dev.state = .service ∨ s.dev.state = .degraded) →
    ∃ u, Leaves .farBayAvailable s u ∧ s.changesOnly u [.tide, .path]
      ∧ ∀ n, u.slot n = if s.fillSlots.contains n ∧ s.fillHeld n = false then { s.slot n with filled := (s.slot n).filled + 1 } else s.slot n)

/-- Lent ranges and their reads (R280–R284): a range is registered and withdrawn, a good completion delivers its granule and ends the run of
timeouts, and a timed-out read is taken from the far copy. -/
def Obligations.LentRangesServeReads : Prop :=
  (∀ (s : State) (w : Who) (r : Fin 64), w.ok = true →
    (s.lent r = LentRange.free → 0 < s.num (Obj.lentLength r) → s.num (Obj.lentLength r) ≤ 2 ^ 38 → s.num (Obj.lentLength r) % 65536 = 0 →
        s.num (Obj.lentBusBase r) % 65536 = 0 →
      s.obeys (.lentRegister w r) w (Obj.lentAction r) [1] [.event 0x2020 r] [.objs, .tide, .aon, .mgmt, .out]
        (fun u => u.lent r = ⟨true, false, false, s.num (Obj.lentBusBase r), s.num (Obj.lentLength r), 0, none⟩ ∧ u.num (Obj.lentStatus r) = 0
          ∧ ∀ q, q ≠ r.val → u.lent q = s.lent q))
    ∧ ((s.lent r).active = true → (s.lent r).draining = false → s.lentPagesOf r = [] → s.tide.jobs = [] →
      s.begins (.lentWithdraw w r) w (Obj.lentAction r) [2] [] [.objs, .tide, .mgmt]
        (fun u => u.lent r = { s.lent r with active := false, draining := true, reply := some w })))
  ∧ (∀ (s : State) (r : Fin 64) (w : Who), (w.path = .t1s ∨ (w.path = .window ∧ w.peer = 0)) → (s.lent r).draining = true →
      (s.lent r).reply = some w → s.tide.lentRds = [] → s.lentPagesOf r = [] → s.tide.jobs = [] → s.tide.leaving = [] →
    ∃ u, Leaves (.withdrawComplete r) s u ∧ s.changesOnly u [.objs, .tide, .aon, .mgmt, .out] ∧ u.lent r = LentRange.free
      ∧ s.replied u w .ok [.event 0x2021 r])
  ∧ (∀ (s : State) (x : LentRead) (r : Req) (k : Nat), s.tide.lentRds = [x] → x.st = .issued → x.keys = [k] → s.req x.req = some r →
    (k ∈ r.need → r.need.filter (· != k) ≠ [] → (r.tweaks.find? (fun e => e.1 == k)).map (·.2) = some (s.seenTweak k) →
      ∃ u, Leaves (.lentReadCompletion x.id true) s u ∧ s.changesOnly u [.path, .tide] ∧ u.tide.lentRds = [] ∧ (u.lent x.range).run = 0
        ∧ u.req x.req = some { r with need := r.need.filter (· != k), got := r.got ++ [(k, ⟨s.memGran k, (s.gmeta k).poison⟩)] })
    ∧ (∀ g, (s.entry r.page).pstate = .resident → (s.entry r.page).role = .lower → (s.entry r.page).a.tier = 3 →
        (List.range (s.entry r.page).a.len).find? (fun g => (s.entry r.page).a.key g == k) = some g →
        keyTier ((s.entry r.page).b.key g) ≠ 3 → (s.lent x.range).run + 1 < s.num Obj.lentFailCount →
      ∃ u, Leaves (.lentReadTimeout x.id) s u ∧ s.changesOnly u [.dev, .objs, .path, .tide, .dram] ∧ u.tide.lentRds = []
        ∧ x.id ∈ u.tide.lentGone.map (·.1) ∧ (u.lent x.range).run = (s.lent x.range).run + 1
        ∧ u.num Obj.lentTimeouts = s.num Obj.lentTimeouts + 1
        ∧ ∃ a ∈ (u.chan (chanOf ((s.entry r.page).b.key g))).wait, a.write = false ∧ a.owner = some x.req
          ∧ a.keys = [(s.entry r.page).b.key g]))

/-- Clones (R268–R272): START takes the ranges and replies later, and the last page's install points both pages at one share record with two
references and replies. -/
def Obligations.ClonesShareTheirPages : Prop :=
  (∀ (s : State) (w : Who), w.ok = true → s.tide.clone = none → s.cloneOk = true → s.cloneNeeds ≤ s.sharesFree → s.dir.ents = [] → s.dir.txns = [] →
      s.dir.censusBad = [] →
    s.begins (.cloneStart w) w Obj.cloneAction [1] [] [.objs, .tide, .mgmt]
      (fun u => u.tide = { s.tide with clone := some ⟨s.num Obj.cloneSrcOffset / 65536, s.num Obj.cloneDstOffset / 65536, s.num Obj.clonePages, w⟩ }
        ∧ u.num Obj.cloneDone = 0))
  ∧ (∀ (s : State) (c : Clone), (s.dev.state = .service ∨ s.dev.state = .degraded) → s.tide.clone = some c → c.left = 1 → s.cloneReady c = true →
      (c.who.path = .t1s ∨ (c.who.path = .window ∧ c.who.peer = 0)) → c.src ≠ c.dst → (s.entry c.src).pstate = .resident →
      (s.entry c.dst).pstate = .unwritten → (s.entry c.dst).a = Copy.none → (s.entry c.dst).b = Copy.none → s.tide.shares = [] →
      (s.entry c.src).bad = false → (s.tide.mapCache.contains c.src || s.pristine (State.mapKey c.src)) = true → s.stripeFaulted c.src = false →
      s.copyFenced (s.entry c.src).a = false →
    ∃ u evs, Leaves .clonePageInstall s u ∧ u.tide.clone = none ∧ s.replied u c.who .ok evs ∧ Out.event 0x2040 0 ∈ evs
      ∧ (u.entry c.src).pstate = .shared ∧ (u.entry c.dst).pstate = .shared ∧ (u.entry c.src).share = (u.entry c.dst).share
      ∧ (u.share (u.entry c.dst).share).refs = 2 ∧ (u.share (u.entry c.dst).share).a = (s.entry c.src).a
      ∧ (u.share (u.entry c.dst).share).version = (s.entry c.src).version ∧ u.num Obj.cloneDone = s.num Obj.cloneDone + 1
      ∧ u.num Obj.cloneStatus = 0)

/-- Far-slot service (R285–R293, R482): evacuate, cancel, power off, off, return and the end of the fill, each with its event and the slot's
state. -/
def Obligations.FarSlotService : Prop :=
  (∀ (s : State) (w : Who) (n : Nat), w.ok = true → s.num Obj.slotSelect = n → n < 48 →
    ((s.slot n).st = .inService → s.farLimits ≤ s.farReservable - s.slotPages n → (∀ i < 48, i ≠ n → (s.slot i).st ≠ .evacuating) → s.pagesOn n = [] →
        s.usedBays (8 + n) = 0 → s.tide.jobs = [] →
      s.obeys (.evacuate w) w Obj.slotAction [1] [.event 0x2010 n, .event 0x2011 n] [.objs, .tide, .aon, .mgmt, .out]
        (fun u => u.slot n = { s.slot n with st := .evacuated } ∧ u.num Obj.slotActionStatus = 0))
    ∧ ((s.slot n).st = .evacuating → s.tide.jobs = [] →
      s.obeys (.slotCancel w) w Obj.slotAction [4] [.event 0x2012 n] [.objs, .tide, .aon, .mgmt, .out]
        (fun u => u.slot n = { s.slot n with st := .inService } ∧ u.num Obj.slotActionStatus = 0))
    ∧ ((s.slot n).st = .evacuated →
      s.obeys (.powerOff w) w Obj.slotAction [2] [] [.objs, .tide, .dram, .mgmt, .out]
        (fun u => (u.slot n).st = .evacuated ∧ (u.chan (256 + n / 2)).sr = .held ∧ u.num Obj.slotActionStatus = 0))
    ∧ (∀ x : Spd, (s.slot n).st = .off → bit (s.num Obj.fencedChannels) (n / 2) = false → x.accepted = true → s.flash.rows = [] →
      s.obeys (.return_ w (some x) true true) w Obj.slotAction [3] [.event 0x2014 n] [.objs, .tide, .dram, .aon, .mgmt, .out]
        (fun u => u.slot n = { FarSlot.empty with st := .filling, spd := some x } ∧ (u.unit (8 + n / 2)).st = .inService
          ∧ u.num Obj.slotActionStatus = 0)))
  ∧ (∀ (s : State) (n : Fin 48),
    ((s.slot n).st = .evacuated → (s.chan (256 + n / 2)).sr = .held →
      ∃ u, Leaves (.slotOff n) s u ∧ s.changesOnly u [.objs, .tide, .dram, .aon, .mgmt, .out] ∧ (u.slot n).st = .off
        ∧ (u.chan (256 + n / 2)).sr = .no ∧ u.out = s.out ++ [.event 0x2013 n])
    ∧ ((s.slot n).st = .filling →
      ∃ u, Leaves (.slotFillComplete n) s u ∧ u.slot n = { s.slot n with st := .inService, filled := s.bayCount (8 + n) }
        ∧ bit (u.num Obj.fencedSlots) n = false ∧ s.sent u (.event 0x2015 n)))

/-- Upkeep of the DRAM banks (R451, R457, R462, R472, R473, R477): precharge, refresh or its postponement, the row-disturb window, a scheduled
recalibration, and its end with the margin. -/
def Obligations.DramUpkeep : Prop :=
  (∀ (s : State) (c : Chan) (bank : BitVec 9), ∃ u, Leaves (.bankIdleTimeout c bank) s u ∧ s.changesOnly u [.dram]
      ∧ (∀ row, (bank.toNat, row) ∉ (u.chan (chanNum c)).openRow)
      ∧ (∀ b row, b ≠ bank.toNat → ((b, row) ∈ (u.chan (chanNum c)).openRow ↔ (b, row) ∈ (s.chan (chanNum c)).openRow))
      ∧ (u.chan (chanNum c)).rq = (s.chan (chanNum c)).rq ∧ (u.chan (chanNum c)).wq = (s.chan (chanNum c)).wq)
  ∧ (∀ (s : State) (c : Chan), s.chanServes (chanNum c) = true → (s.chan (chanNum c)).sr = .no → s.dev.state ≠ .hold →
    ((s.chan (chanNum c)).rq ≠ [] ∨ (s.chan (chanNum c)).wq ≠ [] →
      ∃ u, Leaves (.refreshDue c) s u ∧ s.changesOnly u [.dram] ∧ (u.chan (chanNum c)).owed = (s.chan (chanNum c)).owed + 1
        ∧ (u.chan (chanNum c)).openRow = (s.chan (chanNum c)).openRow)
    ∧ ((s.chan (chanNum c)).rq = [] → (s.chan (chanNum c)).wq = [] → (s.chan (chanNum c)).recal = false →
      ∃ u, Leaves (.refreshDue c) s u ∧ s.changesOnly u [.dram] ∧ (u.chan (chanNum c)).owed = 0 ∧ (u.chan (chanNum c)).openRow = []))
  ∧ (∀ (s : State) (m : Fin 24) (rank : BitVec 3), ∃ u, Leaves (.rdWindowEnd m rank) s u ∧ s.changesOnly u [.dram]
      ∧ ∀ bank, FMap.find [] (u.chan (256 + m)).rd bank
        = if bank / 256 * 4 + bank / 32 % 4 = rank.toNat then [] else FMap.find [] (s.chan (256 + m)).rd bank)
  ∧ (∀ (s : State) (c : Chan), s.chanServes (chanNum c) = true →
    ∃ u, Leaves (.recalDue c) s u ∧ s.changesOnly u [.dram] ∧ u.chan (chanNum c) = { s.chan (chanNum c) with recalDue := true })
  ∧ (∀ (s : State) (m : Fin 24) (n : Nat), s.chanServes (256 + m) = true →
    ∃ u, Leaves (.driftCheck m n) s u ∧ s.changesOnly u [.dram]
      ∧ (u.chan (256 + m)).recalDue = ((s.chan (256 + m)).recalDue || decide (s.num Obj.farDriftLimit < n)))
  ∧ (∀ (s : State) (c : Chan) (margin : BitVec 16), (s.chan (chanNum c)).recal = true →
    let eye : Nat := match c with | .near k _ => Obj.stackEyeMargin k | .far m => Obj.chEyeMargin m
    let done : Nat := match c with | .near k _ => Obj.stackRecals k | .far m => Obj.chRecals m
    let name : Nat := match c with | .near k _ => k.val | .far m => 8 + m.val
    (∃ u, Leaves (.recalComplete c true margin) s u ∧ s.changesOnly u [.objs, .dram] ∧ (u.chan (chanNum c)).recal = false
        ∧ u.num eye = margin.toNat ∧ u.num done = s.num done + 1 ∧ (u.chan (chanNum c)).recFails = 0)
    ∧ ((s.chan (chanNum c)).recFails < 2 → s.chanServes (chanNum c) = true →
      ∃ u, Leaves (.recalComplete c false margin) s u ∧ s.changesOnly u [.objs, .dram, .aon, .mgmt, .out]
        ∧ (u.chan (chanNum c)).recalDue = true ∧ (u.chan (chanNum c)).recFails = (s.chan (chanNum c)).recFails + 1
        ∧ u.out = s.out ++ [.event 0x6004 name]))
  ∧ (∀ (s : State) (w : Who) (m : Fin 24), w.ok = true → s.chanServes (256 + m) = true →
    s.obeys (.recalNow w (.chan m) 1) w (Obj.chRecalNow m) (leBytes 1 1) [] [.objs, .dram, .mgmt, .out]
      (fun u => (u.chan (256 + m)).recalDue = true))
  ∧ (∀ (s : State) (w : Who) (k : Fin 8), w.ok = true → (s.unit k).st = .inService →
    s.obeys (.recalNow w (.stack k) 1) w (Obj.stackRecalNow k) (leBytes 1 1) [] [.objs, .dram, .mgmt, .out]
      (fun u => ∀ c < 32, (u.chan (32 * k + c)).recalDue = true))

/-- Idle self-refresh, temperatures and training (R454–R456, R465–R471, R480, R481): an idle channel enters and leaves self-refresh, a DIMM's
readings set its rate with hysteresis, three failed polls assume it hot, and training ends in service or tries again. -/
def Obligations.SelfRefreshHeatAndTraining : Prop :=
  (∀ (s : State) (m : Fin 24), bit (s.num Obj.idleSrEnable) m = true → (s.dev.state = .service ∨ s.dev.state = .degraded) →
      s.chanServes (256 + m) = true → (s.chan (256 + m)).sr = .no → (s.chan (256 + m)).recal = false →
    ((s.chan (256 + m)).wait = [] → (s.chan (256 + m)).rq = [] → (s.chan (256 + m)).wq = [] → (s.chan (256 + m)).flight = [] →
      ∃ u, Leaves (.srEntry m) s u ∧ s.changesOnly u [.objs, .dram] ∧ (u.chan (256 + m)).sr = .idle ∧ (u.chan (256 + m)).openRow = []
        ∧ u.num (Obj.chSrEntries m) = s.num (Obj.chSrEntries m) + 1)
    ∧ ((s.chan (256 + m)).wait ≠ [] → ∃ u, Leaves (.srEntry m) s u ∧ s.changesOnly u [.objs]
        ∧ u.num (Obj.chSrAborts m) = s.num (Obj.chSrAborts m) + 1))
  ∧ (∀ (s : State) (m : Fin 24), (s.chan (256 + m)).sr = .exiting →
    ∃ u, Leaves (.srExitComplete m) s u ∧ s.changesOnly u [.dram] ∧ u.chan (256 + m) = { s.chan (256 + m) with sr := .no })
  ∧ (∀ (s : State) (n : Fin 48), (s.slot n).st = .inService →
    (∀ a b : Int, ∃ u, Leaves (.dimmTempPoll n (some (a, b))) s u ∧ s.changesOnly u [.objs, .tide, .aon, .mgmt, .out]
        ∧ u.slot n = { s.slot n with temp := max a b, fails := 0
                                     hot := if 85000 < max a b then true else if max a b ≤ 83000 then false else (s.slot n).hot
                                     fast := if 85000 < max a b then true else if max a b ≤ 83000 then false else (s.slot n).hot })
    ∧ (∃ u, Leaves (.dimmTempPoll n none) s u ∧ s.changesOnly u [.objs, .tide, .aon, .mgmt, .out] ∧ s.sent u (.event 0x6031 n)
        ∧ u.slot n = { s.slot n with fails := (s.slot n).fails + 1, fast := (s.slot n).fast || decide (3 ≤ (s.slot n).fails + 1) }))
  ∧ (∀ (s : State) (x : DUnit), (s.unit (dunitNum x)).st = .training → s.flash.rows = [] →
    (∃ u, Leaves (.trainingAttemptDone x true) s u ∧ s.changesOnly u [.objs, .tide, .dram, .aon, .mgmt, .out]
        ∧ u.unit (dunitNum x) = { s.unit (dunitNum x) with st := .inService } ∧ u.out = s.out ++ [.event 0x6001 (dunitNum x)])
    ∧ ((s.unit (dunitNum x)).attempts < 2 →
      ∃ u, Leaves (.trainingAttemptDone x false) s u ∧ s.changesOnly u [.objs, .dram, .aon, .mgmt, .out]
        ∧ u.unit (dunitNum x) = { s.unit (dunitNum x) with attempts := (s.unit (dunitNum x)).attempts + 1 }
        ∧ u.out = s.out ++ [.event 0x6002 (dunitNum x)]))

/-- Scrubbing, row remaps, repairs, fills and realm keys (R500, R501, R507, R511, R514, R516, R524–R528). -/
def Obligations.IntegrityUpkeep : Prop :=
  (∀ (s : State) (k : Fin 8), (s.dev.state = .service ∨ s.dev.state = .degraded) → (∀ e ∈ s.dram.chans, e.2.sr ≠ .idle) →
    ∃ u, Leaves (.scrubBurst k []) s u ∧ s.changesOnly u [.dram] ∧ u.dram.mem = s.dram.mem ∧ u.dram.chans = s.dram.chans
      ∧ FMap.find 0 u.dram.scrub k = min (s.sliceSize k) (FMap.find 0 s.dram.scrub k + 4096))
  ∧ (∀ (s : State) (k : Fin 8),
    (∃ u, Leaves (.scrubPeriodEnd k true) s u ∧ s.changesOnly u [.objs, .dram, .aon, .mgmt, .out] ∧ FMap.find 0 u.dram.scrub k = 0
        ∧ u.num Obj.scrubPasses = s.num Obj.scrubPasses + 1 ∧ u.out = s.out ++ [.event 0x700C k])
    ∧ (∃ u, Leaves (.scrubPeriodEnd k false) s u ∧ u.num Obj.scrubBehind = 1 ∧ u.num Obj.lastSafetyEvent = 0x700D
        ∧ s.sent u (.event 0x700D k)))
  ∧ (∀ (s : State) (c : Chan) (i : BitVec 4) (row : Nat), (s.chan (chanNum c)).remap = [(i.toNat, ⟨.installing, row⟩)] →
      (∀ e ∈ s.dram.gmeta, e.2.errs = []) →
    ∃ u, Leaves (.remapInstallDone c i) s u ∧ s.changesOnly u [.objs, .dram, .aon, .mgmt, .flash, .out]
      ∧ (u.chan (chanNum c)).remap = [(i.toNat, ⟨.remapped, row⟩)] ∧ u.num Obj.remapsTotal = s.num Obj.remapsTotal + 1
      ∧ (⟨chanNum c, s.rowSerial (chanNum c) row, row, false⟩ : StoredRow) ∈ u.flash.rows ∧ u.dram.mem = s.dram.mem
      ∧ u.out = s.out ++ [.event 0x7008 (chanNum c)])
  ∧ (∀ (s : State) (c : Chan) (i : BitVec 4) (row : Nat), (s.chan (chanNum c)).remap = [(i.toNat, ⟨.remapped, row⟩)] → s.num Obj.pprEnable = 1 →
    ∃ u, Leaves (.softRepairDone c i) s u ∧ s.changesOnly u [.objs, .dram, .aon, .mgmt, .flash, .out]
      ∧ (u.chan (chanNum c)).remap = [] ∧ u.num Obj.repairsTotal = s.num Obj.repairsTotal + 1
      ∧ (⟨chanNum c, s.rowSerial (chanNum c) row, row, true⟩ : StoredRow) ∈ u.flash.rows ∧ u.dram.mem = s.dram.mem
      ∧ u.out = s.out ++ [.event 0x700A (chanNum c)])
  ∧ (∀ s : State, s.num Obj.nearFillState = 1 →
    ∃ u, Leaves .nearFillComplete s u ∧ s.changesOnly u [.objs, .aon, .mgmt, .out] ∧ u.num Obj.nearFillState = 2 ∧ u.out = s.out ++ [.event 0x700E 0])
  ∧ (∀ s : State, (s.dev.state = .service ∨ s.dev.state = .degraded) → s.dram.farDone = false →
    ∃ u, Leaves .farFillComplete s u ∧ s.changesOnly u [.objs, .path, .tide, .dram, .aon, .mgmt, .out] ∧ u.dram = { s.dram with farDone := true }
      ∧ (∀ n < 48, (s.slot n).st = .inService → (u.slot n).filled = s.bayCount (8 + n)) ∧ u.out = s.out ++ [.event 0x700F 0])
  ∧ (∀ (s : State) (w : Who) (r : BitVec 8), w.ok = true →
    (s.realmOn r.toNat = false →
      s.obeys (.realmEnable w r) w (Obj.realmAction r.toNat) [1] [] [.dev, .objs, .ctl, .mgmt, .out]
        (fun u => u.realmOn r.toNat = true ∧ u.num (Obj.realmKeyGeneration r.toNat) = s.num (Obj.realmKeyGeneration r.toNat) + 1
          ∧ u.num (Obj.realmStatus r.toNat) = 0 ∧ ∀ q, q ≠ r.toNat → u.realmOn q = s.realmOn q))
    ∧ (r ≠ 0 → s.realmRegions r.toNat = 0 →
      s.obeys (.realmDisable w r) w (Obj.realmAction r.toNat) [2] [] [.objs, .ctl, .dram, .mgmt, .out]
        (fun u => u.realmOn r.toNat = false ∧ u.num (Obj.realmStatus r.toNat) = 0 ∧ ∀ q, q ≠ r.toNat → u.realmOn q = s.realmOn q)))
  ∧ (∀ (s : State) (k : Fin 8) (r : BitVec 8), s.realmOn r.toNat = true →
    (∃ u, Leaves (.keyReloadDone k r true) s u ∧ s.changesOnly u [.objs, .aon, .mgmt, .out] ∧ u.out = s.out ++ [.event 0x7013 (k + 256 * r.toNat)])
    ∧ (∃ u, Leaves (.keyReloadDone k r false) s u ∧ (k.val, r.toNat) ∈ u.dram.keyBad ∧ u.num Obj.lastSafetyClass = 6
        ∧ s.sent u (.event 0x7013 (k + 256 * r.toNat + 2 ^ 31))))

/-- The checkers and the alert (R541–R549, Table 11-4, Table 11-7): a passed test is recorded, a failed one reports and fences its scope, a
period without misses ends quietly, and the alert's acknowledge, test and forced SAFE. -/
def Obligations.CheckersAndAlert : Prop :=
  (∀ (s : State) (c : Checker), s.aon.round.length + 1 < checkerCount →
    ∃ u, Leaves (.selftestVector c true) s u ∧ s.changesOnly u [.objs, .aon] ∧ checkerNum c ∈ u.aon.tested ∧ checkerNum c ∈ u.aon.round
      ∧ FMap.find s.dev.startAt u.aon.testAt (checkerNum c) = s.dev.now ∧ u.num Obj.selftestFails = s.num Obj.selftestFails)
  ∧ (∀ (s : State) (p : Fin 16), s.ports[p].state = .up →
    ∃ u, Leaves (.selftestVector (.flitCrc p) false) s u ∧ u.ports[p].state = .fenced ∧ u.ports[p].fence = .checker
      ∧ bit (u.num Obj.fencedPorts) p = true ∧ u.num Obj.selftestLastFail = checkerNum (.flitCrc p)
      ∧ u.num Obj.selftestFails = s.num Obj.selftestFails + 1 ∧ s.sent u (.event 0x8040 (checkerNum (.flitCrc p))))
  ∧ (∀ s : State, (∀ n < checkerCount, n ∈ s.aon.tested) →
    ∃ u, Leaves .selftestPeriodEnd s u ∧ s.changesOnly u [.aon] ∧ u.aon = { s.aon with tested := [], missed := [] })
  ∧ (∀ s : State, ∃ u, Leaves (.configCompareSweep (some true)) s u ∧ s.changesOnly u [.objs, .ports, .aon, .mgmt, .out]
      ∧ u.num Obj.lastSafetyEvent = 0x8042 ∧ u.dev.state = s.dev.state ∧ s.sent u (.event 0x8042 0))
  ∧ (∀ (s : State) (w : Who), w.ok = true →
    s.obeys (.safetyAck w 1) w Obj.safetyAck (leBytes 1 1) [.event 0x8050 0] [.objs, .aon, .mgmt, .out]
        (fun u => u.num Obj.alertPending = s.latchedNow ∧ (s.dev.alertTest = false → s.latchedNow = 0 → u.alertN = false))
    ∧ s.obeys (.alertTest w 1) w Obj.alertTest (leBytes 1 1) [.event 0x8051 0] [.dev, .objs, .ports, .aon, .mgmt, .out]
        (fun u => u.alertN = true ∧ u.dev = { s.dev with alertTest := true })
    ∧ (s.allows w Obj.forceSafe (leBytes 1 0x5A) → ∃ u evs, Leaves (.forceSafe w 0x5A) s u ∧ u.dev.state = .safe ∧ u.num Obj.safeCause = 7
        ∧ u.path.reqs = [] ∧ u.path.waiters = [] ∧ s.replied u w .ok evs ∧ Out.event 0x8030 7 ∈ evs))
  ∧ (∀ s : State, Leaves .alertTestEnd s { s with dev := { s.dev with alertTest := false } })

/-! ## The host endpoint -/

/-- The host's memory TLPs (R571–R577, Table 12-3): a read of an UNWRITTEN page returns zeros, a full-line write waits at its channels with
its data, an AtomicOp returns the old value and leaves the new one, and what E1 does not decode or support returns Unsupported Request. -/
def Obligations.HostTlpsAreServed : Prop :=
  (∀ (s : State) (t : Tlp) (l : State.Line) (m : Mode),
    let k := lineOf (addrOff (BitVec.ofNat 64 l.addr))
    t.ok 4096 = true → s.readLines (s.bar2Addr t.off.toNat) t.len = [l] → l.op = .readHalf → s.tlpReaches l.addr .readHalf 0 m →
      s.calm k = true → (s.line k).st = .uncached → s.storeLine k = none → (s.entry (k / 512)).pstate = .unwritten →
    ∃ u, Leaves (.memoryReadTlp t) s u ∧ u.num Obj.epReadTlps = s.num Obj.epReadTlps + 1
      ∧ let v := u.pumpH8.settle.deliverEp
        s.sent v (.tlpCpl t.id 0 false (zeros l.n)) ∧ s.changesOnly v [.dev, .objs, .path, .dir, .tide, .ctl, .aon, .mgmt, .out]
          ∧ v.tide = { s.tide with mapCache := v.tide.mapCache })
  ∧ (∀ (s : State) (t : Tlp) (be : List Bool) (data : List Byte) (l : State.Line) (d : List Byte) (m : Mode),
    let k := lineOf (addrOff (BitVec.ofNat 64 l.addr))
    let a := (s.entry (k / 512)).a
    let g := k * 2 % 1024
    t.ok 512 = true → be.length = t.len → data.length = t.len → t.ep = false →
      State.writeLines (s.bar2Addr t.off.toNat) be data false = [l] → l.op = .write d → s.tlpReaches l.addr (.write d) 0 m →
      s.calm k = true → s.rawPage (k / 512) = true → (s.line k).st = .uncached → s.storeLine k = none → s.path.store = [] →
      s.keyFenced (a.key g) = false → s.keyFenced (a.key (g + 1)) = false →
    ∃ u, Leaves (.memoryWriteTlp t be data) s u ∧ u.num Obj.epWriteTlps = s.num Obj.epWriteTlps + 1
      ∧ let v := u.pumpH8.settle
        v.writeWaits (s.dev.serial + 1) (s.granAt (k / 512) a (State.v0Of m) g ⟨slice d 0 64, false⟩)
          ∧ v.writeWaits (s.dev.serial + 1) (s.granAt (k / 512) a (State.v0Of m) (g + 1) ⟨slice d 64 64, false⟩)
          ∧ v.dram.mem = s.dram.mem ∧ v.dram.gmeta = s.dram.gmeta)
  ∧ (∀ (s : State) (t : Tlp) (m : Mode) (x : StoreLine),
    let p := s.bar2Addr t.off.toNat
    let k := lineOf (addrOff (BitVec.ofNat 64 p))
    let line := x.lo.bytes ++ x.hi.bytes
    let o := p % 128
    let n := t.len
    let old := leNat (slice line o n)
    let held (op : ReqOp) : Prop := t.ok 8 = true ∧ (n = 4 ∨ n = 8) ∧ s.tlpReaches p op (State.atomAttr n) m ∧ s.calm k = true
      ∧ (s.line k).st = .home ∧ (s.entry (k / 512)).pstate = .unwritten ∧ s.storeLine k = some x ∧ x.filling = false
      ∧ x.leaving = false ∧ x.badPar = false ∧ x.lo.poison = false ∧ x.hi.poison = false ∧ x.lo.bytes.length = 64
      ∧ x.hi.bytes.length = 64 ∧ s.num Obj.aluFlipMask = 0
    let gives (u : State) (bs : List Byte) : Prop := let v := u.pumpH8.settle.deliverEp
      s.sent v (.tlpCpl t.id 0 false (leBytes n old)) ∧ s.changesOnly v [.dev, .objs, .path, .dir, .tide, .ctl, .aon, .mgmt, .out]
          ∧ v.tide = { s.tide with mapCache := v.tide.mapCache }
        ∧ ∃ y, v.storeLine k = some y ∧ y.lo.bytes ++ y.hi.bytes = bs ∧ y.lo.poison = false ∧ y.hi.poison = false
    (∀ a : U64, held (.add a) → ∃ u, Leaves (.fetchAddTlp t a) s u
        ∧ gives u (patch line o (leBytes n ((old + a.toNat) % 2 ^ (8 * n)))))
    ∧ (∀ c w : U64, held (.cas c w) → ∃ u, Leaves (.casTlp t c w) s u
        ∧ gives u (if old = c.toNat % 2 ^ (8 * n) then patch line o (leBytes n (w.toNat % 2 ^ (8 * n))) else line)))
  ∧ (∀ (s : State) (t : Tlp), t.ok 32 = true → s.decodes = true →
    ∃ u, Leaves (.swapTlp t) s u ∧ s.changesOnly u [.objs, .out] ∧ u.out = s.out ++ [.tlpCpl t.id 1 false []]
      ∧ u.num Obj.epUrSent = s.num Obj.epUrSent + 1)
  ∧ (∀ (s : State) (t : Tlp), t.ok 4096 = true → s.decodes = false → s.ep.flr = false → s.ep.perst = false → s.ep.linkUp = true →
    ∃ u, Leaves (.memoryReadTlp t) s u ∧ s.changesOnly u [.objs, .out] ∧ u.out = s.out ++ [.tlpCpl t.id 1 false []])

/-- Configuration requests and the host's registers (R566, R567, R578–R586, R597, Table 12-6): each write takes effect on its own field,
and a request before the endpoint is ready is retried. -/
def Obligations.HostRegistersTakeWrites : Prop :=
  (∀ (s : State) (id : Nat) (op : CfgOp), s.ep.perst = false → s.ep.linkUp = true → (s.ep.ready = false ∨ s.ep.flr = true) →
    ∃ u, Leaves (.configRequest id op) s u ∧ s.changesOnly u [.out] ∧ u.out = s.out ++ [.cfgCpl id true])
  ∧ (∀ (s : State) (id : Nat), s.ep.perst = false → s.ep.linkUp = true → s.ep.ready = true → s.ep.flr = false →
    let quietly (op : CfgOp) (e : Ep) : Prop := ∃ u, Leaves (.configRequest id op) s u ∧ s.changesOnly u [.ep, .out] ∧ u.ep = e
      ∧ u.out = s.out ++ [.cfgCpl id false]
    quietly .read s.ep ∧ quietly .other s.ep
    ∧ (∀ b, quietly (.memEnable b) { s.ep with memEnable := b }) ∧ (∀ b, quietly (.pmeEn b) { s.ep with pmeEn := b })
    ∧ (∀ b, quietly (.rcb128 b) { s.ep with rcb128 := b }) 
    ∧ (∃ u, Leaves (.configRequest id (.busMaster true)) s u ∧ s.changesOnly u [.objs, .ep, .out] ∧ u.ep = { s.ep with busMaster := true }
        ∧ u.out = s.out ++ [.cfgCpl id false]
        ∧ (s.mastering = false → s.ep.dState = 0 → ∀ ch < 4, u.num (Obj.dmaState ch) ≠ 3))
    ∧ (∀ us, 50 ≤ us → us ≤ 4000000 → quietly (.cplTimeout us) { s.ep with timeoutUs := us })
    ∧ (s.ep.intxCause = 0 → (∀ b, quietly (.intDisable b) { s.ep with intDis := b })
        ∧ (∀ b, quietly (.msixEnable b) { s.ep with msixEn := b }))
    ∧ (s.tide.lentRds = [] → ∀ b, quietly (.atsEnable b) { s.ep with atsEn := b, atc := [] })
    ∧ (∃ u, Leaves (.configRequest id (.busMaster false)) s u ∧ u.ep = { s.ep with busMaster := false }
        ∧ (s.ep.busMaster = true → s.ep.dState = 0 → s.sent u (.event 0xC018 0)
            ∧ ∀ ch < 4, u.num (Obj.dmaState ch) = if s.num (Obj.dmaState ch) = 0 then 3 else s.num (Obj.dmaState ch)))
    ∧ (s.ep.dState = 0 → ∃ u, Leaves (.configRequest id (.dState 3)) s u ∧ u.ep = { s.ep with dState := 3 } ∧ s.sent u (.event 0xC004 3)
        ∧ s.sent u (.cfgCpl id false)))
  ∧ (∀ (s : State), s.decodes = true →
    (∀ v : U64, ∃ u, Leaves (.registerWrite .shadowAddr v) s u ∧ s.changesOnly u [.ep] ∧ u.ep = { s.ep with shadow := v })
    ∧ (∀ v : U64, s.mgmt.ring.st = 0 → ∃ u, Leaves (.registerWrite .ringBase v) s u ∧ s.changesOnly u [.ep]
        ∧ u.ep = { s.ep with ringBase := v })
    ∧ (∀ (d : Fin 56) (v : U64), ∃ u, Leaves (.registerWrite (.doorOperand d) v) s u ∧ s.changesOnly u [.ep]
        ∧ u.door d = { s.door d with operand := v } ∧ ∀ e, e ≠ d.val → u.door e = s.door e)
    ∧ (∀ (d : Fin 56) (v : U64), State.bolOfOpc (bits v.toNat 21 16) ≠ none → (s.door d).busy = true →
        ∃ u, Leaves (.registerWrite (.doorControl d) v) s u ∧ s.changesOnly u [.objs, .aon, .mgmt, .out]
          ∧ u.num Obj.doorBusyDrops = s.num Obj.doorBusyDrops + 1 ∧ u.out = s.out ++ [.event 0xC016 d])
    ∧ (∀ (i : Fin 128) (v : U64), ∃ u, Leaves (.registerWrite (.msixTable i) v) s u ∧ s.changesOnly u [.ep]
        ∧ FMap.find 0 u.ep.msix i = v ∧ ∀ j, j ≠ i.val → FMap.find 0 u.ep.msix j = FMap.find 0 s.ep.msix j)
    ∧ (∀ wr, ∃ u, Leaves (.bar0BadAccess wr) s u ∧ s.changesOnly u [.objs, .aon, .mgmt, .out]
        ∧ u.num Obj.bar0BadAccesses = s.num Obj.bar0BadAccesses + 1 ∧ u.out = s.out ++ [.event 0xC017 0] ++ (if wr then [] else [.onesRead]))
    ∧ (∀ v : U64, ∃ u, Leaves (.sqHeadWrite v) s u ∧ s.changesOnly u [.ep] ∧ u.ep = { s.ep with sqHead := v.toNat })
    ∧ (∀ v : U64, ∃ u, Leaves (.intxCauseWrite v) s u ∧ s.changesOnly u [.ep, .out]
        ∧ u.ep = { s.ep with intxCause := s.ep.intxCause &&& ~~~ v }
        ∧ u.out = s.out ++ (if u.inta = s.inta then [] else [.inta u.inta]))
    ∧ (∀ (tag : BitVec 12) (x : Snoop) (t : Txn), s.dir.snoops.find? (fun y => y.master == .ep && y.tag == tag && !y.waitWb) = some x →
        s.txn x.line = some t →
        ∃ u, Leaves (.snoopAnswer tag) s u ∧ s.changesOnly u [.objs, .path, .dir, .ep, .aon, .mgmt, .out]
          ∧ u.txn x.line = some { t with pend := t.pend - 1 }
          ∧ u.dir.snoops = s.dir.snoops.filter (fun y => !(y.master == .ep && y.tag == tag))
          ∧ u.ep = { s.ep with sqIn := s.ep.sqIn.filter (· != tag) }))

/-- Address translation and the device's own DMA (R588–R593): a translation lets its lent read go on, an invalidation ends once its reads
have ended, and a poisoned completion or a timeout halts a channel until DMA_RESTART. -/
def Obligations.TranslationsAndDma : Prop :=
  (∀ (s : State) (base len : Nat), ∃ u, Leaves (.invalidateRequest base len) s u ∧ s.changesOnly u [.ep]
      ∧ (∀ p, p ∈ u.ep.atc ↔ p ∈ s.ep.atc ∧ ¬ (base < p * 65536 + 65536 ∧ p * 65536 < base + len))
      ∧ ∃ rs, u.ep.inval = s.ep.inval ++ [⟨s.dev.now, rs⟩])
  ∧ (∀ (s : State) (x : Inval), s.ep.inval = [x] → (∀ i ∈ x.reads, (∀ q ∈ s.tide.lentRds, q.id ≠ i) ∧ i ∉ s.tide.lentGone.map (·.1)) →
    ∃ u, Leaves .invalidationComplete s u ∧ s.changesOnly u [.objs, .ep, .out] ∧ u.ep = { s.ep with inval := [] }
      ∧ u.num Obj.atsInvalidations = s.num Obj.atsInvalidations + 1 ∧ u.out = s.out ++ [.invalidated])
  ∧ (∀ (s : State) (x : LentRead), s.tide.lentRds = [x] → x.st = .translating →
    (∃ u, Leaves (.atsTranslationComplete x.id true) s u ∧ s.changesOnly u [.ep, .tide] ∧ u.tide = { s.tide with lentRds := [{ x with st := .formed }] }
        ∧ s.lentAddr (x.keys.headD 0) / 65536 ∈ u.ep.atc ∧ u.ep.atc.length ≤ 1024)
    ∧ (s.req x.req = none → (s.lent x.range).run + 1 < s.num Obj.lentFailCount →
      ∃ u, Leaves (.atsTranslationComplete x.id false) s u ∧ s.changesOnly u [.objs, .tide] ∧ u.tide.lentRds = []
        ∧ u.num Obj.atsDenials = s.num Obj.atsDenials + 1 ∧ (u.lent x.range).run = (s.lent x.range).run + 1))
  ∧ (∀ (s : State) (x : LentRead), s.tide.lentRds = [x] → x.st = .issued → s.req x.req = none →
    (∃ u, Leaves (.dmaCompletion 0 x.id false) s u ∧ s.changesOnly u [.tide] ∧ u.tide.lentRds = [] ∧ (u.lent x.range).run = 0)
    ∧ (∃ u, Leaves (.completionTimeout 0 x.id) s u ∧ s.changesOnly u [.objs, .tide, .aon, .mgmt, .out]
        ∧ u.tide.lentRds = [{ x with st := .expired }] ∧ u.num Obj.cplTimeouts = s.num Obj.cplTimeouts + 1 ∧ u.out = s.out ++ [.event 0xC012 0]))
  ∧ (∀ (s : State) (ch : Fin 4) (id : Nat), ch ≠ 0 →
    Leaves (.dmaCompletion ch id false) s s
    ∧ (∃ u, Leaves (.dmaCompletion ch id true) s u ∧ s.changesOnly u [.objs, .aon, .mgmt, .out] ∧ u.num (Obj.dmaState ch) = 2
        ∧ u.num (Obj.dmaHaltStatus ch) = Status.poison.code ∧ 5 ∈ u.aon.irqs ∧ u.out = s.out ++ [.event 0xC014 ch, .event 0x7016 ch])
    ∧ (2 ≤ ch.val → ∃ u, Leaves (.completionTimeout ch id) s u ∧ s.changesOnly u [.objs, .aon, .mgmt, .out] ∧ u.num (Obj.dmaState ch) = 2
        ∧ u.num (Obj.dmaHaltStatus ch) = Status.timeout.code ∧ 5 ∈ u.aon.irqs ∧ u.out = s.out ++ [.event 0xC012 ch, .event 0xC014 ch]))
  ∧ (∀ (s : State) (w : Who) (v : BitVec 32), w.ok = true →
    s.obeys (.dmaRestart w v) w Obj.dmaRestart (leBytes 4 v.toNat) [] [.objs, .mgmt, .out]
      (fun u => ∀ ch < 4, u.num (Obj.dmaState ch)
        = if v.getLsbD ch = true ∧ s.num (Obj.dmaState ch) = 2 then (if s.mastering then 0 else 3) else s.num (Obj.dmaState ch)))

/-- Function-level reset, PERST_N and the PCIe link (R565, R566, R594–R598, Table 12-11): what each sets and clears. -/
def Obligations.EndpointResetsAndLink : Prop :=
  (∀ s : State, s.ep.perst = false →
    let cut := s.ep.tlps.map (fun t => if t.kind = .write then t else { t with ended := true })
    (s.ep.ready = true → s.ep.flr = false →
      ∃ u, Leaves .functionLevelReset s u ∧ u.num Obj.flrCount = s.num Obj.flrCount + 1 ∧ u.num Obj.epGrants = 0
        ∧ u.ep = { Ep.reset with linkUp := s.ep.linkUp, flr := true, pmeEn := s.ep.pmeEn, ringBase := s.ep.ringBase, shadow := s.ep.shadow
                                 descGen := s.ep.descGen, tlps := cut }
        ∧ (∀ ch < 4, u.num (Obj.dmaState ch) = 0 ∧ u.num (Obj.dmaHaltStatus ch) = 0)
        ∧ u.dir.purges.any (fun q => q.who == .ep) = true ∧ ∀ w ∈ u.path.waiters, w.src ≠ .ep)
    ∧ (s.ep.flr = true → ∃ u, Leaves .flrComplete s u ∧ s.changesOnly u [.objs, .ep, .aon, .mgmt, .out]
        ∧ u.ep = { s.ep with flr := false, ready := true } ∧ u.out = s.out ++ [.event 0xC003 0])
    ∧ (∃ u, Leaves .perstNAssert s u ∧ u.ep.perst = true ∧ u.ep.linkUp = false ∧ u.ep.ready = false ∧ u.ep.busMaster = false
        ∧ u.ep.memEnable = false ∧ u.ep.dState = (if s.ep.dState = 3 then 4 else 0) ∧ u.num Obj.epLinkRate = 0 ∧ u.num Obj.epLinkWidth = 0
        ∧ s.sent u (.event 0xC005 0) ∧ (s.ep.linkUp = true → s.sent u (.event 0xC002 0)))
    ∧ (s.dev.state ≠ .off → s.dev.state ≠ .backup → s.dev.state ≠ .reset →
      (∀ width rate : BitVec 8, ∃ u, Leaves (.pcieLinkUp width rate) s u ∧ s.changesOnly u [.objs, .ep, .aon, .mgmt, .out]
          ∧ u.ep = { s.ep with linkUp := true } ∧ u.num Obj.epLinkRate = rate.toNat ∧ u.num Obj.epLinkWidth = width.toNat
          ∧ u.out = s.out ++ [.event 0xC001 (width.toNat + 256 * rate.toNat)])
      ∧ (s.ep.flr = false → ∃ u, Leaves .endpointReady s u ∧ s.changesOnly u [.ep] ∧ u.ep = { s.ep with ready := true }))
    ∧ (s.ep.linkUp = true → ∃ u, Leaves .pcieLinkDown s u ∧ s.changesOnly u [.objs, .ep, .aon, .mgmt, .out]
        ∧ u.ep = { s.ep with linkUp := false, tlps := cut } ∧ u.num Obj.epLinkRate = 0 ∧ u.num Obj.epLinkWidth = 0
        ∧ u.out = s.out ++ [.event 0xC002 0]))
  ∧ (∀ s : State, s.ep.perst = true →
    ∃ u, Leaves .perstNDeassert s u ∧ s.changesOnly u [.objs, .ep, .aon, .mgmt, .out]
      ∧ u.ep = { s.ep with perst := false, flr := false, dState := 0, wake := false }
      ∧ (s.ep.dState = 4 → s.sent u (.event 0xC004 0)))

/-! ## The host rings -/

/-- The host rings (R614–R624, R628–R630): ENABLE begins the binding or refuses it, binding ends with event 0x9010, OFFER agrees on
features or refuses, DISABLE gives region and session up, and the indices and the shadow follow their doorbells. -/
def Obligations.RingsFollowTheirDoorbells : Prop :=
  ∀ s : State,
    let r := s.mgmt.ring
    (r.st = 0 →
      s.rings .ringEnable .enable (fun v =>
        (s.num Obj.nearFillState ≠ 2 → v.mgmt.ring = { Ring.reset with st := 1 })
        ∧ (s.num Obj.nearFillState = 2 → (s.session 1023).isOpen = true →
            v.mgmt.ring = { Ring.reset with st := 4, reason := 2 } ∧ s.sent v (.event 0x9012 (4 + 2 * 256)))))
    ∧ (r.st = 1 → s.num Obj.nearFillState = 2 → (s.session 1023).isOpen = true → (s.region 4095).st = .open → (s.region 4095).act = .none →
      ∃ u, Leaves .ringBindComplete s u ∧ s.changesOnly u [.objs, .aon, .mgmt, .out] ∧ u.out = s.out ++ [.event 0x9010 0]
        ∧ u.mgmt.ring = { r with st := 2, base := s.num (Obj.regionBase 4095) })
    ∧ ((r.st = 2 ∨ (r.st = 4 ∧ r.reason = 1)) →
      let t := (s.setRing { r with bells := [] }).ringPut 32 (leBytes 16 State.deviceFeatures.toNat ++ leBytes 16 State.deviceMandatory.toNat)
      let hm := BitVec.ofNat 128 (leNat (t.devRead (r.base + 16) 16))
      let agreed := BitVec.ofNat 128 (leNat (t.devRead r.base 16)) &&& State.deviceFeatures
      let all := ∀ i < 128, (State.deviceMandatory ||| hm).getLsbD i = true → agreed.getLsbD i = true
      s.rings .ringOffer .offer (fun v =>
        (all → v.mgmt.ring.st = 3 ∧ v.mgmt.ring.agreed = agreed ∧ s.sent v (.event 0x9011 (agreed.toNat % 2 ^ 32)))
        ∧ (¬ all → v.mgmt.ring.st = 4 ∧ v.mgmt.ring.reason = 1 ∧ s.sent v (.event 0x9012 v.ringStatus))))
    ∧ (r.st ≠ 0 →
      s.rings .ringDisable .disable (fun v => v.mgmt.ring = Ring.reset ∧ v.session 1023 = Session.closed ∧ s.sent v (.event 0x9013 0)
        ∧ ((s.region 4095).st = .open → (s.region 4095).act = .none → (v.region 4095).st = .retiring)))
    ∧ (∀ n : BitVec 32, s.rings (.cmdTailWrite n) (.cmdTail n.toNat) (fun v => v.mgmt = { s.mgmt with ring := { r with cmdTail := n.toNat } }
        ∧ s.changesOnly v [.mgmt]))
    ∧ (∀ n : BitVec 32,
      (State.ringUse r.cplTail n.toNat ≤ 4096 →
        s.rings (.ringHeadWrite .cpl n) (.head .cpl n.toNat) (fun v => v.mgmt.ring = { r with cplHead := n.toNat } ∧ s.changesOnly v [.mgmt]))
      ∧ (State.ringUse r.evtTail n.toNat ≤ 16384 →
        s.rings (.ringHeadWrite .evt n) (.head .evt n.toNat) (fun v => v.mgmt.ring = { r with evtHead := n.toNat } ∧ s.changesOnly v [.mgmt]))
      ∧ (State.ringUse r.logTail n.toNat ≤ 16384 →
        s.rings (.ringHeadWrite .log n) (.head .log n.toNat) (fun v => v.mgmt.ring = { r with logHead := n.toNat } ∧ s.changesOnly v [.mgmt]))
      ∧ (4096 < State.ringUse r.cplTail n.toNat →
        s.rings (.ringHeadWrite .cpl n) (.head .cpl n.toNat) (fun v => v.mgmt.ring = r
          ∧ v.num Obj.bar0BadAccesses = s.num Obj.bar0BadAccesses + 1)))
    ∧ (s.ringHas 4 = true → r.shadow = true → s.ep.shadow ≠ 0 → s.dmaOn = true → s.halted 3 = false →
      ∃ u, Leaves .shadowWrite s u ∧ s.changesOnly u [.objs, .mgmt, .out] ∧ u.mgmt.ring = { r with shadow := false }
        ∧ u.num Obj.shadowWrites = s.num Obj.shadowWrites + 1
        ∧ u.out = s.out ++ [.dmaWrite 3 s.ep.shadow.toNat
            (leBytes 4 r.cmdHead ++ leBytes 4 r.cplTail ++ leBytes 4 r.evtTail ++ leBytes 4 r.logTail ++ zeros 16)])

/-- Ring commands (R622, R625, R626, R638, Table 13-7): each moves CMD_HEAD on, and its completion entry stands at CPL_TAIL with the
command's number, the status, the phase and the value. -/
def Obligations.RingCommandsWriteCompletions : Prop :=
  ∀ (s : State) (e : CmdEntry) (m : Mode),
    let r := s.mgmt.ring
    let off := r.base + 0x50000 + r.cplTail % 4096 * 16
    let k := (s.entry (off / 65536)).a.key (off / 64 % 1024)
    let host : Who := ⟨.window, 0, 0, [], 0, 0⟩
    let key := okey e.index.toNat e.sub.toNat
    let done (u : State) (total : Nat) (res : List Byte) : Prop :=
      u.mgmt.ring = { r with cmdHead := (r.cmdHead + 1) % 2 ^ 32, cplTail := (r.cplTail + 1) % 2 ^ 32, shadow := true }
        ∧ u.num Obj.commands = s.num Obj.commands + 1 ∧ (r.cplTail = r.cplHead → 1 ∈ u.aon.irqs)
        ∧ u.devRead off 16 = leBytes 4 e.cmdId.toNat ++ leBytes 2 (State.phase r.cplTail 4096 * 128) ++ leBytes 2 total ++ res
    e.ok = true → s.cmdReady e = true → r.base % 65536 = 0 → s.devMode off (.writeMasked 0 []) = some m → s.devMode off .readOnce = some m →
      s.rawPage (off / 65536) = true → s.queued k = none → s.num Obj.eccFlipMask = 0 →
      s.num (if chanOf k < 256 then Obj.stackSplitWrite (chanOf k / 32) else Obj.chSplitWrite (chanOf k - 256)) = 0 →
    (s.ringHas 0 = true → ∃ u, Leaves (.nop e) s u ∧ done u 0 (zeros 8)
        ∧ s.changesOnly u [.dev, .objs, .tide, .dram, .aon, .mgmt])
    ∧ (∀ (x : ORow) (n : Nat), s.ringHas 3 = true → s.cmdReach e.index.toNat = true → objRow e.index.toNat e.sub.toNat = some x →
        x.acc ≠ .wo → x.ra ≤ s.windowAuth → x.ty.bytes = some n → n ≤ 8 → (∀ (t : State) (a : Nat), t.liveNum a key = none) →
        s.mgmt.power.boot = false → s.dev.state = .service →
      ∃ u, Leaves (.ringDictRead e) s u ∧ done u n (slice (leBytes n (s.num key % 2 ^ (8 * n))) 0 8))
    ∧ (∀ x : ORow, s.ringHas 3 = true → s.cmdReach e.index.toNat = true → e.valueLen.toNat ≤ 32 → key = Obj.idleSrEnable →
        objRow e.index.toNat e.sub.toNat = some x → s.allows host key (e.value.take e.valueLen.toNat) →
      ∃ u, Leaves (.ringDictWrite e) s u ∧ done u 0 (zeros 8) ∧ u.num key = State.stored x (e.value.take e.valueLen.toNat))
    ∧ (s.ringHas 2 = true → s.mgmt.logq.length + s.aon.blog.length ≤ 1024 →
      ∃ u es, Leaves (.backupLogDump e) s u ∧ done u 0 (zeros 8) ∧ u.mgmt.logq = s.mgmt.logq ++ es
        ∧ es.map (fun x => (x.time, x.code, x.core)) = s.aon.blog.map (fun x => (x.time, x.code, 4)))

/-- The update's ring commands (R702): each acts as the write of UPD_HEADER, of UPD_BLOCK or of UPD_ACTION that it stands for; one that
starts an action keeps the command busy until that action's reply. -/
def Obligations.RingCommandsDriveTheUpdate : Prop :=
  ∀ (s : State) (e : CmdEntry),
    let host : Who := ⟨.window, 0, 0, [], 0, 0⟩
    let may (n : Byte) : Prop := s.allows host Obj.updAction [n]
    let busy (u : State) : Prop := u.mgmt.ring.busy = some (e.cmdId, e)
    let free (u : State) : Prop := u.mgmt.ring.busy = none ∧ u.num Obj.commands = s.num Obj.commands + 1
    e.ok = true → s.cmdReady e = true → s.ringHas 9 = true →
    (s.allowsBlob host Obj.updHeader e.buf → may 1 → (s.updSt = 0 ∨ s.updSt = 2 ∨ s.updSt = 4) → s.blocked.isNone = true →
        headerFormed e.buf = true → headerPart e.buf = true → hdrFull e.buf = true → s.mgmt.upd.block = none →
      ∃ u, Leaves (.updHeader e) s u ∧ u.updSt = 1 ∧ u.mgmt.upd.header = e.buf ∧ u.blob Obj.updHeader = e.buf ∧ free u)
    ∧ (s.allowsBlob host Obj.updBlock e.buf → s.updSt = 1 → (blockBytes s.mgmt.upd.header s.baseImage e.buf).isSome = true →
        numAt e.buf 0 4 = s.num Obj.updBlockNext → s.mgmt.upd.block = none →
      ∃ u, Leaves (.updBlock e) s u ∧ u.mgmt.upd.block = some e.buf ∧ busy u)
    ∧ (may 2 → (s.updSt = 2 ∨ s.updSt = 4) → ∃ u, Leaves (.updVerify e) s u ∧ u.updSt = 3 ∧ busy u)
    ∧ (may 3 → s.updSt = 4 → s.blocked.isNone = true → (s.newTables (s.bank s.spareBank)).length ≤ s.slotsFree →
      ∃ u, Leaves (.updActivate e) s u ∧ u.updSt = 5 ∧ busy u ∧ s.sent u (.event 0xA006 0))
    ∧ (may 4 → s.updSt = 6 → ∃ u, Leaves (.updConfirm e) s u ∧ u.updSt = 0 ∧ u.num Obj.confirms = s.num Obj.confirms + 1 ∧ free u)
    ∧ (may 5 → (s.updSt = 1 ∨ s.updSt = 2 ∨ s.updSt = 4) → s.mgmt.upd.block = none →
      ∃ u, Leaves (.updAbort e) s u ∧ u.updSt = 0 ∧ u.mgmt.upd = Upd.reset ∧ free u)
    ∧ (may 6 → s.updSt = 6 → ∃ u, Leaves (.updRollback e) s u ∧ u.updSt = 7 ∧ busy u)

/-! ## Regions and sessions -/

/-- Regions (R121–R128, R134, R135, R139, R153): a commit of a FREE region installs its staged mode set and reserves its pages, a commit
that waited installs at its end, a retirement ends with every page UNWRITTEN and the region FREE, and a discard restages. -/
def Obligations.RegionsCommitAndRetire : Prop :=
  ∀ (s : State) (w : Who) (k : BitVec 12),
    let r := s.region k.toNat
    let key := Obj.regionAction k.toNat
    let others (u : State) : Prop := ∀ j, j ≠ k.toNat → u.region j = s.region j
    let now (u : State) (x : Region) : Prop := u.region k.toNat = { x with was := (u.region k.toNat).was, encWas := (u.region k.toNat).encWas }
      ∧ (r.was.1 ≠ s.dev.now + 1 → (u.region k.toNat).was = (s.dev.now + 1, r.st, r.mode))
    let alone : Prop := s.tide.jobs = [] ∧ ∀ e ∈ s.tide.map, e.2.pstate ≠ .shared
    let free : Prop := w.ok = true ∧ s.h3Busy = false ∧ s.ctl.h3 = [] ∧ s.ringReserved true k.toNat = false
    let lo := r.mode.base / 65536
    let hi := (r.mode.base + r.mode.len) / 65536
    (let m := s.stagedMode k.toNat
      let pages := State.reservation m
      let near := m.tier == 1
      let lim := s.session m.session
      free → alone → r = { Region.free with was := r.was, encWas := r.encWas } → s.num Obj.nearFillState = 2 → s.modeFault m = none → s.overlaps k.toNat m = none →
        s.sessionUse m.session near + pages ≤ (if near then lim.near else lim.far) →
        (s.setRegion k.toNat { r with act := .commit, who := some w, staged := m, pages := pages, near := near }).pinRoom k.toNat m = true →
      s.acts (.regionCommit w k) w key (leBytes 1 1) [.objs, .dir, .ctl, .aon, .mgmt, .out]
        (fun u => now u { Region.free with st := .open, mode := m, pages := pages, near := near } ∧ others u
          ∧ u.num (Obj.regionReason k.toNat) = 0))
    ∧ ((w.path = .t1s ∨ (w.path = .window ∧ w.peer = 0)) → alone → r.act = .commit → r.who = some w → s.commitWaits k.toNat = false → s.ctl.h3 = [] →
      ∃ u evs, Leaves (.commitComplete k) s u ∧ s.changesOnly u [.objs, .ctl, .aon, .mgmt, .out]
        ∧ now u { r with st := if r.st = .free then .open else r.st, mode := r.staged, act := .none, who := none, staged := Mode.none }
        ∧ others u ∧ u.num (Obj.regionReason k.toNat) = 0 ∧ s.replied u w .ok evs)
    ∧ (free → r.st = .open → s.tide.jobs = [] → s.dir.ents = [] → s.dir.txns = [] → s.dir.censusBad = [] →
      s.obeys (.regionRetire w k) w key (leBytes 1 3) [] [.objs, .dir, .ctl, .mgmt, .out]
        (fun u => now u { r with st := .retiring, tables := [] } ∧ others u ∧ u.num (Obj.regionReason k.toNat) = 0))
    ∧ (r.st = .retiring → s.retireQuiet k.toNat = true → s.dir.ents = [] → s.path.store = [] →
        (∀ p, lo ≤ p → p < hi → (s.entry p).pstate ≠ .shared ∧ s.stripeFaulted p = false) →
      ∃ u, Leaves (.retirementComplete k) s u ∧ s.changesOnly u [.objs, .path, .tide, .dram, .ctl, .aon, .mgmt, .out]
        ∧ u.region k.toNat = Region.free ∧ others u
        ∧ (∀ p, lo ≤ p → p < hi → (u.entry p).pstate = .unwritten)
        ∧ (∀ p, (p < lo ∨ hi ≤ p) → u.entry p = s.entry p))
    ∧ (free →
      (r.st = .free →
        s.obeys (.regionDiscard w k) w key (leBytes 1 4) [] [.objs, .mgmt, .out]
          (fun u => u.stagedMode k.toNat = State.reset.stagedMode k.toNat ∧ u.num (Obj.regionReason k.toNat) = 0))
      ∧ (r.st = .open →
        s.obeys (.regionDiscard w k) w key (leBytes 1 4) [] [.objs, .mgmt, .out]
          (fun u => (u.stagedMode k.toNat).tier = r.mode.tier ∧ (u.stagedMode k.toNat).lent = r.mode.lent
            ∧ (u.stagedMode k.toNat).cls = r.mode.cls ∧ (u.stagedMode k.toNat).atom = r.mode.atom
            ∧ (u.stagedMode k.toNat).mask = r.mode.mask ∧ u.num (Obj.regionReason k.toNat) = 0)))

/-- Sealing and code tables (R129, R154, R181–R185, R193–R196): a seal stops writes, a table takes the lowest free slot, an image that fails
its checks opens the region again, and sealing ends with the stored bytes and the pages that they need. -/
def Obligations.SealingBuildsTables : Prop :=
  ∀ (s : State) (w : Who) (k : BitVec 12),
    let r := s.region k.toNat
    let others (v u : State) : Prop := ∀ j, j ≠ k.toNat → u.region j = v.region j
    let now (u : State) (x : Region) : Prop := u.region k.toNat = { x with was := (u.region k.toNat).was, encWas := (u.region k.toNat).encWas }
    (w.ok = true → s.h3Busy = false → s.ctl.h3 = [] → s.ringReserved true k.toNat = false → r.st = .open → r.mode.comp ≠ 3 →
        s.dir.ents = [] → s.dir.txns = [] → s.dir.censusBad = [] →
      s.acts (.regionSeal w k) w (Obj.regionAction k.toNat) (leBytes 1 2) [.objs, .dir, .ctl, .aon, .mgmt, .out]
        (fun u => now u { r with st := .sealing, slot := 0, tables := [], packed := [], tails := [] } ∧ others s u
          ∧ u.num (Obj.regionReason k.toNat) = 0))
    ∧ (let x := s.regionTable k.toNat
      ∀ n, r.st = .sealing → (r.mode.comp = 1 ∨ r.mode.comp = 2) → r.slot = 0 → s.regionQuiet k.toNat = true → x.2.freeSlot = some n →
        x.2.region k.toNat = r →
      ∃ u, Leaves (.sealTableBuilt k) s u ∧ x.2.changesOnly u [.dev, .objs, .tide, .ctl, .aon, .mgmt, .out]
        ∧ u.tab n = ⟨.inUse, r.mode.format, k.toNat, true, x.1⟩ ∧ now u { r with slot := n } ∧ others x.2 u)
    ∧ (r.st = .sealing → r.mode.comp = 0 → s.regionQuiet k.toNat = true → s.dir.ents = [] →
      let stored := s.storedBytes k.toNat
      ∃ u, Leaves (.sealingComplete k) s u ∧ s.changesOnly u [.objs, .ctl, .aon, .mgmt, .out]
        ∧ now u { r with st := .sealed, pages := min (r.mode.len / 65536) ((stored + 65535) / 65536) * (if r.mode.mirror then 2 else 1) }
        ∧ others s u ∧ u.num (Obj.regionStoredBytes k.toNat) = stored ∧ u.num (Obj.regionSealResult k.toNat) = 0)
    ∧ (let x := State.imageRead (r.mode.ingest / 64) s k.toNat 0
      r.st = .sealing → r.mode.comp = 3 → r.slot = 0 → s.regionQuiet k.toNat = true →
      (State.readImage r.mode x.1 = none →
        ∃ u, Leaves (.ingestValidation k) s u ∧ x.2.changesOnly u [.objs, .ctl, .aon, .mgmt, .out]
          ∧ now u { r with st := .open, tables := [] } ∧ others x.2 u
          ∧ u.num (Obj.regionSealResult k.toNat) = 9 ∧ x.2.sent u (.event 0x3002 k.toNat))
      ∧ (∀ tabs pages, State.readImage r.mode x.1 = some (tabs, pages) → tabs.length ≤ r.tables.length → r.tables.Nodup →
        ∃ u, Leaves (.ingestValidation k) s u ∧ (u.region k.toNat).slot = 1 ∧ (u.region k.toNat).st = (x.2.region k.toNat).st ∧ others x.2 u
          ∧ ∀ n lens, (n, lens) ∈ List.zip r.tables tabs →
            u.tab n = ⟨.inUse, r.mode.format, k.toNat, false, lens⟩ ∨ ((u.tab n).st = .free ∧ u.slotBlocks n = 0)))
    ∧ (w.ok = true → r.st = .open → r.mode.comp = 2 → s.ctl.retable = none → s.freeSlot.isSome = true →
      s.begins (.retable w (k.setWidth 16)) w Obj.retableRegion (leBytes 2 k.toNat) [] [.objs, .ctl, .mgmt]
        (fun u => u.ctl = { s.ctl with retable := some (k.toNat, w), leftOpen := false }))
    ∧ (let s0 : State := { s with ctl := { s.ctl with retable := none } }
      let x := s0.regionTable k.toNat
      ∀ n, (w.path = .t1s ∨ (w.path = .window ∧ w.peer = 0)) → s.ctl.retable = some (k.toNat, w) → s.ctl.leftOpen = false → r.st = .open → r.mode.comp = 2 →
        x.2.freeSlot = some n →
      ∃ u evs, Leaves .retableComplete s u ∧ x.2.changesOnly u [.objs, .ctl, .aon, .mgmt, .out]
        ∧ u.tab n = ⟨.inUse, r.mode.format, k.toNat, true, x.1⟩ ∧ u.num Obj.retableSlot = n ∧ u.num Obj.retableStatus = 0
        ∧ x.2.sent u (.event 0x3005 0) ∧ x.2.replied u w .ok evs)

/-- Pool sessions (R146, R148–R150): OPEN and RESIZE put the staged limits into force where R146 permits them, and CLOSE ends a session
that holds no region. -/
def Obligations.SessionsTakeTheirLimits : Prop :=
  ∀ (s : State) (w : Who) (n : BitVec 10),
    let x := s.session n.toNat
    let near := s.num (Obj.sessionNearLimit n.toNat)
    let far := s.num (Obj.sessionFarLimit n.toNat)
    let good (y : Session) (u : State) : Prop := u.session n.toNat = y ∧ (∀ j, j ≠ n.toNat → u.session j = s.session j)
      ∧ u.num (Obj.sessionReason n.toNat) = 0
    let fits : Prop := s.num Obj.nearFillState = 2 ∧ s.limitBreaks n.toNat true = false ∧ s.limitBreaks n.toNat false = false
    w.ok = true → s.h3Busy = false → s.ringReserved false n.toNat = false →
    (x.isOpen = false → fits →
      s.obeys (.sessionOpen w n) w (Obj.sessionAction n.toNat) (leBytes 1 1) [] [.objs, .ctl, .mgmt, .out] (good ⟨true, near, far⟩))
    ∧ (x.isOpen = true → fits → s.sessionUse n.toNat true ≤ near → s.sessionUse n.toNat false ≤ far →
      s.obeys (.sessionResize w n) w (Obj.sessionAction n.toNat) (leBytes 1 2) [] [.objs, .ctl, .mgmt, .out] (good ⟨true, near, far⟩))
    ∧ (x.isOpen = true → s.sessionRegions n.toNat = 0 →
      s.obeys (.sessionClose w n) w (Obj.sessionAction n.toNat) (leBytes 1 3) [] [.objs, .ctl, .mgmt, .out] (good Session.closed))

/-! ## The management cores -/

/-- Management cores (R606–R613, R641): a cause that arises in a running core restarts it, is counted and logged, and the fourth restart
within 60 s leaves it FAILED; a kick in the same cycle wins over the watchdog; a done restart runs the core or finds its image bad; an injected mismatch is
recorded, and follows in a later cycle. -/
def Obligations.CoresRestart : Prop :=
  ∀ (s : State) (c : CoreId),
    let n := State.coreNum c
    let ps : List Part := [.objs, .aon, .mgmt, .out]
    let recent (n : Nat) : Nat := (s.mgmt.restarts.filter (fun x => x.1 == n && decide (s.dev.now < x.2 + 60 * cyclesS))).length
    let runs (n : Nat) : Prop := s.coreRuns n = true ∧ (n = 0 → s.updSt ≠ 5) ∧ (n = 3 → ∀ k < 32, (s.unit k).st ≠ .training)
    let down (u : State) (n cause event : Nat) : Prop :=
      u.num (Obj.coreState n) = (if 3 ≤ recent n then 4 else 3) ∧ u.num (Obj.coreLastCause n) = cause
        ∧ u.num (Obj.coreRestarts n) = s.num (Obj.coreRestarts n) + 1
        ∧ u.aon.blog.getLast? = some ⟨s.aon.blogSeq + 1, s.time64, event, s.dev.state.code, false, false, n⟩
        ∧ (event ≠ 0 → s.sent u (.event event n)) ∧ (3 ≤ recent n → s.sent u (.event 0x9006 n))
    (runs n →
      (FMap.find 0 s.mgmt.kicks n ≠ s.aonCycle + 1 → ∃ u, Leaves (.watchdogExpiry c) s u ∧ s.changesOnly u ps ∧ down u n 1 0x9002)
      ∧ (∃ u, Leaves (.lockstepMismatch c) s u ∧ s.changesOnly u ps ∧ down u n 2 0x9003)
      ∧ (∃ u, Leaves (.fetchFault c) s u ∧ s.changesOnly u ps ∧ down u n 3 0x9004)
      ∧ (∃ u, Leaves (.unhandledTrap c) s u ∧ s.changesOnly u ps ∧ down u n 5 0))
    ∧ (FMap.find 0 s.mgmt.kicks n = s.aonCycle + 1 → Leaves (.watchdogExpiry c) s s)
    ∧ (∃ u, Leaves (.watchdogKick c) s u ∧ s.changesOnly u [.mgmt] ∧ u.mgmt = { s.mgmt with kicks := u.mgmt.kicks }
      ∧ FMap.find 0 u.mgmt.kicks n = s.aonCycle + 1 ∧ ∀ m, m ≠ n → FMap.find 0 u.mgmt.kicks m = FMap.find 0 s.mgmt.kicks m)
    ∧ (s.num (Obj.coreState n) = 3 → (n = 0 ∨ s.coreRuns 0 = true) →
      (∃ u, Leaves (.coreRestartDone c true) s u ∧ s.changesOnly u ps ∧ u.num (Obj.coreState n) = 2 ∧ u.out = s.out ++ [.event 0x9001 n])
      ∧ (∃ u, Leaves (.coreRestartDone c false) s u ∧ s.changesOnly u [.objs] ∧ u.num (Obj.coreState n) = 4 ∧ u.num (Obj.coreLastCause n) = 6))
    ∧ (∀ (w : Who) (v : BitVec 8), w.ok = true → v.toNat < 4 →
      (s.num (Obj.coreState v.toNat) = 4 →
        s.obeys (.coreRestart w v) w Obj.coreRestart (leBytes 1 v.toNat) [.event 0x9007 v.toNat] ps
          (fun u => u.num (Obj.coreState v.toNat) = 3 ∧ u.num (Obj.coreLastCause v.toNat) = 4
            ∧ u.num (Obj.coreRestarts v.toNat) = s.num (Obj.coreRestarts v.toNat) + 1))
      ∧ s.obeys (.lockstepInject w v) w Obj.lockstepInject (leBytes 1 v.toNat) [] [.objs, .mgmt, .out]
          (fun u => u.mgmt = { s.mgmt with dict := u.mgmt.dict, inject := s.mgmt.inject ++ [(v.toNat, s.dev.now)] } ∧ s.keepsObjs u [])
      ∧ (∀ at_, runs v.toNat → recent v.toNat < 3 → s.mgmt.inject = [(v.toNat, at_)] → at_ ≠ s.dev.now →
          down s.mismatches v.toNat 2 0x9003 ∧ s.sent s.mismatches (.event 0x9030 v.toNat)))

/-- The power and thermal loops, the start's end and the battery-backed log (R602–R605, R632–R636, R639, R720, R753–R755). -/
def Obligations.LoopsBootAndLog : Prop :=
  (∀ (s : State) (x : Sensors), x.tj.length = 40 → x.stackT.length = 8 → s.coreRuns 1 = true → s.mgmt.fallback ≠ s.aonCycle + 1 →
    let tj := State.highest x.tj
    let watts := (s.mgmt.watts ++ [x.power]).drop (s.mgmt.watts.length + 1 - 1000)
    let mean := watts.foldl (· + ·) 0 / watts.length
    let dimms := (s.tide.slots.filter (fun e => e.2.st != .empty && e.2.st != .off)).map (fun e => e.2.temp)
    let hot : Prop := 100000 ≤ tj ∨ (∃ t ∈ x.stackT ++ dimms, 95000 < t) ∨ 1180000 < mean ∨ 1500000 < x.power
    let cool : Prop := tj < 97000 ∧ mean < 1150000 ∧ x.power < 1400000
    let old := s.num Obj.thermalCap
    ∃ u, Leaves (.corePLoop x) s u ∧ s.changesOnly u [.objs, .dram, .aon, .mgmt, .out]
      ∧ (hot → u.num Obj.thermalCap = max (old - 50) 100) ∧ (¬ hot → cool → u.num Obj.thermalCap = min (old + 10) 1000)
      ∧ (¬ hot → ¬ cool → u.num Obj.thermalCap = old) ∧ u.num Obj.loopCap = u.num Obj.thermalCap ∧ u.mgmt.watts = watts
      ∧ u.num Obj.pkgPower1s = mean ∧ u.num Obj.pkgPower1ms = x.power ∧ (∀ i < 40, u.num (Obj.tjSensor i) = State.levelNat (x.tj.getD i 0))
      ∧ ∀ k < 8, (u.unit k).temp = x.stackT.getD k 0)
  ∧ (∀ (s : State) (tj : List Int), tj.length = 40 →
    (State.highest tj < 100000 → Leaves (.aonJunctionCheck tj) s s)
    ∧ (100000 ≤ State.highest tj → State.highest tj < 110000 → s.coreRuns 1 = false →
      ∃ u, Leaves (.aonJunctionCheck tj) s u ∧ s.changesOnly u [.objs, .aon, .mgmt, .out] ∧ s.sent u (.event 0x9020 0)
        ∧ u.num Obj.thermalCap = min (s.num Obj.thermalCap) 500 ∧ u.num Obj.aonFallbacks = s.num Obj.aonFallbacks + 1)
    ∧ (110000 ≤ State.highest tj → (s.dev.state = .service ∨ s.dev.state = .degraded) →
      ∃ u, Leaves (.aonJunctionCheck tj) s u ∧ u.dev.state = .safe ∧ u.num Obj.safeCause = 6
        ∧ u.num Obj.thermalTrips = s.num Obj.thermalTrips + 1 ∧ s.sent u (.event 0xB041 0) ∧ u.path.waiters = []
        ∧ (120000 ≤ State.highest tj → s.mgmt.power.thermtrip = false → s.sent u (.thermtrip true))))
  ∧ (∀ (s : State) (x : BootView), x.dimms.length = 48 → s.dev.state = .boot → s.mgmt.power.boot = false →
    ((s.bootBank x).1 = none →
      ∃ u, Leaves (.bootComplete x) s u ∧ s.changesOnly u [.objs, .aon, .mgmt, .flash, .out] ∧ u.mgmt.power.boot = true
        ∧ s.sent u (.event 0x9005 0))
    ∧ (∀ i, (s.bootBank x).1 = some i →
      (s.tamperLevel = true → s.num Obj.tamperAction = 1 →
        ∃ u, Leaves (.bootComplete x) s u ∧ u.mgmt.power.boot = true ∧ u.mgmt.power.held = some x ∧ u.dev.state = .boot
          ∧ s.sent u (.event 0xB020 0))
      ∧ (s.tamperLevel = false → (∀ d ∈ x.dimms, ∀ y, d = some y → y.accepted = true) →
        ∃ u, Leaves (.bootComplete x) s u ∧ u.dev.state = .init ∧ u.mgmt.power.boot = false ∧ u.num Obj.activeBank = i
          ∧ u.num Obj.fwVersion = imgVersion (s.bank i).bytes ∧ (∀ c < 4, u.num (Obj.coreState c) = 2) ∧ u.realmOn 0 = true
          ∧ ∀ k < 8, (u.unit k).st = .training)))
  ∧ (∀ (s : State) (w : Who), w.ok = true →
    s.obeys (.backupLogClear w 0xA5) w Obj.backupLogClear (leBytes 1 0xA5) [.event 0x9021 0] [.objs, .aon, .mgmt, .out]
      (fun u => u.aon.blog = [⟨1, s.time64, 0x9021, s.dev.state.code, false, false, 0⟩] ∧ u.aon.blogSeq = 1))

/-! ## The dictionary -/

/-- Dictionary requests (R655–R663, R670–R680): a READ returns the object's value, a WRITE stores it, DESCRIBE returns its record, OPEN
adds a session, PROVE makes it active or closes it, and CLOSE ends it. -/
def Obligations.DictionaryRequestsAreServed : Prop :=
  (∀ (s : State) (h : DictHdr) (auth n : Nat) (x : ORow),
    let t := s.taken h.who
    let key := okey h.index.toNat h.sub.toNat
    let v := match t.liveNum auth key with | some v => v | none => t.num key
    h.op = 1 → h.version = 1 → h.flags.toNat < 2 → h.rsvd = 0 → h.offset = 0 → (h.length = 0 ∨ n ≤ h.length.toNat) → s.listens h.who = true →
      (s.counted h.who).authOf (State.hdrAsk h []) = .ok auth → objRow h.index.toNat h.sub.toNat = some x → x.acc ≠ .wo → x.ra ≤ auth →
      x.ty.bytes = some n →
    ∃ u, Leaves (.dictRead h) s u ∧ s.changesOnly u [.objs, .mgmt, .out] ∧ s.keepsObjs u []
      ∧ u.mgmt = { s.mgmt with dict := u.mgmt.dict } ∧ s.replies u h.who 1 .ok x.ty.code (leBytes n (v % 2 ^ (8 * n))) n)
  ∧ (∀ (s : State) (w : Who) (v : List Byte) (len : BitVec 32), w.ok = true → len.toNat = v.length →
    (∀ key ∈ [Obj.floodThreshold, Obj.escapeLog2, Obj.remapWindow, Obj.relayRole],
      s.stores (.dictWrite ⟨w, 1, 2, BitVec.ofNat 16 (key / 256), BitVec.ofNat 8 (key % 256), 1, 0, len, 0⟩ v) w key v (leNat v)))
  ∧ (∀ (s : State) (w : Who), w.ok = true → s.listens w = true →
    (∃ u, Leaves (.describe w) s u ∧ s.changesOnly u [.objs, .mgmt, .out] ∧ s.keepsObjs u []
      ∧ u.mgmt = { s.mgmt with dict := u.mgmt.dict } ∧ s.replies u w 6 .ok 0 s.describeRec 32)
    ∧ (∀ auth : BitVec 8, w.session = 0 → 1 ≤ auth.toNat → auth.toNat ≤ 3 → (2 ≤ auth.toNat → s.secret auth.toNat ≠ []) →
        s.mgmt.dict.locked.contains (pathNum w.path * 4 + auth.toNat) = false →
        (s.mgmt.dict.sess.filter (fun x => x.path == pathNum w.path)).length < (if w.path = .t1s then 16 else 4) →
      ∃ u x, Leaves (.open_ w auth) s u ∧ s.changesOnly u [.dev, .objs, .mgmt, .out] ∧ s.keepsObjs u []
        ∧ u.mgmt.dict.sess.length = s.mgmt.dict.sess.length + 1 ∧ u.mgmt.dict.sess.getLast? = some x
        ∧ x.path = pathNum w.path ∧ x.auth = auth.toNat ∧ x.active = (auth == 1) ∧ x.nonce.length = 32 ∧ x.num ≠ 0
        ∧ (∀ y ∈ s.mgmt.dict.sess, y.path = x.path → y.num ≠ x.num)
        ∧ s.replies u w 3 .ok 0 (leBytes 4 x.num.toNat ++ x.nonce) 36)
    ∧ (∀ (x : DSess) (value : List Byte), w.session ≠ 0 → s.dsess w = some x → x.active = false →
      let k := x.path * 4 + x.auth
      let want := hmac384 (s.secret x.auth) (ascii "P9PV" ++ x.nonce ++ leBytes 4 x.num.toNat ++ leBytes 1 x.path)
      (value = want →
        ∃ u, Leaves (.prove w value) s u ∧ s.changesOnly u [.objs, .mgmt, .out] ∧ s.keepsObjs u []
          ∧ u.dsess w = some { x with active := true, since := s.dev.now } ∧ FMap.find 0 u.mgmt.dict.fails k = 0
          ∧ s.replies u w 4 .ok 0 [] 0)
      ∧ (value ≠ want →
        ∃ u, Leaves (.prove w value) s u ∧ s.changesOnly u [.objs, .mgmt, .out] ∧ u.dsess w = none
          ∧ u.num Obj.authFailures = s.num Obj.authFailures + 1 ∧ s.replies u w 4 .denied 0 [] 0
          ∧ (FMap.find 0 s.mgmt.dict.fails k + 1 < 3 → FMap.find 0 u.mgmt.dict.fails k = FMap.find 0 s.mgmt.dict.fails k + 1
              ∧ u.mgmt.dict.locked = s.mgmt.dict.locked)
          ∧ (3 ≤ FMap.find 0 s.mgmt.dict.fails k + 1 → k ∈ u.mgmt.dict.locked ∧ u.num Obj.authLockouts = s.num Obj.authLockouts + 1)))
    ∧ (∀ a, w.session ≠ 0 → (s.counted w).authOf (State.bareAsk w 5 0 []) = .ok a →
      ∃ u, Leaves (.close w) s u ∧ s.changesOnly u [.objs, .mgmt, .out] ∧ s.keepsObjs u [] ∧ u.dsess w = none
        ∧ u.mgmt.dict.asm = s.mgmt.dict.asm.filter (fun y => !(y.path == pathNum w.path && y.num == w.session))
        ∧ s.replies u w 5 .ok 0 [] 0))

/-- What ends on the dictionary's timers, its stored records and notices, and the field network (R651, R654, R662, R664–R666, R676, R677,
R686). -/
def Obligations.DictionaryTimersAndNetwork : Prop :=
  (∀ (s : State) (p : Path) (n : BitVec 32),
    let mine (x : DSess) : Bool := x.path == pathNum p && x.num == n
    let mineA (x : Asm) : Bool := x.path == pathNum p && x.num == n
    let closed (u : State) : Prop := s.changesOnly u [.mgmt] ∧ u.mgmt = { s.mgmt with dict := { s.mgmt.dict with
      sess := s.mgmt.dict.sess.filter (fun x => !mine x), asm := s.mgmt.dict.asm.filter (fun x => !mineA x) } }
    (∀ x, s.mgmt.dict.sess.find? mine = some x →
      (x.active = true → x.since / 4 ≠ s.dev.now / 4 → ∃ u, Leaves (.sessionIdleTimeout p n) s u ∧ closed u)
      ∧ (x.active = true → x.since / 4 = s.dev.now / 4 → Leaves (.sessionIdleTimeout p n) s s)
      ∧ (x.active = false → ∃ u, Leaves (.pendingSessionTimeout p n) s u ∧ closed u)
      ∧ (x.active = true → Leaves (.pendingSessionTimeout p n) s s))
    ∧ Leaves (.assemblyTimeout p n) s { s with mgmt := { s.mgmt with dict := { s.mgmt.dict with
        asm := s.mgmt.dict.asm.filter (fun x => !mineA x) } } }
    ∧ (∀ auth : BitVec 8, Leaves (.authLockoutEnd p auth) s { s with mgmt := { s.mgmt with dict := { s.mgmt.dict with
        locked := s.mgmt.dict.locked.filter (· != pathNum p * 4 + auth.toNat) } } }))
  ∧ (∀ (s : State) (index : BitVec 16) (sub : BitVec 8) (v : List Byte),
    let key := okey index.toNat sub.toNat
    s.mgmt.dict.saving.find? (fun e => e.1 == key) = some (key, v) →
    ∃ u, Leaves (.changeRecordComplete index sub) s u ∧ s.changesOnly u [.objs, .mgmt, .flash]
      ∧ FMap.find [] u.flash.journal key = v ∧ (∀ k, k ≠ key → FMap.find [] u.flash.journal k = FMap.find [] s.flash.journal k)
      ∧ (∀ e ∈ u.mgmt.dict.saving, e.1 ≠ key) ∧ u.num Obj.configRecords = s.num Obj.configRecords + 1)
  ∧ (∀ (s : State) (w : Who), w.ok = true →
    s.obeys (.configReset w 0xA5) w Obj.configReset (leBytes 1 0xA5) [] [.objs, .mgmt, .flash, .out]
      (fun u => u.flash = { s.flash with wipe := true })
    ∧ (∀ (index : BitVec 16) (v : BitVec 8),
      (State.isNotice index.toNat = true →
        s.obeys (.noticeAck w index v) w (okey index.toNat 7) (leBytes 1 v.toNat) [] [.objs, .mgmt, .out]
          (fun u => u.num (okey index.toNat 2) = 0 ∧ u.num (okey index.toNat 3) = 0
            ∧ u.num (okey index.toNat 4) = s.num (okey index.toNat 1)))
      ∧ (State.isNotice index.toNat = false → Leaves (.noticeAck w index v) s s)))
  ∧ (∀ s : State,
    (s.t1sUp = true →
      let frames (u : State) (tx dis : Nat) : Prop := u.num Obj.t1sFramesRx = s.num Obj.t1sFramesRx + 1
        ∧ u.num Obj.t1sFramesTx = s.num Obj.t1sFramesTx + tx ∧ u.num Obj.t1sDiscards = s.num Obj.t1sDiscards + dis
        ∧ ∀ k, k ∉ [Obj.t1sFramesRx, Obj.t1sFramesTx, Obj.t1sDiscards] → u.num k = s.num k
      (∀ peer, ∃ u, Leaves (.neighborSolicitation peer State.linkLocal) s u ∧ s.changesOnly u [.objs, .out] ∧ frames u 1 0
        ∧ u.out = s.out ++ [.ndAnswer peer State.linkLocal])
      ∧ (∀ peer target, target ≠ State.linkLocal →
        ∃ u, Leaves (.neighborSolicitation peer target) s u ∧ s.changesOnly u [.objs] ∧ frames u 0 0)
      ∧ (∀ peer data, ∃ u, Leaves (.echoRequest peer data) s u ∧ s.changesOnly u [.objs, .out] ∧ frames u 1 0
        ∧ u.out = s.out ++ [.echoReply peer data])
      ∧ (∃ u, Leaves .t1sDiscard s u ∧ s.changesOnly u [.objs] ∧ frames u 0 1))
    ∧ (∀ st : BitVec 2, s.powered = true → s.dev.state ≠ .reset →
        (st = 0 ∨ (st = 1 ∧ s.mgmt.power.straps ≠ 0) ∨ (st = 2 ∧ s.mgmt.power.straps = 0)) →
      ∃ u, Leaves (.t1sLinkChange st) s u ∧ s.changesOnly u [.objs] ∧ u.num Obj.t1sLinkState = st.toNat
        ∧ ∀ k, k ≠ Obj.t1sLinkState → u.num k = s.num k))

/-! ## The in-service update -/

/-- Download (R697, R699, R725): START applies its checks in order and resumes the container that is being received, or empties the spare
bank and begins anew, with a FULL container or a DELTA one; ABORT gives the container up, and in other states both are refused. -/
def Obligations.DownloadsStartAndAbort : Prop :=
  ∀ (s : State) (w : Who), w.ok = true →
    let h := s.blob Obj.updHeader
    let upd := s.mgmt.upd
    let base : Prop := hdrFull h = true ∨ (s.noImage = false ∧ slice h 40 48 = s.blob Obj.imageDigest)
    let relayed : List Out := if s.relays then [.relay 1 0 (hdrId h) 0 0 0 h] else []
    let refused (c : Instr) (st : Status) (reason : Nat) : Prop := ∃ u, exec c s = .next (s.ran (fun _ => u))
      ∧ s.changesOnly u [.objs, .mgmt, .out] ∧ u.mgmt = { s.mgmt with dict := u.mgmt.dict } ∧ u.updSt = s.updSt ∧ s.replied u w st []
      ∧ u.num Obj.updReason = reason ∧ u.num Obj.updLastStatus = st.code
    (s.allows w Obj.updAction (leBytes 1 1) →
      ((s.updSt = 3 ∨ 5 ≤ s.updSt) → refused (.start w) .modeConflict 0xA105)
      ∧ ((s.updSt ≤ 2 ∨ s.updSt = 4) → s.blocked.isNone = true →
        (headerFormed h = false → refused (.start w) .damaged 0xA108)
        ∧ (headerFormed h = true → headerPart h = false → refused (.start w) .unsupported 0xA107)
        ∧ (headerFormed h = true → headerPart h = true → ¬base → refused (.start w) .damaged 0xA106)
        ∧ (headerFormed h = true → headerPart h = true → base → s.updSt = 1 → hdrId h = s.num Obj.updContainerId →
          ∃ u, exec (.start w) s = .next (s.ran (fun _ => u)) ∧ s.changesOnly u [.objs, .aon, .mgmt, .out]
            ∧ u.updSt = 1 ∧ u.mgmt.upd = upd ∧ u.mgmt.relay = s.mgmt.relay ∧ u.num Obj.updBlockNext = s.num Obj.updBlockNext
            ∧ s.replied u w .ok ([.event 0xA001 1] ++ relayed))
        ∧ (headerFormed h = true → headerPart h = true → base → (s.updSt = 1 → hdrId h ≠ s.num Obj.updContainerId) →
          ∃ u, exec (.start w) s = .next (s.ran (fun _ => u)) ∧ u.updSt = 1
            ∧ u.mgmt.upd = { Upd.reset with header := h } ∧ u.mgmt.relay = Relay.reset
            ∧ u.num Obj.updContainerId = hdrId h ∧ u.num Obj.updBlockNext = 0 ∧ u.num Obj.updBlockCount = hdrCount h
            ∧ u.bank s.spareBank = ⟨3, [], false⟩ ∧ u.bank (1 - s.spareBank) = s.bank (1 - s.spareBank)
            ∧ (u.flash.recs.getLast?).map (fun r => (r.kind, r.target, r.next, r.header)) = some (1, s.spareBank, 0, h)
            ∧ (upd.block = none → s.changesOnly u [.objs, .aon, .mgmt, .flash, .out] ∧ s.replied u w .ok ([.event 0xA001 0] ++ relayed)))))
    ∧ (s.allows w Obj.updAction (leBytes 1 5) →
      ((s.updSt = 1 ∨ s.updSt = 2 ∨ s.updSt = 4) →
        ∃ u, exec (.abort w) s = .next (s.ran (fun _ => u)) ∧ u.updSt = 0 ∧ u.mgmt.upd = Upd.reset ∧ u.mgmt.relay = Relay.reset
          ∧ u.num Obj.updContainerId = 0 ∧ u.num Obj.updBlockNext = 0 ∧ u.bank 0 = s.bank 0 ∧ u.bank 1 = s.bank 1
          ∧ (u.flash.recs.getLast?).map (fun r => (r.kind, r.header)) = some (1, [])
          ∧ (upd.block = none → s.changesOnly u [.objs, .mgmt, .flash, .out] ∧ s.replied u w .ok []))
      ∧ (s.updSt ≠ 1 → s.updSt ≠ 2 → s.updSt ≠ 4 → refused (.abort w) .modeConflict 0xA105))

/-- Blocks and verification (R698, R700, R701, R707, R725): a sound block in order is taken and then written with its progress record, any
other is answered by its number; VERIFY ends in VERIFIED or in DAMAGED with the code of the first check that fails. -/
def Obligations.BlocksAreWrittenAndVerified : Prop :=
  ∀ (s : State) (w : Who),
    let outside : Prop := w.path = .t1s ∨ (w.path = .window ∧ w.peer = 0)
    let upd := s.mgmt.upd
    let served : Prop := s.coreRuns 0 = true ∨ s.mgmt.power.boot = true
    let same (u : State) : Prop := u.mgmt.upd = upd ∧ u.mgmt.relay = s.mgmt.relay ∧ u.updSt = s.updSt ∧ u.num Obj.updBlockNext = s.num Obj.updBlockNext
    let refused (c : Instr) (st : Status) (reason : Nat) : Prop := ∃ u, exec c s = .next (s.ran (fun _ => u))
      ∧ s.changesOnly u [.objs, .mgmt, .out] ∧ same u ∧ s.replied u w st [] ∧ u.num Obj.updReason = reason ∧ u.num Obj.updLastStatus = st.code
    (∀ body : List Byte, w.ok = true → s.allowsBlob w Obj.updBlock body →
      let k := numAt body 0 4
      let sound : Prop := (blockBytes upd.header s.baseImage body).isSome = true
      (s.updSt ≠ 1 → refused (.block w body) .modeConflict 0xA105)
      ∧ (s.updSt = 1 → ¬sound → ∃ u, exec (.block w body) s = .next (s.ran (fun _ => u)) ∧ s.changesOnly u [.objs, .aon, .mgmt, .out] ∧ same u
          ∧ u.num Obj.blocksDamaged = s.num Obj.blocksDamaged + 1 ∧ s.replied u w .damaged [.event 0xA002 0])
      ∧ (s.updSt = 1 → sound → k < s.num Obj.updBlockNext → refused (.block w body) .ok 0)
      ∧ (s.updSt = 1 → sound → s.num Obj.updBlockNext < k → refused (.block w body) .modeConflict 0)
      ∧ (s.updSt = 1 → sound → k = s.num Obj.updBlockNext → upd.block = none →
        ∃ u, exec (.block w body) s = .next (s.ran (fun _ => u)) ∧ s.changesOnly u [.objs, .mgmt]
          ∧ u.mgmt = { s.mgmt with dict := u.mgmt.dict, upd := { upd with block := some body, owed := some ⟨w, Obj.updBlock⟩ } }
          ∧ u.updSt = 1 ∧ u.num Obj.updBlockNext = k))
    ∧ (∀ b : List Byte, upd.block = some b → served → (∀ x, upd.owed = some x → x.who = w ∧ outside) →
      let k := numAt b 0 4
      let last := k + 1 = s.num Obj.updBlockCount
      ∃ u, exec .blockWritten s = .next (s.ran (fun _ => u)) ∧ s.changesOnly u [.objs, .aon, .mgmt, .flash, .out]
        ∧ u.bank s.spareBank = { s.bank s.spareBank with
            bytes := (s.bank s.spareBank).bytes.take (32768 * k) ++ (blockBytes upd.header s.baseImage b).getD [] }
        ∧ u.bank (1 - s.spareBank) = s.bank (1 - s.spareBank)
        ∧ u.num Obj.updBlockNext = k + 1 ∧ u.mgmt.upd.block = none ∧ u.mgmt.upd.owed = none ∧ u.updSt = (if last then 2 else s.updSt)
        ∧ (u.flash.recs.getLast?).map (fun r => (r.kind, r.next, r.header)) = some (1, k + 1, upd.header)
        ∧ (s.relays = false → (upd.owed.isSome = true → s.replied u w .ok (if last then [.event 0xA003 0] else []))
          ∧ (upd.owed = none → u.out = s.out ++ (if last then [.event 0xA003 0] else []) ++ [.relay 3 0 (s.num Obj.updContainerId) (k + 1) 0 0 []])))
    ∧ (w.ok = true → s.allows w Obj.updAction (leBytes 1 2) →
      ((s.updSt = 2 ∨ s.updSt = 4) → ∃ u, exec (.verify w) s = .next (s.ran (fun _ => u)) ∧ s.changesOnly u [.objs, .mgmt] ∧ u.out = s.out
        ∧ u.updSt = 3 ∧ u.mgmt = { s.mgmt with dict := u.mgmt.dict, upd := { upd with owed := some ⟨w, Obj.updAction⟩ } })
      ∧ (s.updSt ≠ 2 → s.updSt ≠ 4 → refused (.verify w) .modeConflict 0xA105))
    ∧ (∀ key : Nat, outside → upd.owed = some ⟨w, key⟩ → s.updSt = 3 → served →
      let i := s.spareBank
      let x := (s.verifyImage (s.bank i).bytes (hdrLen upd.header) (slice upd.header 88 48)).1
      ∃ u, exec .verifyComplete s = .next (s.ran (fun _ => u)) ∧ s.changesOnly u [.objs, .aon, .mgmt, .flash, .out]
        ∧ u.num Obj.updVerifyResult = x ∧ (u.bank i).bytes = (s.bank i).bytes ∧ u.bank (1 - i) = s.bank (1 - i)
        ∧ (x = 1 → u.updSt = 4 ∧ (u.bank i).st = 1 ∧ s.replied u w .ok [.event 0xA004 0])
        ∧ (x ≠ 1 → u.updSt = 0 ∧ (u.bank i).st = 2 ∧ s.replied u w .damaged [.event 0xA005 x]))

/-- Activation, trial and rollback (R694, R711, R717–R724): an activation commits the spare bank for trial, CONFIRM ends the trial, the
deadline or ROLLBACK begins a rollback, which takes the prior image back where it verifies, and a root slot is revoked for good. The
status of a rollback whose prior image fails is a free value (log 94). -/
def Obligations.ActivationsEndInTrial : Prop :=
  ∀ (s : State) (w : Who),
    let outside : Prop := w.path = .t1s ∨ (w.path = .window ∧ w.peer = 0)
    let upd := s.mgmt.upd
    let lastRec (u : State) : Option (Nat × Nat × Nat × Nat) := (u.flash.recs.getLast?).map (fun r => (r.kind, r.target, r.prior, r.deadline))
    let all : List Part := [.objs, .ctl, .aon, .mgmt, .flash, .out]
    (w.ok = true → s.updSt = 4 → s.blocked.isNone = true → (s.newTables (s.bank s.spareBank)).length ≤ s.slotsFree →
      s.begins (.activate w) w Obj.updAction (leBytes 1 3) [.event 0xA006 0] [.objs, .aon, .mgmt, .out]
        (fun u => u.updSt = 5 ∧ u.mgmt.upd = { upd with owed := some ⟨w, Obj.updAction⟩, committed := false }))
    ∧ (∀ key : Nat, outside → upd.owed = some ⟨w, key⟩ → s.updSt = 5 → upd.committed = false → s.coreRuns 0 = true → s.mgmt.power.boot = false →
      ∃ u evs, Leaves .activationComplete s u ∧ s.changesOnly u (.ep :: all) ∧ u.ep = { s.ep with descGen := (s.ep.descGen + 1) % 2 ^ 32 } ∧ u.updSt = 6 ∧ u.num Obj.activeBank = s.spareBank
        ∧ u.num Obj.fwVersion = imgVersion (s.bank s.spareBank).bytes ∧ u.num Obj.updTrialRuns = 1
        ∧ (∀ c < 4, u.num (Obj.coreState c) = if s.num (Obj.coreState c) = 4 then 4 else 2)
        ∧ lastRec u = some (3, s.spareBank, s.num Obj.activeBank, s.trialClock + 600)
        ∧ u.num Obj.activations = s.num Obj.activations + 1 ∧ s.sent u (.event 0xA007 0) ∧ s.replied u w .ok evs)
    ∧ (w.ok = true → s.updSt = 6 →
      s.acts (.confirm w) w Obj.updAction (leBytes 1 4) all
        (fun u => u.updSt = 0 ∧ u.mgmt.upd = Upd.reset ∧ u.num Obj.updTrialRuns = 0 ∧ u.num Obj.confirms = s.num Obj.confirms + 1
          ∧ lastRec u = some (4, s.num Obj.activeBank, 1 - min 1 (s.num Obj.activeBank), 0) ∧ s.sent u (.event 0xA008 0))
      ∧ s.begins (.rollback w) w Obj.updAction (leBytes 1 6) [] [.objs, .mgmt]
        (fun u => u.updSt = 7 ∧ u.mgmt.upd = { upd with owed := some ⟨w, Obj.updAction⟩, cause := 3, since := s.dev.now }))
    ∧ (s.updSt = 6 → ∃ u, Leaves .trialDeadlineExpiry s u ∧ s.changesOnly u [.objs, .mgmt] ∧ u.updSt = 7
      ∧ u.mgmt.upd = { upd with owed := none, cause := 1, since := s.dev.now } ∧ ∀ k, k ≠ Obj.updState → u.num k = s.num k)
    ∧ (∀ key : Nat, outside → upd.owed = some ⟨w, key⟩ → s.updSt = 7 → s.coreRuns 0 = true → s.trialPrior < 2 → upd.slots.length ≤ 6 →
      let p := s.trialPrior
      let a := s.num Obj.activeBank
      let x := (s.verifyImage (s.bank p).bytes (imgLen (s.bank p).bytes) (imgDigest (s.bank p).bytes)).1
      ∃ u evs, Leaves .rollbackComplete s u ∧ s.changesOnly u (.dev :: .ep :: all) ∧ u.updSt = 0 ∧ u.num Obj.updTrialRuns = 0 ∧ u.mgmt.upd = Upd.reset
        ∧ (x = 1 → u.dev = s.dev ∧ u.ep = { s.ep with descGen := (s.ep.descGen + 1) % 2 ^ 32 } ∧ u.num Obj.activeBank = p ∧ u.num Obj.fwVersion = imgVersion (s.bank p).bytes ∧ lastRec u = some (5, p, a, 0)
          ∧ u.num Obj.rollbacks = s.num Obj.rollbacks + 1 ∧ s.sent u (.event 0xA009 upd.cause) ∧ s.replied u w .ok evs)
        ∧ (x ≠ 1 → u.dev = { s.dev with fresh := s.dev.fresh + 1 } ∧ u.ep = s.ep ∧ u.num Obj.activeBank = a ∧ lastRec u = some (4, a, p, 0) ∧ u.num Obj.updReason = 0xA10B
          ∧ s.sent u (.event 0xA00E 0) ∧ s.replied u w s.openStatus.1 evs))
    ∧ (∀ v : BitVec 8, w.ok = true → v.toNat < 4 → (List.range 4).filter s.slotValid ≠ [v.toNat] →
        (let b := (s.bank (s.num Obj.activeBank)).bytes; numAt b (imgLen b - 252) 1 ≠ v.toNat) →
      s.obeys (.rootSlotRevoke w v) w Obj.rootSlotRevoke (leBytes 1 v.toNat) [.event 0xA00D v.toNat] [.objs, .aon, .mgmt, .flash, .out]
        (fun u => u.slotValid v.toNat = false ∧ (∀ i, i ≠ v.toNat → u.slotValid i = s.slotValid i)
          ∧ u.flash = { s.flash with revoked := u.flash.revoked }))

/-- What a chain's member hears (R704): a header from the previous device acts as START and is acknowledged, a fragment waits for the rest
of its block, and a complete block acts as a block write, which is acknowledged at once or after it is written. -/
def Obligations.RelayFramesActAsWrites : Prop :=
  ∀ (s : State) (f : RelayFrame),
    let r := s.mgmt.relay
    let upd := s.mgmt.upd
    let ack (st : Status) : Out := .relay 3 st.code (s.num Obj.updContainerId) (s.num Obj.updBlockNext) 0 0 []
    let h := f.body
    let formed : Prop := headerFormed h = true ∧ headerPart h = true
      ∧ (hdrFull h = true ∨ (s.noImage = false ∧ slice h 40 48 = s.blob Obj.imageDigest))
    let relayed : List Out := if s.relays then [.relay 1 0 (hdrId h) 0 0 0 h] else []
    f.body.length ≤ 1200 → s.takesFrames = true → s.fromPrev f = true →
      ((s.updSt ≤ 2 ∨ s.updSt = 4) → s.blocked.isNone = true → formed →
        (s.updSt = 1 → hdrId h = s.num Obj.updContainerId →
          ∃ u, exec (.relayHeader f) s = .next (s.ran (fun _ => u)) ∧ s.changesOnly u [.objs, .aon, .mgmt, .out] ∧ u.updSt = 1
            ∧ u.mgmt.upd = upd ∧ u.mgmt.relay = r ∧ u.num Obj.updBlockNext = s.num Obj.updBlockNext
            ∧ u.out = s.out ++ [.event 0xA001 1] ++ relayed ++ [ack .ok])
        ∧ ((s.updSt = 1 → hdrId h ≠ s.num Obj.updContainerId) →
          ∃ u, exec (.relayHeader f) s = .next (s.ran (fun _ => u)) ∧ u.updSt = 1
            ∧ u.mgmt.upd = { Upd.reset with header := h } ∧ u.num Obj.updContainerId = hdrId h ∧ u.num Obj.updBlockNext = 0
            ∧ u.bank s.spareBank = ⟨3, [], false⟩
            ∧ (upd.block = none → s.changesOnly u [.objs, .aon, .mgmt, .flash, .out]
              ∧ u.out = s.out ++ [.event 0xA001 0] ++ relayed ++ [.relay 3 0 (hdrId h) 0 0 0 []])))
      ∧ (f.containerId.toNat = s.num Obj.updContainerId →
        let old := if r.began ∧ r.blk = f.word.toNat then r.frags else []
        let frags := FMap.put old f.frag.toNat f.body
        let whole : Bool := (List.range f.frags.toNat).all (fun i => frags.any (fun e => e.1 == i))
        let body := (List.range f.frags.toNat).flatMap (fun i => FMap.find [] frags i)
        let sound : Prop := (blockBytes upd.header s.baseImage body).isSome = true
        let done (u : State) : Prop := exec (.relayData f) s = .next (s.ran (fun _ => u)) ∧ u.updSt = s.updSt
          ∧ u.mgmt.relay = { r with frags := [], began := false } ∧ u.num Obj.updBlockNext = s.num Obj.updBlockNext
        (whole = false → ∃ u, exec (.relayData f) s = .next (s.ran (fun _ => u)) ∧ s.changesOnly u [.objs, .mgmt]
          ∧ u.mgmt = { s.mgmt with relay := { r with blk := f.word.toNat, frags := frags, began := true } }
          ∧ ∀ k, k ≠ Obj.t1sFramesRx → u.num k = s.num k)
        ∧ (whole = true → s.updSt ≠ 1 →
          ∃ u, done u ∧ s.changesOnly u [.objs, .mgmt, .out] ∧ u.mgmt.upd = upd ∧ u.out = s.out ++ [ack .modeConflict])
        ∧ (whole = true → s.updSt = 1 → ¬sound →
          ∃ u, done u ∧ s.changesOnly u [.objs, .aon, .mgmt, .out] ∧ u.mgmt.upd = upd
            ∧ u.num Obj.blocksDamaged = s.num Obj.blocksDamaged + 1 ∧ u.out = s.out ++ [.event 0xA002 0] ++ [ack .damaged])
        ∧ (whole = true → s.updSt = 1 → sound → numAt body 0 4 < s.num Obj.updBlockNext →
          ∃ u, done u ∧ s.changesOnly u [.objs, .mgmt, .out] ∧ u.mgmt.upd = upd ∧ u.out = s.out ++ [ack .ok])
        ∧ (whole = true → s.updSt = 1 → sound → numAt body 0 4 = s.num Obj.updBlockNext → upd.block = none →
          ∃ u, done u ∧ s.changesOnly u [.objs, .mgmt] ∧ u.mgmt.upd = { upd with block := some body, owed := none }
            ∧ ∀ k, k ≠ Obj.t1sFramesRx → u.num k = s.num k))

/-- What a chain's head or member sends (R704–R706): an ACK frees what it covers, ends a pause and lets the next written blocks go, at most 4
unacknowledged; a timeout resends its block or, after 20 resends, pauses; a member in RECEIVING acknowledges at each tick. -/
def Obligations.RelayForwardsBlocks : Prop :=
  ∀ (s : State),
    let r := s.mgmt.relay
    let upd := s.mgmt.upd
    (∀ f : RelayFrame, f.body.length ≤ 1200 → s.takesFrames = true → f.magicOk = true → s.relays = true → f.slot.toNat = s.num Obj.relayNext →
        f.containerId.toNat = s.num Obj.updContainerId →
      let n := f.word.toNat
      let kept := if r.paused then [] else r.sent.filter (fun k => decide (n ≤ k))
      let next := if r.paused then n else max r.next n
      ∃ u m, exec (.relayAck f) s = .next (s.ran (fun _ => u)) ∧ s.changesOnly u [.objs, .mgmt, .out] ∧ u.num Obj.relayNextBlock = n
        ∧ u.num Obj.relayForwarded = s.num Obj.relayForwarded + (n - s.num Obj.relayNextBlock)
        ∧ u.mgmt = { s.mgmt with relay := { r with
            sent := kept ++ (List.range m).map (fun i => next + i), paused := false, next := next + m
            resend := if r.paused then [] else r.resend.filter (fun e => decide (n ≤ e.1)) } }
        ∧ (∀ i, i < m → kept.length + i < 4 ∧ FMap.find [] upd.blocks (next + i) ≠ [])
        ∧ (4 ≤ kept.length + m ∨ FMap.find [] upd.blocks (next + m) = []))
    ∧ (∀ blk : BitVec 32,
      let c := FMap.find 0 r.resend blk.toNat
      (r.sent.contains blk.toNat = true → r.paused = false → c < 20 →
        ∃ u frags, exec (.relayAckTimeout blk) s = .next (s.ran (fun _ => u)) ∧ s.changesOnly u [.objs, .mgmt, .out] ∧ u.out = s.out ++ frags
          ∧ frags.length = ((FMap.find [] upd.blocks blk.toNat).length + 1199) / 1200
          ∧ u.mgmt = { s.mgmt with relay := { r with resend := FMap.put r.resend blk.toNat (c + 1) } }
          ∧ u.num Obj.relayResends = s.num Obj.relayResends + 1)
      ∧ (r.sent.contains blk.toNat = true → r.paused = false → 20 ≤ c →
        ∃ u, exec (.relayAckTimeout blk) s = .next (s.ran (fun _ => u)) ∧ s.changesOnly u [.objs, .aon, .mgmt, .out]
          ∧ u.mgmt.upd = upd ∧ u.mgmt.relay = { r with paused := true } ∧ u.out = s.out ++ [.event 0xA00C 0])
      ∧ (r.sent.contains blk.toNat = false ∨ r.paused = true → exec (.relayAckTimeout blk) s = .next (s.ran (fun _ => s))))
    ∧ (s.num Obj.relayRole = 2 → s.updSt = 1 →
      ∃ u, exec .relayAckTick s = .next (s.ran (fun _ => u)) ∧ s.changesOnly u [.objs, .out]
        ∧ u.out = s.out ++ [.relay 3 (s.num Obj.updLastStatus) (s.num Obj.updContainerId) (s.num Obj.updBlockNext) 0 0 []])
    ∧ ((s.num Obj.relayRole ≠ 2 ∨ s.updSt ≠ 1) → exec .relayAckTick s = .next (s.ran (fun _ => s)))

/-! ## Power, resets and pins -/

/-- Resets and the start (R732–R741, R652, R654): every reset of a kind puts everything volatile back and keeps the backup domain and the
flash, its release loads the generators (R381, R459) and enters BOOT with the stored configuration, and INIT ends in SERVICE, DEGRADED or HOLD. -/
def Obligations.ResetsAndStart : Prop :=
  ∀ s : State, s.updSt ≠ 5 → s.updSt ≠ 7 →
    let fresh (u : State) (kind : Nat) (ks : List Nat) : Prop := u.dev.state = .reset ∧ u.dev.startAt = s.dev.now
      ∧ u.mgmt.power.kind = kind ∧ u.num Obj.lastResetKind = kind ∧ (∀ x ∈ [Part.ports, .path, .dir, .tide, .dram, .ctl], x.same State.reset u)
      ∧ u.flash = s.flash ∧ u.ep = { Ep.reset with perst := s.ep.perst } ∧ u.mgmt.dict = Mgmt.reset.dict ∧ u.mgmt.upd = Upd.reset
      ∧ (∀ k ∈ State.keptObjs, k ∉ ks → u.num k = s.num k)
      ∧ u.num Obj.memholdState = (if s.mgmt.power.hold then 1 else 0)
      ∧ (∀ k, k ∉ State.keptObjs → k ∉ Obj.memholdState :: Obj.lastResetKind :: ks → State.reportObj k = false → u.num k = objDflt k)
      ∧ (s.dev.state ≠ .reset → s.sent u (.event 0xB001 (s.dev.state.code + 256 * DevState.reset.code)))
    (s.powered = false ∨ s.mgmt.power.kind = 0 → ∃ u, Leaves .powerOn s u ∧ fresh u 1 [] ∧ u.mgmt.power.main = true)
    ∧ (s.powered = true →
      (∃ u, Leaves .resetN s u ∧ fresh u 2 [])
      ∧ (s.mgmt.power.due = true → ∃ u, Leaves .commandReset s u ∧ fresh u 3 [])
      ∧ (∃ u, Leaves .pwrgoodFall s u ∧ fresh u 5 [] ∧ u.mgmt.power.thermtrip = false
        ∧ (s.mgmt.power.thermtrip = true → s.sent u (.thermtrip false)))
      ∧ (∀ rail : BitVec 4, 1 ≤ rail.toNat → rail.toNat ≤ 9 → ∃ u, Leaves (.railFault rail) s u
        ∧ fresh u 5 [Obj.railFaults, Obj.lastRailFault] ∧ u.num Obj.railFaults = 1 ∧ u.num Obj.lastRailFault = rail.toNat
        ∧ s.sent u (.event 0xB050 rail.toNat))
      ∧ (∃ u, Leaves .clockLoss s u ∧ fresh u 4 [Obj.clockResets] ∧ u.num Obj.clockResets = s.num Obj.clockResets + 1))
    ∧ (∀ w : Who, w.ok = true →
      s.obeys (.deviceReset w 0xA5) w Obj.deviceReset (leBytes 1 0xA5) [] [.objs, .mgmt, .out]
        (fun u => u.mgmt.power = { s.mgmt.power with due := true }))
    ∧ (∀ straps : BitVec 3, s.dev.state = .reset → s.mgmt.power.kind ≠ 0 →
      ∃ u, Leaves (.resetRelease straps) s u ∧ s.changesOnly u [.dev, .objs, .ports, .path, .dram, .aon, .mgmt, .flash, .out]
        ∧ (let drawn := if u.num Obj.srSeedMode = 1 then 0 else 1
          u.path = { s.path with sr := if u.num Obj.srSeedMode = 1 then BitVec.ofNat 64 (u.num Obj.srSeed) else Config.fresh s.dev.fresh }
            ∧ u.dev.fresh = s.dev.fresh + drawn + 8
            ∧ (∀ k : Fin 8, (u.chan (32 * k)).lfsr = (Config.fresh (s.dev.fresh + drawn + k)).setWidth 32)
            ∧ ∀ c, u.chan c = { s.chan c with lfsr := (u.chan c).lfsr })
        ∧ u.dram.mem = s.dram.mem ∧ u.dram.gmeta = s.dram.gmeta ∧ u.dev.state = .boot ∧ u.dev.startAt = (if s.mgmt.power.kind = 1 then s.dev.startAt else s.dev.now)
        ∧ u.mgmt.power = { s.mgmt.power with straps := straps } ∧ u.num (Obj.coreState 0) = 1 ∧ u.num Obj.lastResetKind = s.mgmt.power.kind
        ∧ s.sent u (.event 0xB002 s.mgmt.power.kind)
        ∧ (∀ p : Fin 16, u.ports[p] = if u.num (Obj.portEnable p) = 0 then { s.ports[p] with state := .disabled } else s.ports[p])
        ∧ (s.flash.wipe = true → u.flash = { s.flash with journal := [], wipe := false } ∧ u.num Obj.configLoadStatus = 2)
        ∧ (∀ b : Byte, s.flash.wipe = false → s.flash.journal = [(Obj.floodThreshold, [b])] → b ≠ 0 → u.num Obj.floodThreshold = b.toNat
          ∧ u.num Obj.configLoadStatus = 0))
    ∧ (s.dev.state = .init → s.num Obj.nearFillState = 2 → s.allTrained (List.range 32) = true →
        State.classFault ((List.range 64).map s.stagedClass) = none →
      ∃ u, Leaves .leaveInit s u ∧ s.changesOnly u [.dev, .objs, .ctl, .aon, .mgmt, .out] ∧ (∀ c < 64, u.classOf c = s.stagedClass c)
        ∧ u.num Obj.startToService = (s.dev.now - s.dev.startAt) / cyclesUs ∧ s.sent u (.event 0x5002 0)
        ∧ (s.holdLevel = false → u.dev.state = if s.anyFence then .degraded else .service)
        ∧ (s.holdLevel = true → u.dev.state = .hold ∧ u.mgmt.power.phase = .entering ∧ u.mgmt.power.holdAt = s.dev.now))

/-- HOLD and its pin (R742–R747): MEMHOLD_N puts a serving device into HOLD, the entry ends in self-refresh, the exit recalibrates every
stack and channel once, and a chattering pin latches a fault until it is acknowledged. -/
def Obligations.HoldFollowsItsPin : Prop :=
  ∀ s : State, s.powered = true →
    let calm (xs : List Nat) : Prop := (s.edges xs).length ≤ 16
    let serving : Bool := s.dev.state == .service || s.dev.state == .degraded
    let p := s.mgmt.power
    (p.hold = false → calm p.holdChg → s.num Obj.memholdState = 0 →
      ∃ u, Leaves .memholdActive s u ∧ s.changesOnly u [.objs, .mgmt] ∧ u.num Obj.memholdState = 1
        ∧ (∀ k, k ≠ Obj.memholdState → u.num k = s.num k)
        ∧ u.mgmt.power = { p with hold := true, holdChg := s.edges p.holdChg
                                  holdDue := if serving && p.holdDue == 0 then s.aonCycle + 1 else p.holdDue })
    ∧ (p.holdDue ≠ 0 → p.holdDue ≤ s.aonCycle → (p.tampDue = 0 ∨ s.aonCycle < p.tampDue) → serving = true →
      s.aonDue.dev.state = .hold ∧ s.aonDue.num Obj.holdEntries = s.num Obj.holdEntries + 1
        ∧ s.aonDue.mgmt.power = { p with holdDue := 0, holdAt := s.dev.now, phase := .entering })
    ∧ (p.hold = true → calm p.holdChg → s.num Obj.memholdState = 1 →
      ∃ u, Leaves .memholdInactive s u ∧ s.changesOnly u [.objs, .mgmt] ∧ u.num Obj.memholdState = 0
        ∧ u.mgmt.power = { p with hold := false, holdChg := s.edges p.holdChg, phase := if p.phase = .held then .exiting else p.phase })
    ∧ (p.hold = true → ¬ calm p.holdChg → s.num Obj.memholdState ≠ 2 →
      ∃ u, Leaves .memholdInactive s u ∧ s.changesOnly u [.objs, .aon, .mgmt, .out] ∧ u.num Obj.memholdState = 2 ∧ u.out = s.out ++ [.event 0xB013 0])
    ∧ (s.dev.state = .hold →
      (p.phase = .entering → s.drained = true →
        ∃ u, Leaves .holdEntryComplete s u ∧ s.changesOnly u [.objs, .dram, .aon, .mgmt, .out] ∧ u.out = s.out ++ [.event 0xB010 0]
          ∧ u.mgmt.power = { p with phase := if s.holdLevel then .held else .exiting }
          ∧ (∀ c, 256 ≤ c → c < 280 → s.chanServes c = true → (u.chan c).sr = .held ∧ (u.chan c).openRow = [])
          ∧ u.dram.mem = s.dram.mem ∧ u.dram.gmeta = s.dram.gmeta)
      ∧ (s.holdLevel = true → ∃ u, Leaves .holdReminder s u ∧ s.changesOnly u [.objs, .aon, .mgmt, .out] ∧ u.out = s.out ++ [.event 0xB011 0])
      ∧ (p.phase = .exiting →
        ∃ u, Leaves .holdExitComplete s u ∧ s.changesOnly u [.dev, .objs, .dram, .aon, .mgmt, .out]
          ∧ u.dev.state = (if s.anyFence then .degraded else .service) ∧ s.sent u (.event 0xB012 0)
          ∧ u.mgmt.power = { p with phase := .none, holdDue := if s.holdLevel then s.aonCycle + 1 else p.holdDue }
          ∧ (∀ c, 256 ≤ c → c < 280 → s.chanServes c = true → (u.chan c).sr = .no)
          ∧ (∀ k < 8, (s.unit k).st = .inService → u.num (Obj.stackRecals k) = s.num (Obj.stackRecals k) + 1)
          ∧ u.dram.mem = s.dram.mem ∧ u.dram.gmeta = s.dram.gmeta))
    ∧ (∀ (w : Who) (v : BitVec 8), w.ok = true → s.num Obj.memholdState = 2 → (∀ t ∈ p.holdChg, t + cyclesS ≤ s.dev.now) →
        s.num Obj.tamperState ≠ 2 → p.phase = .none → p.held = none →
      s.obeys (.pinChatterAck w v) w Obj.pinChatterAck (leBytes 1 v.toNat) [] [.objs, .mgmt, .out]
        (fun u => u.num Obj.memholdState = (if p.hold then 1 else 0) ∧ u.mgmt.power = p))

/-- The backup domain (R748–R752, R756): TAMPER_N latches its alarm and may reset the device, a loss of main power leaves BACKUP or OFF,
which a return of VBAT or of the rails ends, and a sample in BACKUP latches and logs each alarm at its onset. -/
def Obligations.BackupDomainKeepsAlarms : Prop :=
  ∀ s : State, s.updSt ≠ 5 → s.updSt ≠ 7 →
    let p := s.mgmt.power
    let cleared (u : State) : Prop := ∀ x ∈ [Part.ports, .path, .dir, .tide, .dram, .ctl], x.same State.reset u
    (s.powered = true → p.tamper = false → (s.edges p.tampChg).length ≤ 16 → s.num Obj.tamperState = 0 →
      (s.num Obj.tamperAction ≠ 1 → ∃ u, Leaves .tamperActive s u ∧ s.changesOnly u [.objs, .aon, .mgmt, .out] ∧ u.num Obj.tamperState = 1
        ∧ bit (u.num Obj.backupAlarms) 1 = true ∧ u.out = s.out ++ [.event 0xB020 0])
      ∧ (s.num Obj.tamperAction = 1 → ∃ u, Leaves .tamperActive s u ∧ s.changesOnly u [.objs, .aon, .mgmt, .out] ∧ u.num Obj.tamperState = 1
        ∧ bit (u.num Obj.backupAlarms) 1 = true ∧ u.out = s.out ++ [.event 0xB020 0]
        ∧ u.mgmt.power = { p with tamper := true, tampChg := s.edges p.tampChg, tampDue := s.aonCycle + 1 }))
    ∧ (p.tampDue ≠ 0 → p.tampDue ≤ s.aonCycle → s.aonDue.dev.state = .reset ∧ s.aonDue.num Obj.lastResetKind = 6 ∧ cleared s.aonDue
      ∧ s.aonDue.mgmt.power.tampDue = 0)
    ∧ (s.dev.state ≠ .off → p.tamper = true → (s.edges p.tampChg).length ≤ 16 → s.num Obj.tamperState = 1 →
      (p.held = none → ∃ u, Leaves .tamperInactive s u ∧ s.changesOnly u [.objs, .mgmt] ∧ u.num Obj.tamperState = 0
        ∧ u.mgmt.power = { p with tamper := false, tampChg := s.edges p.tampChg } ∧ ∀ k, k ≠ Obj.tamperState → u.num k = s.num k)
      ∧ (∀ x : BootView, p.held = some x → s.dev.state = .boot → (∀ d ∈ x.dimms, ∀ y, d = some y → y.accepted = true) →
        ∃ u, Leaves .tamperInactive s u ∧ u.num Obj.tamperState = 0 ∧ u.dev.state = .init ∧ u.mgmt.power.boot = false ∧ u.mgmt.power.held = none))
    ∧ (s.powered = true → ∃ u, Leaves .mainPowerLoss s u ∧ cleared u ∧ u.mgmt.power.main = false ∧ u.flash = s.flash
      ∧ (p.vbat = true → u.dev.state = .backup ∧ (∀ k ∈ State.keptObjs, u.num k = s.num k) ∧ u.time64 = s.time64)
      ∧ (p.vbat = false → u.dev.state = .off ∧ u.aon.blog = [] ∧ u.num Obj.backupAlarms = 8 ∧ u.time64 = 0))
    ∧ (s.dev.state = .backup → ∃ u, Leaves .vbatLoss s u ∧ cleared u ∧ u.dev.state = .off ∧ u.aon.blog = [] ∧ u.num Obj.backupAlarms = 8
      ∧ u.mgmt.power.vbat = false)
    ∧ (s.dev.state ≠ .backup → ∃ u, Leaves .vbatLoss s u ∧ s.changesOnly u [.mgmt] ∧ u.mgmt = { s.mgmt with power := { p with vbat := false } })
    ∧ (s.dev.state = .off → ∃ u, Leaves .vbatReturn s u ∧ s.changesOnly u [.dev, .objs, .aon, .mgmt, .out] ∧ u.dev.state = .backup ∧ u.time64 = 0
      ∧ u.mgmt.power.vbat = true)
    ∧ (s.powered = false → ∃ u, Leaves .mainRailsRise s u ∧ s.changesOnly u [.dev, .objs, .aon, .mgmt, .out] ∧ u.dev.state = .reset
      ∧ u.mgmt.power.main = true ∧ u.mgmt.power.kind = 0)
    ∧ (∀ (mv : BitVec 16) (temp : Int) (tamper : Bool),
      let now := s.alarmCauses mv.toNat temp (tamper || s.tamperLevel)
      (s.dev.state = .backup → ∃ u, Leaves (.backupSample mv temp tamper) s u ∧ s.changesOnly u [.objs, .aon, .mgmt]
        ∧ u.num Obj.vbatMv = mv.toNat ∧ u.mgmt = { s.mgmt with power := { p with causes := now } }
        ∧ (∀ i < 4, bit (u.num Obj.backupAlarms) i = (bit (s.num Obj.backupAlarms) i || (decide (i < 3) && bit now i)))
        ∧ u.aon.blogSeq = s.aon.blogSeq + ((List.range 3).filter (fun i => bit now i && !bit (p.causes &&& s.num Obj.backupAlarms) i)).length)
      ∧ (s.dev.state ≠ .off → s.dev.state ≠ .backup → ∃ u, Leaves (.backupSample mv temp tamper) s u ∧ s.changesOnly u [.objs, .mgmt]
        ∧ u.num Obj.vbatMv = mv.toNat ∧ ∀ k, k ≠ Obj.vbatMv → u.num k = s.num k))
    ∧ (∀ (w : Who) (v : BitVec 8), w.ok = true →
      s.obeys (.backupAlarmAck w v) w Obj.backupAlarmAck (leBytes 1 v.toNat) [] [.objs, .mgmt, .out]
        (fun u => bit (u.num Obj.backupAlarms) 0 = (bit (s.num Obj.backupAlarms) 0 && bit p.causes 0)
          ∧ bit (u.num Obj.backupAlarms) 1 = (bit (s.num Obj.backupAlarms) 1 && s.tamperLevel)
          ∧ bit (u.num Obj.backupAlarms) 2 = (bit (s.num Obj.backupAlarms) 2 && bit p.causes 2)
          ∧ bit (u.num Obj.backupAlarms) 3 = (bit (s.num Obj.backupAlarms) 3 && s.num Obj.rtcValid == 0)))

/-! ## Grants and Tidegauge -/

/-- H2 grants a request that alone waits and is eligible, where it has not yet arbitrated in this cycle: the request leaves its receive
buffer, takes its slot, its sequence number and its stamp, step 4 follows, and then the grants of the migration jobs (R417–R423); nothing
else is touched by the grant itself. -/
def Obligations.LoneRequestIsGranted : Prop :=
  ∀ (s : State) (r : Req), s.path.reqs = [r] → s.eligible [] r = true → s.canTake (s.slots ++ s.freedSlots) r.cls = true →
      s.dev.now < s.ctl.water.filled → s.ctl.water.ranAt ≠ s.dev.now + 1 → (s.green r = true ∨ 0 < s.ctl.water.cap) →
    ∃ d pool,
      let r' : Req := { r with gseq := s.path.gseq + 2, pool := pool, stamp := (s.now16 + r.ddl) % 2 ^ 24, stage := .tide }
      let e := d.step4 r'
      Leaves (.requestGrant none) s (State.jobGrants (e.slots.foldl List.erase (d.slots ++ s.freedSlots)) 4 e).noteSlots
        ∧ d.path = { s.path with reqs := [r'], gseq := s.path.gseq + 2 }
        ∧ d.ports = (s.leaveRx r).ports ∧ s.changesOnly d [.objs, .ports, .path, .ctl, .mgmt]
        ∧ d.ctl = { s.ctl with water := d.ctl.water } ∧ d.mgmt = { s.mgmt with gauge := d.mgmt.gauge }
        ∧ d.ctl.water.cls = s.ctl.water.cls ∧ d.ctl.water.filled = s.ctl.water.filled ∧ d.ctl.water.ranAt = s.dev.now + 1

/-- Tidegauge (R762–R778): snapshots and clears of counters, filters and selectors, trace points, the trace buffer and its stream. -/
def Obligations.TidegaugeCountsAndTraces : Prop :=
  (∀ (s : State) (w : Who), w.ok = true →
    let g := s.mgmt.gauge
    let f := s.flushTrace
    let ps : List Part := [.objs, .mgmt, .out]
    let is (u : State) (key : Nat) (v : List Byte) : Prop := ∀ x, objRow (key / 256) (key % 256) = some x → u.num key = State.stored x v
    (∀ v : BitVec 8, s.obeys (.cntSnapshot w v) w Obj.cntSnapshot (leBytes 1 v.toNat) [] ps
        (fun u => (∀ j < 2048, u.num (Obj.cntSnap j) = s.num (Obj.cntValue j)) ∧ u.num Obj.cntSnapshotTime = s.time64))
    ∧ (∀ (j : BitVec 11) (v : BitVec 8), s.obeys (.cntClear w false j v) w (Obj.cntClear j.toNat) (leBytes 1 v.toNat) [] ps
        (fun u => u.num (Obj.cntValue j.toNat) = 0 ∧ s.keepsObjs u [Obj.cntValue j.toNat]))
    ∧ (∀ (j : BitVec 11) (v : BitVec 8), s.obeys (.cntClear w true j v) w Obj.cntClearAll (leBytes 1 v.toNat) [] ps
        (fun u => ∀ i < 2048, u.num (Obj.cntValue i) = 0))
    ∧ (∀ (j : BitVec 11) (v : U64), s.obeys (.counterConfigWrite w j true v) w (Obj.cntFilter j.toNat) (leBytes 8 v.toNat) [] ps
        (fun u => is u (Obj.cntFilter j.toNat) (leBytes 8 v.toNat) ∧ u.num (Obj.cntValue j.toNat) = 0
          ∧ s.keepsObjs u [Obj.cntFilter j.toNat, Obj.cntValue j.toNat]))
    ∧ (∀ (j : BitVec 11) (v : U64),
      let key := Obj.cntSelect j.toNat
      (selectors.contains (v.toNat % 65536) = true →
        s.obeys (.counterConfigWrite w j false v) w key (leBytes 2 v.toNat) [] ps
          (fun u => u.num key = v.toNat % 65536 ∧ u.num (Obj.cntValue j.toNat) = 0 ∧ s.keepsObjs u [key, Obj.cntValue j.toNat]))
      ∧ (selectors.contains (v.toNat % 65536) = false → s.allows w key (leBytes 2 v.toNat) →
        ∃ u, Leaves (.counterConfigWrite w j false v) s u ∧ s.changesOnly u ps ∧ s.keepsObjs u [] ∧ s.replied u w .unsupported []))
    ∧ (∀ (pt : Fin 9) (v : BitVec 32),
      let key := Obj.tpControl pt
      (v.getLsbD 0 = true → s.obeys (.tpControlWrite w pt v) w key (leBytes 4 v.toNat) [] [.dev, .objs, .mgmt, .out]
        (fun u => is u key (leBytes 4 v.toNat) ∧ u.dev = { (s.keepNum key).dev with fresh := s.dev.fresh + 1 }
          ∧ FMap.find 0 u.mgmt.gauge.lfsr (pt.val + 1) = (Config.fresh s.dev.fresh).setWidth 16))
      ∧ (v.getLsbD 0 = false → s.obeys (.tpControlWrite w pt v) w key (leBytes 4 v.toNat) [] [.dev, .objs, .mgmt, .out]
        (fun u => is u key (leBytes 4 v.toNat) ∧ u.dev = (s.keepNum key).dev ∧ u.mgmt.gauge = g)))
    ∧ (∀ v : BitVec 8, s.obeys (.traceModeWrite w v) w Obj.traceMode (leBytes 1 v.toNat) [] ps
        (fun u => is u Obj.traceMode (leBytes 1 v.toNat) ∧ u.mgmt.gauge = { f.mgmt.gauge with stopped := false }))
    ∧ (∀ (auth : Nat) (x : ORow), s.listens w = true →
        (s.counted w).authOf ⟨w, 1, 1, Obj.traceRead / 256, Obj.traceRead % 256, 0, 0, 0, 0, []⟩ = .ok auth →
        objRow (Obj.traceRead / 256) (Obj.traceRead % 256) = some x → x.ra ≤ auth →
      let n := (s.taken w).pathLimit w / 32
      let bs := (f.mgmt.gauge.recs.take n).flatMap TRec.bytes
      ∃ u, Leaves (.traceRead w) s u ∧ s.changesOnly u ps ∧ f.keepsObjs u [] ∧ u.mgmt.gauge.recs = f.mgmt.gauge.recs.drop n
        ∧ s.replies u w 1 .ok x.ty.code bs bs.length)
    ∧ s.obeys (.streamEnableWrite w 1) w Obj.streamEnable (leBytes 1 1) [] ps
        (fun u => u.num Obj.streamEnable = 1 ∧ u.num Obj.streamTail = 0 ∧ u.num Obj.streamHead = 0
          ∧ s.keepsObjs u [Obj.streamEnable, Obj.streamTail, Obj.streamHead])
    ∧ (∀ v : U64, (v.toNat ≤ s.num Obj.streamTail → s.stores (.streamHeadWrite w v) w Obj.streamHead (leBytes 8 v.toNat) v.toNat)
      ∧ (s.num Obj.streamTail < v.toNat → s.allows w Obj.streamHead (leBytes 8 v.toNat) →
        ∃ u, Leaves (.streamHeadWrite w v) s u ∧ s.changesOnly u ps ∧ s.keepsObjs u [] ∧ s.replied u w .unsupported [])))
  ∧ (∀ s : State,
    let f := s.flushTrace
    let g := f.mgmt.gauge
    let tail := s.num Obj.streamTail
    let size := s.num Obj.streamSize
    let used := tail - s.num Obj.streamHead
    let n := min 128 (min ((size - used) / 32) ((size - tail % size) / 32))
    let bs := (g.recs.take n).flatMap TRec.bytes
    s.num Obj.streamEnable = 1 → s.dmaOn = true → s.halted 2 = false → g.recs ≠ [] → used < size →
    ∃ u, Leaves .streamWrite s u ∧ s.changesOnly u [.objs, .mgmt, .out] ∧ u.mgmt.gauge.recs = g.recs.drop n
      ∧ u.out = s.out ++ [.dmaWrite 2 (s.num Obj.streamBase + tail % size) bs]
      ∧ u.num Obj.streamTail = (tail + bs.length) % 2 ^ 64 ∧ ∀ k, k ≠ Obj.streamTail → u.num k = f.num k)
end

