-- ==== Sys2Proof/Laws/Maps.lean ====
section
/-! SUPPORT. Maps by number: reading after writing, and the canonical form. -/

namespace Sys2Proof

variable {α : Type}

@[simp] theorem FMap.find_nil (d : α) (k : Nat) : FMap.find d [] k = d := rfl

theorem FMap.find_put (d : α) (m : FMap α) (k : Nat) (v : α) (j : Nat) :
    FMap.find d (FMap.put m k v) j = if j = k then v else FMap.find d m j := by
  induction m with
  | nil => simp [FMap.put, FMap.find]
  | cons e m ih =>
    obtain ⟨i, w⟩ := e
    simp only [FMap.put]
    split
    · rename_i h; subst h; simp only [FMap.find]; split <;> rfl
    · split
      · simp only [FMap.find]
      · simp only [FMap.find, ih]; split
        · rename_i hk _ hj; subst hj; simp [Ne.symm hk]
        · rfl

theorem FMap.find_del (d : α) (m : FMap α) (k : Nat) (j : Nat) :
    FMap.find d (FMap.del m k) j = if j = k then d else FMap.find d m j := by
  induction m with
  | nil => simp [FMap.del]
  | cons e m ih =>
    obtain ⟨i, w⟩ := e
    simp only [FMap.del, List.filter_cons] at ih ⊢
    split
    · rename_i h
      simp only [FMap.find, ih]
      split
      · rename_i hj; subst hj; simp at h; simp [h]
      · rfl
    · rename_i h
      simp at h
      subst h
      rw [ih]; simp only [FMap.find]; split <;> rfl

/-- A map reads as written at the written number and as before everywhere else. -/
theorem FMap.find_set [DecidableEq α] (d : α) (m : FMap α) (k : Nat) (v : α) (j : Nat) :
    FMap.find d (FMap.set d m k v) j = if j = k then v else FMap.find d m j := by
  unfold FMap.set
  split
  · rename_i h; subst h; exact FMap.find_del _ _ _ _
  · exact FMap.find_put _ _ _ _ _

theorem FMap.mem_put (m : FMap α) (k : Nat) (v : α) (e : Nat × α) : e ∈ FMap.put m k v → e.1 = k ∨ e ∈ m := by
  induction m with
  | nil => intro h; simp [FMap.put] at h; left; simp [h]
  | cons x m ih =>
    obtain ⟨i, w⟩ := x
    simp only [FMap.put]
    split
    · intro h; rcases List.mem_cons.1 h with h | h
      · left; simp [h]
      · right; exact List.mem_cons_of_mem _ h
    · split
      · intro h; rcases List.mem_cons.1 h with h | h
        · left; simp [h]
        · right; exact h
      · intro h; rcases List.mem_cons.1 h with h | h
        · right; simp [h]
        · rcases ih h with h | h
          · left; exact h
          · right; exact List.mem_cons_of_mem _ h

variable [DecidableEq α]

theorem FMap.wf_cons (d : α) (i : Nat) (v : α) (m : FMap α) :
    FMap.wf d ((i, v) :: m) = true ↔ v ≠ d ∧ (∀ e ∈ m, i < e.1) ∧ FMap.wf d m = true := by
  simp [FMap.wf, and_assoc]

theorem FMap.wf_put (d : α) (m : FMap α) (k : Nat) (v : α) (hv : v ≠ d) (h : FMap.wf d m = true) :
    FMap.wf d (FMap.put m k v) = true := by
  induction m with
  | nil => simp [FMap.put, FMap.wf, hv]
  | cons x m ih =>
    obtain ⟨i, w⟩ := x
    rw [FMap.wf_cons] at h
    simp only [FMap.put]
    split
    · rename_i hk; subst hk; rw [FMap.wf_cons]; exact ⟨hv, h.2.1, h.2.2⟩
    · split
      · rename_i hk
        rw [FMap.wf_cons]
        refine ⟨hv, ?_, by rw [FMap.wf_cons]; exact h⟩
        intro e he
        rcases List.mem_cons.1 he with he | he
        · subst he; exact hk
        · exact Nat.lt_trans hk (h.2.1 e he)
      · rename_i h1 h2
        rw [FMap.wf_cons]
        refine ⟨h.1, ?_, ih h.2.2⟩
        intro e he
        rcases FMap.mem_put m k v e he with he | he
        · omega
        · exact h.2.1 e he

theorem FMap.wf_del (d : α) (m : FMap α) (k : Nat) (h : FMap.wf d m = true) : FMap.wf d (FMap.del m k) = true := by
  induction m with
  | nil => rfl
  | cons x m ih =>
    obtain ⟨i, w⟩ := x
    rw [FMap.wf_cons] at h
    simp only [FMap.del, List.filter_cons] at ih ⊢
    split
    · rw [FMap.wf_cons]
      exact ⟨h.1, fun e he => h.2.1 e (List.mem_filter.1 he).1, ih h.2.2⟩
    · exact ih h.2.2

/-- Writing keeps the canonical form. -/
theorem FMap.wf_set (d : α) (m : FMap α) (k : Nat) (v : α) (h : FMap.wf d m = true) : FMap.wf d (FMap.set d m k v) = true := by
  unfold FMap.set
  split
  · exact FMap.wf_del d m k h
  · rename_i hv; exact FMap.wf_put d m k v hv h

theorem FMap.wf_canon (d : α) (m : FMap α) : FMap.wf d (FMap.canon d m) = true := by
  unfold FMap.canon
  split
  · assumption
  · rename_i hc; clear hc
    induction m with
    | nil => rfl
    | cons x m ih => exact FMap.wf_set _ _ _ _ ih

theorem FMap.canon_of_wf (d : α) (m : FMap α) (h : FMap.wf d m = true) : FMap.canon d m = m := by simp [FMap.canon, h]

/-- The canonical form reads as the map does. -/
theorem FMap.find_canon (d : α) (m : FMap α) (k : Nat) : FMap.find d (FMap.canon d m) k = FMap.find d m k := by
  unfold FMap.canon
  split
  · rfl
  · rename_i hc; clear hc
    induction m with
    | nil => rfl
    | cons x m ih =>
      obtain ⟨i, w⟩ := x
      simp only [List.foldr_cons, FMap.find_set, ih, FMap.find]

namespace Machine

/-- Storing bytes keeps the canonical form. -/
theorem State.memWrite_wf (m : FMap Byte) (a : Nat) (bs : List Byte) (h : FMap.wf 0 m = true) :
    FMap.wf 0 (State.memWrite m a bs) = true := by
  induction bs generalizing m a with
  | nil => exact h
  | cons b bs ih => exact ih _ _ (FMap.wf_set _ _ _ _ h)

/-- Memory after storing bytes reads as stored in their range and as before outside it. -/
theorem State.find_memWrite (m : FMap Byte) (a : Nat) (bs : List Byte) (j : Nat) :
    FMap.find 0 (State.memWrite m a bs) j = if a ≤ j ∧ j < a + bs.length then bs.getD (j - a) 0 else FMap.find 0 m j := by
  induction bs generalizing m a with
  | nil => simp only [State.memWrite, List.length_nil, Nat.add_zero]; rw [if_neg (by omega)]
  | cons b bs ih =>
    simp only [State.memWrite, ih, FMap.find_set, List.length_cons]
    by_cases h1 : a + 1 ≤ j ∧ j < a + 1 + bs.length
    · rw [if_pos h1, if_pos (by omega)]
      have : j - a = (j - (a + 1)) + 1 := by omega
      rw [this]; simp
    · rw [if_neg h1]
      by_cases h2 : j = a
      · subst h2; simp
      · rw [if_neg h2, if_neg (by omega)]

/-- Storing a granule keeps memory's canonical form. -/
theorem State.putGran_memWf (s : State) (w : GW) (h : s.memWf = true) : (s.putGran w).memWf = true := by
  simp only [State.memWf, Bool.and_eq_true] at h ⊢
  unfold State.putGran
  constructor
  · simp only [State.bump, State.setNum]; split <;> exact State.memWrite_wf _ _ _ h.1
  · simp only [State.bump, State.setNum]; split <;> exact FMap.wf_set _ _ _ _ h.2

theorem State.canon_memWf (s : State) : s.canon.memWf = true := by
  simp [State.memWf, State.canon, FMap.wf_canon]

theorem State.canon_of_memWf (s : State) (h : s.memWf = true) : s.canon = s := by
  simp only [State.memWf, Bool.and_eq_true] at h
  unfold State.canon
  rw [FMap.canon_of_wf _ _ h.1, FMap.canon_of_wf _ _ h.2]

/-- The canonical form of memory reads as memory did. -/
@[simp] theorem State.canon_memByte (s : State) (a : Nat) : s.canon.memByte a = s.memByte a := FMap.find_canon _ _ _

@[simp] theorem State.canon_gmeta (s : State) (g : Nat) : s.canon.gmeta g = s.gmeta g := FMap.find_canon _ _ _

/-- Reset's memory has the canonical form. -/
theorem State.reset_memWf : State.reset.memWf = true := rfl

end Machine

end Sys2Proof
end

