-- ==== Sys2Proof/Laws/State.lean ====
section
/-! SUPPORT. What each update of the state leaves alone, and what is read after it. -/

namespace Sys2Proof.Machine.State

variable (s : State)

/-! ## Frames -/

theorem changesOnly_refl (ps : List Part) : s.changesOnly s ps := fun x _ => by cases x <;> rfl

theorem changesOnly_trans {s u v : State} {ps : List Part} (h1 : s.changesOnly u ps) (h2 : u.changesOnly v ps) :
    s.changesOnly v ps := by
  intro x hx
  have a := h1 x hx
  have b := h2 x hx
  cases x <;> simp only [Part.same] at a b ⊢ <;> exact b.trans a

theorem changesOnly_mono {s u : State} {ps qs : List Part} (h : s.changesOnly u ps) (hs : ∀ x ∈ ps, x ∈ qs) : s.changesOnly u qs :=
  fun x hx => h x (fun hp => hx (hs x hp))

theorem onlyPort_trans {s u v : State} {p : Fin 16} (h1 : s.onlyPort u p) (h2 : u.onlyPort v p) : s.onlyPort v p :=
  fun q hq => (h2 q hq).trans (h1 q hq)

theorem onlyPort_of_ports {s u : State} (p : Fin 16) (h : u.ports = s.ports) : s.onlyPort u p := fun q _ => by rw [h]

/-- An output that one of several appended ones is. -/
theorem sent_of_mem {s u : State} {o : Out} (xs : List Out) (h : u.out = s.out ++ xs) (ho : o ∈ xs) : s.sent u o := by
  obtain ⟨a, b, e⟩ := List.append_of_mem ho
  exact ⟨a, b, by rw [h, e]; simp⟩

/-! ## Updates of one part -/

theorem setNum_changes (k v : Nat) : s.changesOnly (s.setNum k v) [.objs] := fun x hx => by cases x <;> first | rfl | simp at hx
@[simp] theorem setNum_pending (k v : Nat) : (s.setNum k v).pending = s.pending := rfl
@[simp] theorem setNum_dev (k v : Nat) : (s.setNum k v).dev = s.dev := rfl
@[simp] theorem setNum_ports (k v : Nat) : (s.setNum k v).ports = s.ports := rfl
@[simp] theorem setNum_path (k v : Nat) : (s.setNum k v).path = s.path := rfl
@[simp] theorem setNum_dir (k v : Nat) : (s.setNum k v).dir = s.dir := rfl
@[simp] theorem setNum_tide (k v : Nat) : (s.setNum k v).tide = s.tide := rfl
@[simp] theorem setNum_dram (k v : Nat) : (s.setNum k v).dram = s.dram := rfl
@[simp] theorem setNum_ctl (k v : Nat) : (s.setNum k v).ctl = s.ctl := rfl
@[simp] theorem setNum_ep (k v : Nat) : (s.setNum k v).ep = s.ep := rfl
@[simp] theorem setNum_aon (k v : Nat) : (s.setNum k v).aon = s.aon := rfl
@[simp] theorem setNum_mgmt (k v : Nat) : (s.setNum k v).mgmt = s.mgmt := rfl
@[simp] theorem setNum_flash (k v : Nat) : (s.setNum k v).flash = s.flash := rfl
@[simp] theorem setNum_out (k v : Nat) : (s.setNum k v).out = s.out := rfl

theorem setForced_changes (k v : Nat) : s.changesOnly (s.setForced k v) [.objs] := fun x hx => by cases x <;> first | rfl | simp at hx
@[simp] theorem setForced_pending (k v : Nat) : (s.setForced k v).pending = s.pending := rfl
@[simp] theorem setForced_dev (k v : Nat) : (s.setForced k v).dev = s.dev := rfl
@[simp] theorem setForced_ports (k v : Nat) : (s.setForced k v).ports = s.ports := rfl
@[simp] theorem setForced_path (k v : Nat) : (s.setForced k v).path = s.path := rfl
@[simp] theorem setForced_dir (k v : Nat) : (s.setForced k v).dir = s.dir := rfl
@[simp] theorem setForced_tide (k v : Nat) : (s.setForced k v).tide = s.tide := rfl
@[simp] theorem setForced_dram (k v : Nat) : (s.setForced k v).dram = s.dram := rfl
@[simp] theorem setForced_ctl (k v : Nat) : (s.setForced k v).ctl = s.ctl := rfl
@[simp] theorem setForced_ep (k v : Nat) : (s.setForced k v).ep = s.ep := rfl
@[simp] theorem setForced_aon (k v : Nat) : (s.setForced k v).aon = s.aon := rfl
@[simp] theorem setForced_mgmt (k v : Nat) : (s.setForced k v).mgmt = s.mgmt := rfl
@[simp] theorem setForced_flash (k v : Nat) : (s.setForced k v).flash = s.flash := rfl
@[simp] theorem setForced_out (k v : Nat) : (s.setForced k v).out = s.out := rfl

theorem setBlob_changes (k : Nat) (v : List Byte) : s.changesOnly (s.setBlob k v) [.objs] := fun x hx => by cases x <;> first | rfl | simp at hx
@[simp] theorem setBlob_pending (k : Nat) (v : List Byte) : (s.setBlob k v).pending = s.pending := rfl
@[simp] theorem setBlob_dev (k : Nat) (v : List Byte) : (s.setBlob k v).dev = s.dev := rfl
@[simp] theorem setBlob_ports (k : Nat) (v : List Byte) : (s.setBlob k v).ports = s.ports := rfl
@[simp] theorem setBlob_path (k : Nat) (v : List Byte) : (s.setBlob k v).path = s.path := rfl
@[simp] theorem setBlob_dir (k : Nat) (v : List Byte) : (s.setBlob k v).dir = s.dir := rfl
@[simp] theorem setBlob_tide (k : Nat) (v : List Byte) : (s.setBlob k v).tide = s.tide := rfl
@[simp] theorem setBlob_dram (k : Nat) (v : List Byte) : (s.setBlob k v).dram = s.dram := rfl
@[simp] theorem setBlob_ctl (k : Nat) (v : List Byte) : (s.setBlob k v).ctl = s.ctl := rfl
@[simp] theorem setBlob_ep (k : Nat) (v : List Byte) : (s.setBlob k v).ep = s.ep := rfl
@[simp] theorem setBlob_aon (k : Nat) (v : List Byte) : (s.setBlob k v).aon = s.aon := rfl
@[simp] theorem setBlob_mgmt (k : Nat) (v : List Byte) : (s.setBlob k v).mgmt = s.mgmt := rfl
@[simp] theorem setBlob_flash (k : Nat) (v : List Byte) : (s.setBlob k v).flash = s.flash := rfl
@[simp] theorem setBlob_out (k : Nat) (v : List Byte) : (s.setBlob k v).out = s.out := rfl

theorem updPort_changes (p : Fin 16) (f : Port → Port) : s.changesOnly (s.updPort p f) [.ports] := fun x hx => by cases x <;> first | rfl | simp at hx
@[simp] theorem updPort_pending (p : Fin 16) (f : Port → Port) : (s.updPort p f).pending = s.pending := rfl
@[simp] theorem updPort_dev (p : Fin 16) (f : Port → Port) : (s.updPort p f).dev = s.dev := rfl
@[simp] theorem updPort_objs (p : Fin 16) (f : Port → Port) : (s.updPort p f).objs = s.objs := rfl
@[simp] theorem updPort_path (p : Fin 16) (f : Port → Port) : (s.updPort p f).path = s.path := rfl
@[simp] theorem updPort_dir (p : Fin 16) (f : Port → Port) : (s.updPort p f).dir = s.dir := rfl
@[simp] theorem updPort_tide (p : Fin 16) (f : Port → Port) : (s.updPort p f).tide = s.tide := rfl
@[simp] theorem updPort_dram (p : Fin 16) (f : Port → Port) : (s.updPort p f).dram = s.dram := rfl
@[simp] theorem updPort_ctl (p : Fin 16) (f : Port → Port) : (s.updPort p f).ctl = s.ctl := rfl
@[simp] theorem updPort_ep (p : Fin 16) (f : Port → Port) : (s.updPort p f).ep = s.ep := rfl
@[simp] theorem updPort_aon (p : Fin 16) (f : Port → Port) : (s.updPort p f).aon = s.aon := rfl
@[simp] theorem updPort_mgmt (p : Fin 16) (f : Port → Port) : (s.updPort p f).mgmt = s.mgmt := rfl
@[simp] theorem updPort_flash (p : Fin 16) (f : Port → Port) : (s.updPort p f).flash = s.flash := rfl
@[simp] theorem updPort_out (p : Fin 16) (f : Port → Port) : (s.updPort p f).out = s.out := rfl

theorem emit_changes (o : Out) : s.changesOnly (s.emit o) [.out] := fun x hx => by cases x <;> first | rfl | simp at hx
@[simp] theorem emit_pending (o : Out) : (s.emit o).pending = s.pending := rfl
@[simp] theorem emit_dev (o : Out) : (s.emit o).dev = s.dev := rfl
@[simp] theorem emit_objs (o : Out) : (s.emit o).objs = s.objs := rfl
@[simp] theorem emit_ports (o : Out) : (s.emit o).ports = s.ports := rfl
@[simp] theorem emit_path (o : Out) : (s.emit o).path = s.path := rfl
@[simp] theorem emit_dir (o : Out) : (s.emit o).dir = s.dir := rfl
@[simp] theorem emit_tide (o : Out) : (s.emit o).tide = s.tide := rfl
@[simp] theorem emit_dram (o : Out) : (s.emit o).dram = s.dram := rfl
@[simp] theorem emit_ctl (o : Out) : (s.emit o).ctl = s.ctl := rfl
@[simp] theorem emit_ep (o : Out) : (s.emit o).ep = s.ep := rfl
@[simp] theorem emit_aon (o : Out) : (s.emit o).aon = s.aon := rfl
@[simp] theorem emit_mgmt (o : Out) : (s.emit o).mgmt = s.mgmt := rfl
@[simp] theorem emit_flash (o : Out) : (s.emit o).flash = s.flash := rfl

theorem setRegion_changes (k : Nat) (r : Region) : s.changesOnly (s.setRegion k r) [.ctl] := fun x hx => by cases x <;> first | rfl | simp at hx
@[simp] theorem setRegion_pending (k : Nat) (r : Region) : (s.setRegion k r).pending = s.pending := rfl
@[simp] theorem setRegion_dev (k : Nat) (r : Region) : (s.setRegion k r).dev = s.dev := rfl
@[simp] theorem setRegion_objs (k : Nat) (r : Region) : (s.setRegion k r).objs = s.objs := rfl
@[simp] theorem setRegion_ports (k : Nat) (r : Region) : (s.setRegion k r).ports = s.ports := rfl
@[simp] theorem setRegion_path (k : Nat) (r : Region) : (s.setRegion k r).path = s.path := rfl
@[simp] theorem setRegion_dir (k : Nat) (r : Region) : (s.setRegion k r).dir = s.dir := rfl
@[simp] theorem setRegion_tide (k : Nat) (r : Region) : (s.setRegion k r).tide = s.tide := rfl
@[simp] theorem setRegion_dram (k : Nat) (r : Region) : (s.setRegion k r).dram = s.dram := rfl
@[simp] theorem setRegion_ep (k : Nat) (r : Region) : (s.setRegion k r).ep = s.ep := rfl
@[simp] theorem setRegion_aon (k : Nat) (r : Region) : (s.setRegion k r).aon = s.aon := rfl
@[simp] theorem setRegion_mgmt (k : Nat) (r : Region) : (s.setRegion k r).mgmt = s.mgmt := rfl
@[simp] theorem setRegion_flash (k : Nat) (r : Region) : (s.setRegion k r).flash = s.flash := rfl
@[simp] theorem setRegion_out (k : Nat) (r : Region) : (s.setRegion k r).out = s.out := rfl

theorem setSession_changes (n : Nat) (x : Session) : s.changesOnly (s.setSession n x) [.ctl] := fun x hx => by cases x <;> first | rfl | simp at hx
@[simp] theorem setSession_pending (n : Nat) (x : Session) : (s.setSession n x).pending = s.pending := rfl
@[simp] theorem setSession_dev (n : Nat) (x : Session) : (s.setSession n x).dev = s.dev := rfl
@[simp] theorem setSession_objs (n : Nat) (x : Session) : (s.setSession n x).objs = s.objs := rfl
@[simp] theorem setSession_ports (n : Nat) (x : Session) : (s.setSession n x).ports = s.ports := rfl
@[simp] theorem setSession_path (n : Nat) (x : Session) : (s.setSession n x).path = s.path := rfl
@[simp] theorem setSession_dir (n : Nat) (x : Session) : (s.setSession n x).dir = s.dir := rfl
@[simp] theorem setSession_tide (n : Nat) (x : Session) : (s.setSession n x).tide = s.tide := rfl
@[simp] theorem setSession_dram (n : Nat) (x : Session) : (s.setSession n x).dram = s.dram := rfl
@[simp] theorem setSession_ep (n : Nat) (x : Session) : (s.setSession n x).ep = s.ep := rfl
@[simp] theorem setSession_aon (n : Nat) (x : Session) : (s.setSession n x).aon = s.aon := rfl
@[simp] theorem setSession_mgmt (n : Nat) (x : Session) : (s.setSession n x).mgmt = s.mgmt := rfl
@[simp] theorem setSession_flash (n : Nat) (x : Session) : (s.setSession n x).flash = s.flash := rfl
@[simp] theorem setSession_out (n : Nat) (x : Session) : (s.setSession n x).out = s.out := rfl

theorem setTab_changes (n : Nat) (x : TabSlot) : s.changesOnly (s.setTab n x) [.ctl] := fun x hx => by cases x <;> first | rfl | simp at hx
@[simp] theorem setTab_pending (n : Nat) (x : TabSlot) : (s.setTab n x).pending = s.pending := rfl
@[simp] theorem setTab_dev (n : Nat) (x : TabSlot) : (s.setTab n x).dev = s.dev := rfl
@[simp] theorem setTab_objs (n : Nat) (x : TabSlot) : (s.setTab n x).objs = s.objs := rfl
@[simp] theorem setTab_ports (n : Nat) (x : TabSlot) : (s.setTab n x).ports = s.ports := rfl
@[simp] theorem setTab_path (n : Nat) (x : TabSlot) : (s.setTab n x).path = s.path := rfl
@[simp] theorem setTab_dir (n : Nat) (x : TabSlot) : (s.setTab n x).dir = s.dir := rfl
@[simp] theorem setTab_tide (n : Nat) (x : TabSlot) : (s.setTab n x).tide = s.tide := rfl
@[simp] theorem setTab_dram (n : Nat) (x : TabSlot) : (s.setTab n x).dram = s.dram := rfl
@[simp] theorem setTab_ep (n : Nat) (x : TabSlot) : (s.setTab n x).ep = s.ep := rfl
@[simp] theorem setTab_aon (n : Nat) (x : TabSlot) : (s.setTab n x).aon = s.aon := rfl
@[simp] theorem setTab_mgmt (n : Nat) (x : TabSlot) : (s.setTab n x).mgmt = s.mgmt := rfl
@[simp] theorem setTab_flash (n : Nat) (x : TabSlot) : (s.setTab n x).flash = s.flash := rfl
@[simp] theorem setTab_out (n : Nat) (x : TabSlot) : (s.setTab n x).out = s.out := rfl

theorem setPointer_changes (i v : Nat) : s.changesOnly (s.setPointer i v) [.ctl] := fun x hx => by cases x <;> first | rfl | simp at hx
@[simp] theorem setPointer_pending (i v : Nat) : (s.setPointer i v).pending = s.pending := rfl
@[simp] theorem setPointer_dev (i v : Nat) : (s.setPointer i v).dev = s.dev := rfl
@[simp] theorem setPointer_objs (i v : Nat) : (s.setPointer i v).objs = s.objs := rfl
@[simp] theorem setPointer_ports (i v : Nat) : (s.setPointer i v).ports = s.ports := rfl
@[simp] theorem setPointer_path (i v : Nat) : (s.setPointer i v).path = s.path := rfl
@[simp] theorem setPointer_dir (i v : Nat) : (s.setPointer i v).dir = s.dir := rfl
@[simp] theorem setPointer_tide (i v : Nat) : (s.setPointer i v).tide = s.tide := rfl
@[simp] theorem setPointer_dram (i v : Nat) : (s.setPointer i v).dram = s.dram := rfl
@[simp] theorem setPointer_ep (i v : Nat) : (s.setPointer i v).ep = s.ep := rfl
@[simp] theorem setPointer_aon (i v : Nat) : (s.setPointer i v).aon = s.aon := rfl
@[simp] theorem setPointer_mgmt (i v : Nat) : (s.setPointer i v).mgmt = s.mgmt := rfl
@[simp] theorem setPointer_flash (i v : Nat) : (s.setPointer i v).flash = s.flash := rfl
@[simp] theorem setPointer_out (i v : Nat) : (s.setPointer i v).out = s.out := rfl

theorem setDeficit_changes (m : Nat) (v : Int) : s.changesOnly (s.setDeficit m v) [.ctl] := fun x hx => by cases x <;> first | rfl | simp at hx
@[simp] theorem setDeficit_pending (m : Nat) (v : Int) : (s.setDeficit m v).pending = s.pending := rfl
@[simp] theorem setDeficit_dev (m : Nat) (v : Int) : (s.setDeficit m v).dev = s.dev := rfl
@[simp] theorem setDeficit_objs (m : Nat) (v : Int) : (s.setDeficit m v).objs = s.objs := rfl
@[simp] theorem setDeficit_ports (m : Nat) (v : Int) : (s.setDeficit m v).ports = s.ports := rfl
@[simp] theorem setDeficit_path (m : Nat) (v : Int) : (s.setDeficit m v).path = s.path := rfl
@[simp] theorem setDeficit_dir (m : Nat) (v : Int) : (s.setDeficit m v).dir = s.dir := rfl
@[simp] theorem setDeficit_tide (m : Nat) (v : Int) : (s.setDeficit m v).tide = s.tide := rfl
@[simp] theorem setDeficit_dram (m : Nat) (v : Int) : (s.setDeficit m v).dram = s.dram := rfl
@[simp] theorem setDeficit_ep (m : Nat) (v : Int) : (s.setDeficit m v).ep = s.ep := rfl
@[simp] theorem setDeficit_aon (m : Nat) (v : Int) : (s.setDeficit m v).aon = s.aon := rfl
@[simp] theorem setDeficit_mgmt (m : Nat) (v : Int) : (s.setDeficit m v).mgmt = s.mgmt := rfl
@[simp] theorem setDeficit_flash (m : Nat) (v : Int) : (s.setDeficit m v).flash = s.flash := rfl
@[simp] theorem setDeficit_out (m : Nat) (v : Int) : (s.setDeficit m v).out = s.out := rfl

theorem setEntry_changes (p : Nat) (e : TEntry) : s.changesOnly (s.setEntry p e) [.tide] := fun x hx => by cases x <;> first | rfl | simp at hx
@[simp] theorem setEntry_pending (p : Nat) (e : TEntry) : (s.setEntry p e).pending = s.pending := rfl
@[simp] theorem setEntry_dev (p : Nat) (e : TEntry) : (s.setEntry p e).dev = s.dev := rfl
@[simp] theorem setEntry_objs (p : Nat) (e : TEntry) : (s.setEntry p e).objs = s.objs := rfl
@[simp] theorem setEntry_ports (p : Nat) (e : TEntry) : (s.setEntry p e).ports = s.ports := rfl
@[simp] theorem setEntry_path (p : Nat) (e : TEntry) : (s.setEntry p e).path = s.path := rfl
@[simp] theorem setEntry_dir (p : Nat) (e : TEntry) : (s.setEntry p e).dir = s.dir := rfl
@[simp] theorem setEntry_dram (p : Nat) (e : TEntry) : (s.setEntry p e).dram = s.dram := rfl
@[simp] theorem setEntry_ctl (p : Nat) (e : TEntry) : (s.setEntry p e).ctl = s.ctl := rfl
@[simp] theorem setEntry_ep (p : Nat) (e : TEntry) : (s.setEntry p e).ep = s.ep := rfl
@[simp] theorem setEntry_aon (p : Nat) (e : TEntry) : (s.setEntry p e).aon = s.aon := rfl
@[simp] theorem setEntry_mgmt (p : Nat) (e : TEntry) : (s.setEntry p e).mgmt = s.mgmt := rfl
@[simp] theorem setEntry_flash (p : Nat) (e : TEntry) : (s.setEntry p e).flash = s.flash := rfl
@[simp] theorem setEntry_out (p : Nat) (e : TEntry) : (s.setEntry p e).out = s.out := rfl

theorem setSlot_changes (n : Nat) (x : FarSlot) : s.changesOnly (s.setSlot n x) [.tide] := fun x hx => by cases x <;> first | rfl | simp at hx
@[simp] theorem setSlot_pending (n : Nat) (x : FarSlot) : (s.setSlot n x).pending = s.pending := rfl
@[simp] theorem setSlot_dev (n : Nat) (x : FarSlot) : (s.setSlot n x).dev = s.dev := rfl
@[simp] theorem setSlot_objs (n : Nat) (x : FarSlot) : (s.setSlot n x).objs = s.objs := rfl
@[simp] theorem setSlot_ports (n : Nat) (x : FarSlot) : (s.setSlot n x).ports = s.ports := rfl
@[simp] theorem setSlot_path (n : Nat) (x : FarSlot) : (s.setSlot n x).path = s.path := rfl
@[simp] theorem setSlot_dir (n : Nat) (x : FarSlot) : (s.setSlot n x).dir = s.dir := rfl
@[simp] theorem setSlot_dram (n : Nat) (x : FarSlot) : (s.setSlot n x).dram = s.dram := rfl
@[simp] theorem setSlot_ctl (n : Nat) (x : FarSlot) : (s.setSlot n x).ctl = s.ctl := rfl
@[simp] theorem setSlot_ep (n : Nat) (x : FarSlot) : (s.setSlot n x).ep = s.ep := rfl
@[simp] theorem setSlot_aon (n : Nat) (x : FarSlot) : (s.setSlot n x).aon = s.aon := rfl
@[simp] theorem setSlot_mgmt (n : Nat) (x : FarSlot) : (s.setSlot n x).mgmt = s.mgmt := rfl
@[simp] theorem setSlot_flash (n : Nat) (x : FarSlot) : (s.setSlot n x).flash = s.flash := rfl
@[simp] theorem setSlot_out (n : Nat) (x : FarSlot) : (s.setSlot n x).out = s.out := rfl

theorem setLent_changes (r : Nat) (x : LentRange) : s.changesOnly (s.setLent r x) [.tide] := fun x hx => by cases x <;> first | rfl | simp at hx
@[simp] theorem setLent_pending (r : Nat) (x : LentRange) : (s.setLent r x).pending = s.pending := rfl
@[simp] theorem setLent_dev (r : Nat) (x : LentRange) : (s.setLent r x).dev = s.dev := rfl
@[simp] theorem setLent_objs (r : Nat) (x : LentRange) : (s.setLent r x).objs = s.objs := rfl
@[simp] theorem setLent_ports (r : Nat) (x : LentRange) : (s.setLent r x).ports = s.ports := rfl
@[simp] theorem setLent_path (r : Nat) (x : LentRange) : (s.setLent r x).path = s.path := rfl
@[simp] theorem setLent_dir (r : Nat) (x : LentRange) : (s.setLent r x).dir = s.dir := rfl
@[simp] theorem setLent_dram (r : Nat) (x : LentRange) : (s.setLent r x).dram = s.dram := rfl
@[simp] theorem setLent_ctl (r : Nat) (x : LentRange) : (s.setLent r x).ctl = s.ctl := rfl
@[simp] theorem setLent_ep (r : Nat) (x : LentRange) : (s.setLent r x).ep = s.ep := rfl
@[simp] theorem setLent_aon (r : Nat) (x : LentRange) : (s.setLent r x).aon = s.aon := rfl
@[simp] theorem setLent_mgmt (r : Nat) (x : LentRange) : (s.setLent r x).mgmt = s.mgmt := rfl
@[simp] theorem setLent_flash (r : Nat) (x : LentRange) : (s.setLent r x).flash = s.flash := rfl
@[simp] theorem setLent_out (r : Nat) (x : LentRange) : (s.setLent r x).out = s.out := rfl

theorem setChan_changes (c : Nat) (x : ChanSt) : s.changesOnly (s.setChan c x) [.dram] := fun x hx => by cases x <;> first | rfl | simp at hx
@[simp] theorem setChan_pending (c : Nat) (x : ChanSt) : (s.setChan c x).pending = s.pending := rfl
@[simp] theorem setChan_dev (c : Nat) (x : ChanSt) : (s.setChan c x).dev = s.dev := rfl
@[simp] theorem setChan_objs (c : Nat) (x : ChanSt) : (s.setChan c x).objs = s.objs := rfl
@[simp] theorem setChan_ports (c : Nat) (x : ChanSt) : (s.setChan c x).ports = s.ports := rfl
@[simp] theorem setChan_path (c : Nat) (x : ChanSt) : (s.setChan c x).path = s.path := rfl
@[simp] theorem setChan_dir (c : Nat) (x : ChanSt) : (s.setChan c x).dir = s.dir := rfl
@[simp] theorem setChan_tide (c : Nat) (x : ChanSt) : (s.setChan c x).tide = s.tide := rfl
@[simp] theorem setChan_ctl (c : Nat) (x : ChanSt) : (s.setChan c x).ctl = s.ctl := rfl
@[simp] theorem setChan_ep (c : Nat) (x : ChanSt) : (s.setChan c x).ep = s.ep := rfl
@[simp] theorem setChan_aon (c : Nat) (x : ChanSt) : (s.setChan c x).aon = s.aon := rfl
@[simp] theorem setChan_mgmt (c : Nat) (x : ChanSt) : (s.setChan c x).mgmt = s.mgmt := rfl
@[simp] theorem setChan_flash (c : Nat) (x : ChanSt) : (s.setChan c x).flash = s.flash := rfl
@[simp] theorem setChan_out (c : Nat) (x : ChanSt) : (s.setChan c x).out = s.out := rfl

theorem setUnit_changes (u : Nat) (x : DUnitSt) : s.changesOnly (s.setUnit u x) [.dram] := fun x hx => by cases x <;> first | rfl | simp at hx
@[simp] theorem setUnit_pending (u : Nat) (x : DUnitSt) : (s.setUnit u x).pending = s.pending := rfl
@[simp] theorem setUnit_dev (u : Nat) (x : DUnitSt) : (s.setUnit u x).dev = s.dev := rfl
@[simp] theorem setUnit_objs (u : Nat) (x : DUnitSt) : (s.setUnit u x).objs = s.objs := rfl
@[simp] theorem setUnit_ports (u : Nat) (x : DUnitSt) : (s.setUnit u x).ports = s.ports := rfl
@[simp] theorem setUnit_path (u : Nat) (x : DUnitSt) : (s.setUnit u x).path = s.path := rfl
@[simp] theorem setUnit_dir (u : Nat) (x : DUnitSt) : (s.setUnit u x).dir = s.dir := rfl
@[simp] theorem setUnit_tide (u : Nat) (x : DUnitSt) : (s.setUnit u x).tide = s.tide := rfl
@[simp] theorem setUnit_ctl (u : Nat) (x : DUnitSt) : (s.setUnit u x).ctl = s.ctl := rfl
@[simp] theorem setUnit_ep (u : Nat) (x : DUnitSt) : (s.setUnit u x).ep = s.ep := rfl
@[simp] theorem setUnit_aon (u : Nat) (x : DUnitSt) : (s.setUnit u x).aon = s.aon := rfl
@[simp] theorem setUnit_mgmt (u : Nat) (x : DUnitSt) : (s.setUnit u x).mgmt = s.mgmt := rfl
@[simp] theorem setUnit_flash (u : Nat) (x : DUnitSt) : (s.setUnit u x).flash = s.flash := rfl
@[simp] theorem setUnit_out (u : Nat) (x : DUnitSt) : (s.setUnit u x).out = s.out := rfl

theorem setTxn_changes (l : Nat) (t : Option Txn) : s.changesOnly (s.setTxn l t) [.dir] := fun x hx => by cases x <;> first | rfl | simp at hx
@[simp] theorem setTxn_pending (l : Nat) (t : Option Txn) : (s.setTxn l t).pending = s.pending := rfl
@[simp] theorem setTxn_dev (l : Nat) (t : Option Txn) : (s.setTxn l t).dev = s.dev := rfl
@[simp] theorem setTxn_objs (l : Nat) (t : Option Txn) : (s.setTxn l t).objs = s.objs := rfl
@[simp] theorem setTxn_ports (l : Nat) (t : Option Txn) : (s.setTxn l t).ports = s.ports := rfl
@[simp] theorem setTxn_path (l : Nat) (t : Option Txn) : (s.setTxn l t).path = s.path := rfl
@[simp] theorem setTxn_tide (l : Nat) (t : Option Txn) : (s.setTxn l t).tide = s.tide := rfl
@[simp] theorem setTxn_dram (l : Nat) (t : Option Txn) : (s.setTxn l t).dram = s.dram := rfl
@[simp] theorem setTxn_ctl (l : Nat) (t : Option Txn) : (s.setTxn l t).ctl = s.ctl := rfl
@[simp] theorem setTxn_ep (l : Nat) (t : Option Txn) : (s.setTxn l t).ep = s.ep := rfl
@[simp] theorem setTxn_aon (l : Nat) (t : Option Txn) : (s.setTxn l t).aon = s.aon := rfl
@[simp] theorem setTxn_mgmt (l : Nat) (t : Option Txn) : (s.setTxn l t).mgmt = s.mgmt := rfl
@[simp] theorem setTxn_flash (l : Nat) (t : Option Txn) : (s.setTxn l t).flash = s.flash := rfl
@[simp] theorem setTxn_out (l : Nat) (t : Option Txn) : (s.setTxn l t).out = s.out := rfl

theorem updReq_changes (id : Nat) (f : Req → Req) : s.changesOnly (s.updReq id f) [.path] := fun x hx => by cases x <;> first | rfl | simp at hx
@[simp] theorem updReq_pending (id : Nat) (f : Req → Req) : (s.updReq id f).pending = s.pending := rfl
@[simp] theorem updReq_dev (id : Nat) (f : Req → Req) : (s.updReq id f).dev = s.dev := rfl
@[simp] theorem updReq_objs (id : Nat) (f : Req → Req) : (s.updReq id f).objs = s.objs := rfl
@[simp] theorem updReq_ports (id : Nat) (f : Req → Req) : (s.updReq id f).ports = s.ports := rfl
@[simp] theorem updReq_dir (id : Nat) (f : Req → Req) : (s.updReq id f).dir = s.dir := rfl
@[simp] theorem updReq_tide (id : Nat) (f : Req → Req) : (s.updReq id f).tide = s.tide := rfl
@[simp] theorem updReq_dram (id : Nat) (f : Req → Req) : (s.updReq id f).dram = s.dram := rfl
@[simp] theorem updReq_ctl (id : Nat) (f : Req → Req) : (s.updReq id f).ctl = s.ctl := rfl
@[simp] theorem updReq_ep (id : Nat) (f : Req → Req) : (s.updReq id f).ep = s.ep := rfl
@[simp] theorem updReq_aon (id : Nat) (f : Req → Req) : (s.updReq id f).aon = s.aon := rfl
@[simp] theorem updReq_mgmt (id : Nat) (f : Req → Req) : (s.updReq id f).mgmt = s.mgmt := rfl
@[simp] theorem updReq_flash (id : Nat) (f : Req → Req) : (s.updReq id f).flash = s.flash := rfl
@[simp] theorem updReq_out (id : Nat) (f : Req → Req) : (s.updReq id f).out = s.out := rfl

theorem dropReq_changes (id : Nat) : s.changesOnly (s.dropReq id) [.path] := fun x hx => by cases x <;> first | rfl | simp at hx
@[simp] theorem dropReq_pending (id : Nat) : (s.dropReq id).pending = s.pending := rfl
@[simp] theorem dropReq_dev (id : Nat) : (s.dropReq id).dev = s.dev := rfl
@[simp] theorem dropReq_objs (id : Nat) : (s.dropReq id).objs = s.objs := rfl
@[simp] theorem dropReq_ports (id : Nat) : (s.dropReq id).ports = s.ports := rfl
@[simp] theorem dropReq_dir (id : Nat) : (s.dropReq id).dir = s.dir := rfl
@[simp] theorem dropReq_tide (id : Nat) : (s.dropReq id).tide = s.tide := rfl
@[simp] theorem dropReq_dram (id : Nat) : (s.dropReq id).dram = s.dram := rfl
@[simp] theorem dropReq_ctl (id : Nat) : (s.dropReq id).ctl = s.ctl := rfl
@[simp] theorem dropReq_ep (id : Nat) : (s.dropReq id).ep = s.ep := rfl
@[simp] theorem dropReq_aon (id : Nat) : (s.dropReq id).aon = s.aon := rfl
@[simp] theorem dropReq_mgmt (id : Nat) : (s.dropReq id).mgmt = s.mgmt := rfl
@[simp] theorem dropReq_flash (id : Nat) : (s.dropReq id).flash = s.flash := rfl
@[simp] theorem dropReq_out (id : Nat) : (s.dropReq id).out = s.out := rfl

theorem wake_changes (id step : Nat) : s.changesOnly (s.wake id step) [.path] := fun x hx => by cases x <;> first | rfl | simp at hx
@[simp] theorem wake_pending (id step : Nat) : (s.wake id step).pending = s.pending := rfl
@[simp] theorem wake_dev (id step : Nat) : (s.wake id step).dev = s.dev := rfl
@[simp] theorem wake_objs (id step : Nat) : (s.wake id step).objs = s.objs := rfl
@[simp] theorem wake_ports (id step : Nat) : (s.wake id step).ports = s.ports := rfl
@[simp] theorem wake_dir (id step : Nat) : (s.wake id step).dir = s.dir := rfl
@[simp] theorem wake_tide (id step : Nat) : (s.wake id step).tide = s.tide := rfl
@[simp] theorem wake_dram (id step : Nat) : (s.wake id step).dram = s.dram := rfl
@[simp] theorem wake_ctl (id step : Nat) : (s.wake id step).ctl = s.ctl := rfl
@[simp] theorem wake_ep (id step : Nat) : (s.wake id step).ep = s.ep := rfl
@[simp] theorem wake_aon (id step : Nat) : (s.wake id step).aon = s.aon := rfl
@[simp] theorem wake_mgmt (id step : Nat) : (s.wake id step).mgmt = s.mgmt := rfl
@[simp] theorem wake_flash (id step : Nat) : (s.wake id step).flash = s.flash := rfl
@[simp] theorem wake_out (id step : Nat) : (s.wake id step).out = s.out := rfl

theorem setStore_changes (l : Nat) (x : StoreLine) : s.changesOnly (s.setStore l x) [.path] := fun x hx => by cases x <;> first | rfl | simp at hx
@[simp] theorem setStore_pending (l : Nat) (x : StoreLine) : (s.setStore l x).pending = s.pending := rfl
@[simp] theorem setStore_dev (l : Nat) (x : StoreLine) : (s.setStore l x).dev = s.dev := rfl
@[simp] theorem setStore_objs (l : Nat) (x : StoreLine) : (s.setStore l x).objs = s.objs := rfl
@[simp] theorem setStore_ports (l : Nat) (x : StoreLine) : (s.setStore l x).ports = s.ports := rfl
@[simp] theorem setStore_dir (l : Nat) (x : StoreLine) : (s.setStore l x).dir = s.dir := rfl
@[simp] theorem setStore_tide (l : Nat) (x : StoreLine) : (s.setStore l x).tide = s.tide := rfl
@[simp] theorem setStore_dram (l : Nat) (x : StoreLine) : (s.setStore l x).dram = s.dram := rfl
@[simp] theorem setStore_ctl (l : Nat) (x : StoreLine) : (s.setStore l x).ctl = s.ctl := rfl
@[simp] theorem setStore_ep (l : Nat) (x : StoreLine) : (s.setStore l x).ep = s.ep := rfl
@[simp] theorem setStore_aon (l : Nat) (x : StoreLine) : (s.setStore l x).aon = s.aon := rfl
@[simp] theorem setStore_mgmt (l : Nat) (x : StoreLine) : (s.setStore l x).mgmt = s.mgmt := rfl
@[simp] theorem setStore_flash (l : Nat) (x : StoreLine) : (s.setStore l x).flash = s.flash := rfl
@[simp] theorem setStore_out (l : Nat) (x : StoreLine) : (s.setStore l x).out = s.out := rfl

theorem dropStore_changes (l : Nat) : s.changesOnly (s.dropStore l) [.path] := fun x hx => by cases x <;> first | rfl | simp at hx
@[simp] theorem dropStore_pending (l : Nat) : (s.dropStore l).pending = s.pending := rfl
@[simp] theorem dropStore_dev (l : Nat) : (s.dropStore l).dev = s.dev := rfl
@[simp] theorem dropStore_objs (l : Nat) : (s.dropStore l).objs = s.objs := rfl
@[simp] theorem dropStore_ports (l : Nat) : (s.dropStore l).ports = s.ports := rfl
@[simp] theorem dropStore_dir (l : Nat) : (s.dropStore l).dir = s.dir := rfl
@[simp] theorem dropStore_tide (l : Nat) : (s.dropStore l).tide = s.tide := rfl
@[simp] theorem dropStore_dram (l : Nat) : (s.dropStore l).dram = s.dram := rfl
@[simp] theorem dropStore_ctl (l : Nat) : (s.dropStore l).ctl = s.ctl := rfl
@[simp] theorem dropStore_ep (l : Nat) : (s.dropStore l).ep = s.ep := rfl
@[simp] theorem dropStore_aon (l : Nat) : (s.dropStore l).aon = s.aon := rfl
@[simp] theorem dropStore_mgmt (l : Nat) : (s.dropStore l).mgmt = s.mgmt := rfl
@[simp] theorem dropStore_flash (l : Nat) : (s.dropStore l).flash = s.flash := rfl
@[simp] theorem dropStore_out (l : Nat) : (s.dropStore l).out = s.out := rfl

theorem setDoor_changes (d : Nat) (x : Door) : s.changesOnly (s.setDoor d x) [.ep] := fun x hx => by cases x <;> first | rfl | simp at hx
@[simp] theorem setDoor_pending (d : Nat) (x : Door) : (s.setDoor d x).pending = s.pending := rfl
@[simp] theorem setDoor_dev (d : Nat) (x : Door) : (s.setDoor d x).dev = s.dev := rfl
@[simp] theorem setDoor_objs (d : Nat) (x : Door) : (s.setDoor d x).objs = s.objs := rfl
@[simp] theorem setDoor_ports (d : Nat) (x : Door) : (s.setDoor d x).ports = s.ports := rfl
@[simp] theorem setDoor_path (d : Nat) (x : Door) : (s.setDoor d x).path = s.path := rfl
@[simp] theorem setDoor_dir (d : Nat) (x : Door) : (s.setDoor d x).dir = s.dir := rfl
@[simp] theorem setDoor_tide (d : Nat) (x : Door) : (s.setDoor d x).tide = s.tide := rfl
@[simp] theorem setDoor_dram (d : Nat) (x : Door) : (s.setDoor d x).dram = s.dram := rfl
@[simp] theorem setDoor_ctl (d : Nat) (x : Door) : (s.setDoor d x).ctl = s.ctl := rfl
@[simp] theorem setDoor_aon (d : Nat) (x : Door) : (s.setDoor d x).aon = s.aon := rfl
@[simp] theorem setDoor_mgmt (d : Nat) (x : Door) : (s.setDoor d x).mgmt = s.mgmt := rfl
@[simp] theorem setDoor_flash (d : Nat) (x : Door) : (s.setDoor d x).flash = s.flash := rfl
@[simp] theorem setDoor_out (d : Nat) (x : Door) : (s.setDoor d x).out = s.out := rfl

theorem setDict_changes (d : Dict) : s.changesOnly (s.setDict d) [.mgmt] := fun x hx => by cases x <;> first | rfl | simp at hx
@[simp] theorem setDict_pending (d : Dict) : (s.setDict d).pending = s.pending := rfl
@[simp] theorem setDict_dev (d : Dict) : (s.setDict d).dev = s.dev := rfl
@[simp] theorem setDict_objs (d : Dict) : (s.setDict d).objs = s.objs := rfl
@[simp] theorem setDict_ports (d : Dict) : (s.setDict d).ports = s.ports := rfl
@[simp] theorem setDict_path (d : Dict) : (s.setDict d).path = s.path := rfl
@[simp] theorem setDict_dir (d : Dict) : (s.setDict d).dir = s.dir := rfl
@[simp] theorem setDict_tide (d : Dict) : (s.setDict d).tide = s.tide := rfl
@[simp] theorem setDict_dram (d : Dict) : (s.setDict d).dram = s.dram := rfl
@[simp] theorem setDict_ctl (d : Dict) : (s.setDict d).ctl = s.ctl := rfl
@[simp] theorem setDict_ep (d : Dict) : (s.setDict d).ep = s.ep := rfl
@[simp] theorem setDict_aon (d : Dict) : (s.setDict d).aon = s.aon := rfl
@[simp] theorem setDict_flash (d : Dict) : (s.setDict d).flash = s.flash := rfl
@[simp] theorem setDict_out (d : Dict) : (s.setDict d).out = s.out := rfl

theorem setRing_changes (r : Ring) : s.changesOnly (s.setRing r) [.mgmt] := fun x hx => by cases x <;> first | rfl | simp at hx
@[simp] theorem setRing_pending (r : Ring) : (s.setRing r).pending = s.pending := rfl
@[simp] theorem setRing_dev (r : Ring) : (s.setRing r).dev = s.dev := rfl
@[simp] theorem setRing_objs (r : Ring) : (s.setRing r).objs = s.objs := rfl
@[simp] theorem setRing_ports (r : Ring) : (s.setRing r).ports = s.ports := rfl
@[simp] theorem setRing_path (r : Ring) : (s.setRing r).path = s.path := rfl
@[simp] theorem setRing_dir (r : Ring) : (s.setRing r).dir = s.dir := rfl
@[simp] theorem setRing_tide (r : Ring) : (s.setRing r).tide = s.tide := rfl
@[simp] theorem setRing_dram (r : Ring) : (s.setRing r).dram = s.dram := rfl
@[simp] theorem setRing_ctl (r : Ring) : (s.setRing r).ctl = s.ctl := rfl
@[simp] theorem setRing_ep (r : Ring) : (s.setRing r).ep = s.ep := rfl
@[simp] theorem setRing_aon (r : Ring) : (s.setRing r).aon = s.aon := rfl
@[simp] theorem setRing_flash (r : Ring) : (s.setRing r).flash = s.flash := rfl
@[simp] theorem setRing_out (r : Ring) : (s.setRing r).out = s.out := rfl

theorem setPower_changes (p : Power) : s.changesOnly (s.setPower p) [.mgmt] := fun x hx => by cases x <;> first | rfl | simp at hx
@[simp] theorem setPower_pending (p : Power) : (s.setPower p).pending = s.pending := rfl
@[simp] theorem setPower_dev (p : Power) : (s.setPower p).dev = s.dev := rfl
@[simp] theorem setPower_objs (p : Power) : (s.setPower p).objs = s.objs := rfl
@[simp] theorem setPower_ports (p : Power) : (s.setPower p).ports = s.ports := rfl
@[simp] theorem setPower_path (p : Power) : (s.setPower p).path = s.path := rfl
@[simp] theorem setPower_dir (p : Power) : (s.setPower p).dir = s.dir := rfl
@[simp] theorem setPower_tide (p : Power) : (s.setPower p).tide = s.tide := rfl
@[simp] theorem setPower_dram (p : Power) : (s.setPower p).dram = s.dram := rfl
@[simp] theorem setPower_ctl (p : Power) : (s.setPower p).ctl = s.ctl := rfl
@[simp] theorem setPower_ep (p : Power) : (s.setPower p).ep = s.ep := rfl
@[simp] theorem setPower_aon (p : Power) : (s.setPower p).aon = s.aon := rfl
@[simp] theorem setPower_flash (p : Power) : (s.setPower p).flash = s.flash := rfl
@[simp] theorem setPower_out (p : Power) : (s.setPower p).out = s.out := rfl

theorem setGauge_changes (g : Gauge) : s.changesOnly (s.setGauge g) [.mgmt] := fun x hx => by cases x <;> first | rfl | simp at hx
@[simp] theorem setGauge_pending (g : Gauge) : (s.setGauge g).pending = s.pending := rfl
@[simp] theorem setGauge_dev (g : Gauge) : (s.setGauge g).dev = s.dev := rfl
@[simp] theorem setGauge_objs (g : Gauge) : (s.setGauge g).objs = s.objs := rfl
@[simp] theorem setGauge_ports (g : Gauge) : (s.setGauge g).ports = s.ports := rfl
@[simp] theorem setGauge_path (g : Gauge) : (s.setGauge g).path = s.path := rfl
@[simp] theorem setGauge_dir (g : Gauge) : (s.setGauge g).dir = s.dir := rfl
@[simp] theorem setGauge_tide (g : Gauge) : (s.setGauge g).tide = s.tide := rfl
@[simp] theorem setGauge_dram (g : Gauge) : (s.setGauge g).dram = s.dram := rfl
@[simp] theorem setGauge_ctl (g : Gauge) : (s.setGauge g).ctl = s.ctl := rfl
@[simp] theorem setGauge_ep (g : Gauge) : (s.setGauge g).ep = s.ep := rfl
@[simp] theorem setGauge_aon (g : Gauge) : (s.setGauge g).aon = s.aon := rfl
@[simp] theorem setGauge_flash (g : Gauge) : (s.setGauge g).flash = s.flash := rfl
@[simp] theorem setGauge_out (g : Gauge) : (s.setGauge g).out = s.out := rfl

theorem updGauge_changes (f : Gauge → Gauge) : s.changesOnly (s.updGauge f) [.mgmt] := fun x hx => by cases x <;> first | rfl | simp at hx
@[simp] theorem updGauge_pending (f : Gauge → Gauge) : (s.updGauge f).pending = s.pending := rfl
@[simp] theorem updGauge_dev (f : Gauge → Gauge) : (s.updGauge f).dev = s.dev := rfl
@[simp] theorem updGauge_objs (f : Gauge → Gauge) : (s.updGauge f).objs = s.objs := rfl
@[simp] theorem updGauge_ports (f : Gauge → Gauge) : (s.updGauge f).ports = s.ports := rfl
@[simp] theorem updGauge_path (f : Gauge → Gauge) : (s.updGauge f).path = s.path := rfl
@[simp] theorem updGauge_dir (f : Gauge → Gauge) : (s.updGauge f).dir = s.dir := rfl
@[simp] theorem updGauge_tide (f : Gauge → Gauge) : (s.updGauge f).tide = s.tide := rfl
@[simp] theorem updGauge_dram (f : Gauge → Gauge) : (s.updGauge f).dram = s.dram := rfl
@[simp] theorem updGauge_ctl (f : Gauge → Gauge) : (s.updGauge f).ctl = s.ctl := rfl
@[simp] theorem updGauge_ep (f : Gauge → Gauge) : (s.updGauge f).ep = s.ep := rfl
@[simp] theorem updGauge_aon (f : Gauge → Gauge) : (s.updGauge f).aon = s.aon := rfl
@[simp] theorem updGauge_flash (f : Gauge → Gauge) : (s.updGauge f).flash = s.flash := rfl
@[simp] theorem updGauge_out (f : Gauge → Gauge) : (s.updGauge f).out = s.out := rfl

@[simp] theorem updGauge_gauge (f : Gauge → Gauge) : (s.updGauge f).mgmt.gauge = f s.mgmt.gauge := rfl

theorem setUpd_changes (u : Upd) : s.changesOnly (s.setUpd u) [.mgmt] := fun x hx => by cases x <;> first | rfl | simp at hx
@[simp] theorem setUpd_pending (u : Upd) : (s.setUpd u).pending = s.pending := rfl
@[simp] theorem setUpd_dev (u : Upd) : (s.setUpd u).dev = s.dev := rfl
@[simp] theorem setUpd_objs (u : Upd) : (s.setUpd u).objs = s.objs := rfl
@[simp] theorem setUpd_ports (u : Upd) : (s.setUpd u).ports = s.ports := rfl
@[simp] theorem setUpd_path (u : Upd) : (s.setUpd u).path = s.path := rfl
@[simp] theorem setUpd_dir (u : Upd) : (s.setUpd u).dir = s.dir := rfl
@[simp] theorem setUpd_tide (u : Upd) : (s.setUpd u).tide = s.tide := rfl
@[simp] theorem setUpd_dram (u : Upd) : (s.setUpd u).dram = s.dram := rfl
@[simp] theorem setUpd_ctl (u : Upd) : (s.setUpd u).ctl = s.ctl := rfl
@[simp] theorem setUpd_ep (u : Upd) : (s.setUpd u).ep = s.ep := rfl
@[simp] theorem setUpd_aon (u : Upd) : (s.setUpd u).aon = s.aon := rfl
@[simp] theorem setUpd_flash (u : Upd) : (s.setUpd u).flash = s.flash := rfl
@[simp] theorem setUpd_out (u : Upd) : (s.setUpd u).out = s.out := rfl

@[simp] theorem setUpd_upd (u : Upd) : (s.setUpd u).mgmt.upd = u := rfl

theorem setRelay_changes (r : Relay) : s.changesOnly (s.setRelay r) [.mgmt] := fun x hx => by cases x <;> first | rfl | simp at hx
@[simp] theorem setRelay_pending (r : Relay) : (s.setRelay r).pending = s.pending := rfl
@[simp] theorem setRelay_dev (r : Relay) : (s.setRelay r).dev = s.dev := rfl
@[simp] theorem setRelay_objs (r : Relay) : (s.setRelay r).objs = s.objs := rfl
@[simp] theorem setRelay_ports (r : Relay) : (s.setRelay r).ports = s.ports := rfl
@[simp] theorem setRelay_path (r : Relay) : (s.setRelay r).path = s.path := rfl
@[simp] theorem setRelay_dir (r : Relay) : (s.setRelay r).dir = s.dir := rfl
@[simp] theorem setRelay_tide (r : Relay) : (s.setRelay r).tide = s.tide := rfl
@[simp] theorem setRelay_dram (r : Relay) : (s.setRelay r).dram = s.dram := rfl
@[simp] theorem setRelay_ctl (r : Relay) : (s.setRelay r).ctl = s.ctl := rfl
@[simp] theorem setRelay_ep (r : Relay) : (s.setRelay r).ep = s.ep := rfl
@[simp] theorem setRelay_aon (r : Relay) : (s.setRelay r).aon = s.aon := rfl
@[simp] theorem setRelay_flash (r : Relay) : (s.setRelay r).flash = s.flash := rfl
@[simp] theorem setRelay_out (r : Relay) : (s.setRelay r).out = s.out := rfl

@[simp] theorem setRelay_relay (r : Relay) : (s.setRelay r).mgmt.relay = r := rfl

theorem setEp_changes (e : Ep) : s.changesOnly (s.setEp e) [.ep] := fun x hx => by cases x <;> first | rfl | simp at hx
@[simp] theorem setEp_pending (e : Ep) : (s.setEp e).pending = s.pending := rfl
@[simp] theorem setEp_dev (e : Ep) : (s.setEp e).dev = s.dev := rfl
@[simp] theorem setEp_objs (e : Ep) : (s.setEp e).objs = s.objs := rfl
@[simp] theorem setEp_ports (e : Ep) : (s.setEp e).ports = s.ports := rfl
@[simp] theorem setEp_path (e : Ep) : (s.setEp e).path = s.path := rfl
@[simp] theorem setEp_dir (e : Ep) : (s.setEp e).dir = s.dir := rfl
@[simp] theorem setEp_tide (e : Ep) : (s.setEp e).tide = s.tide := rfl
@[simp] theorem setEp_dram (e : Ep) : (s.setEp e).dram = s.dram := rfl
@[simp] theorem setEp_ctl (e : Ep) : (s.setEp e).ctl = s.ctl := rfl
@[simp] theorem setEp_aon (e : Ep) : (s.setEp e).aon = s.aon := rfl
@[simp] theorem setEp_mgmt (e : Ep) : (s.setEp e).mgmt = s.mgmt := rfl
@[simp] theorem setEp_flash (e : Ep) : (s.setEp e).flash = s.flash := rfl
@[simp] theorem setEp_out (e : Ep) : (s.setEp e).out = s.out := rfl

@[simp] theorem setEp_ep (e : Ep) : (s.setEp e).ep = e := rfl

theorem setShare_changes (i : Nat) (x : Share) : s.changesOnly (s.setShare i x) [.tide] := fun x hx => by cases x <;> first | rfl | simp at hx
@[simp] theorem setShare_pending (i : Nat) (x : Share) : (s.setShare i x).pending = s.pending := rfl
@[simp] theorem setShare_dev (i : Nat) (x : Share) : (s.setShare i x).dev = s.dev := rfl
@[simp] theorem setShare_objs (i : Nat) (x : Share) : (s.setShare i x).objs = s.objs := rfl
@[simp] theorem setShare_ports (i : Nat) (x : Share) : (s.setShare i x).ports = s.ports := rfl
@[simp] theorem setShare_path (i : Nat) (x : Share) : (s.setShare i x).path = s.path := rfl
@[simp] theorem setShare_dir (i : Nat) (x : Share) : (s.setShare i x).dir = s.dir := rfl
@[simp] theorem setShare_dram (i : Nat) (x : Share) : (s.setShare i x).dram = s.dram := rfl
@[simp] theorem setShare_ctl (i : Nat) (x : Share) : (s.setShare i x).ctl = s.ctl := rfl
@[simp] theorem setShare_ep (i : Nat) (x : Share) : (s.setShare i x).ep = s.ep := rfl
@[simp] theorem setShare_aon (i : Nat) (x : Share) : (s.setShare i x).aon = s.aon := rfl
@[simp] theorem setShare_mgmt (i : Nat) (x : Share) : (s.setShare i x).mgmt = s.mgmt := rfl
@[simp] theorem setShare_flash (i : Nat) (x : Share) : (s.setShare i x).flash = s.flash := rfl
@[simp] theorem setShare_out (i : Nat) (x : Share) : (s.setShare i x).out = s.out := rfl

theorem setBlock_changes (k : Nat) (b : Option Block) : s.changesOnly (s.setBlock k b) [.path] := fun x hx => by cases x <;> first | rfl | simp at hx
@[simp] theorem setBlock_pending (k : Nat) (b : Option Block) : (s.setBlock k b).pending = s.pending := rfl
@[simp] theorem setBlock_dev (k : Nat) (b : Option Block) : (s.setBlock k b).dev = s.dev := rfl
@[simp] theorem setBlock_objs (k : Nat) (b : Option Block) : (s.setBlock k b).objs = s.objs := rfl
@[simp] theorem setBlock_ports (k : Nat) (b : Option Block) : (s.setBlock k b).ports = s.ports := rfl
@[simp] theorem setBlock_dir (k : Nat) (b : Option Block) : (s.setBlock k b).dir = s.dir := rfl
@[simp] theorem setBlock_tide (k : Nat) (b : Option Block) : (s.setBlock k b).tide = s.tide := rfl
@[simp] theorem setBlock_dram (k : Nat) (b : Option Block) : (s.setBlock k b).dram = s.dram := rfl
@[simp] theorem setBlock_ctl (k : Nat) (b : Option Block) : (s.setBlock k b).ctl = s.ctl := rfl
@[simp] theorem setBlock_ep (k : Nat) (b : Option Block) : (s.setBlock k b).ep = s.ep := rfl
@[simp] theorem setBlock_aon (k : Nat) (b : Option Block) : (s.setBlock k b).aon = s.aon := rfl
@[simp] theorem setBlock_mgmt (k : Nat) (b : Option Block) : (s.setBlock k b).mgmt = s.mgmt := rfl
@[simp] theorem setBlock_flash (k : Nat) (b : Option Block) : (s.setBlock k b).flash = s.flash := rfl
@[simp] theorem setBlock_out (k : Nat) (b : Option Block) : (s.setBlock k b).out = s.out := rfl

@[simp] theorem keepNum_pending (key : Nat) : (s.keepNum key).pending = s.pending := by unfold keepNum; dsimp only; (repeat' split) <;> rfl
@[simp] theorem keepNum_objs (key : Nat) : (s.keepNum key).objs = s.objs := by unfold keepNum; dsimp only; (repeat' split) <;> rfl
@[simp] theorem keepNum_ports (key : Nat) : (s.keepNum key).ports = s.ports := by unfold keepNum; dsimp only; (repeat' split) <;> rfl
@[simp] theorem keepNum_path (key : Nat) : (s.keepNum key).path = s.path := by unfold keepNum; dsimp only; (repeat' split) <;> rfl
@[simp] theorem keepNum_dir (key : Nat) : (s.keepNum key).dir = s.dir := by unfold keepNum; dsimp only; (repeat' split) <;> rfl
@[simp] theorem keepNum_tide (key : Nat) : (s.keepNum key).tide = s.tide := by unfold keepNum; dsimp only; (repeat' split) <;> rfl
@[simp] theorem keepNum_dram (key : Nat) : (s.keepNum key).dram = s.dram := by unfold keepNum; dsimp only; (repeat' split) <;> rfl
@[simp] theorem keepNum_ctl (key : Nat) : (s.keepNum key).ctl = s.ctl := by unfold keepNum; dsimp only; (repeat' split) <;> rfl
@[simp] theorem keepNum_ep (key : Nat) : (s.keepNum key).ep = s.ep := by unfold keepNum; dsimp only; (repeat' split) <;> rfl
@[simp] theorem keepNum_aon (key : Nat) : (s.keepNum key).aon = s.aon := by unfold keepNum; dsimp only; (repeat' split) <;> rfl
@[simp] theorem keepNum_mgmt (key : Nat) : (s.keepNum key).mgmt = s.mgmt := by unfold keepNum; dsimp only; (repeat' split) <;> rfl
@[simp] theorem keepNum_flash (key : Nat) : (s.keepNum key).flash = s.flash := by unfold keepNum; dsimp only; (repeat' split) <;> rfl
@[simp] theorem keepNum_out (key : Nat) : (s.keepNum key).out = s.out := by unfold keepNum; dsimp only; (repeat' split) <;> rfl

@[simp] theorem emit_out (o : Out) : (s.emit o).out = s.out ++ [o] := rfl
@[simp] theorem setDict_dict (d : Dict) : (s.setDict d).mgmt.dict = d := rfl
@[simp] theorem setRing_ring (r : Ring) : (s.setRing r).mgmt.ring = r := rfl
@[simp] theorem setPower_power (p : Power) : (s.setPower p).mgmt.power = p := rfl

/-! ## Reading what was written -/

theorem find_put_self (m : FMap Nat) (k v : Nat) : (FMap.put m k v).find? (fun e => e.1 == k) = some (k, v) := by
  induction m with
  | nil => simp [FMap.put]
  | cons e m ih =>
    obtain ⟨i, w⟩ := e
    simp only [FMap.put]
    split
    · simp
    · rename_i h
      split
      · simp
      · simp [Ne.symm h, ih]

theorem find_put_ne (m : FMap Nat) (k v j : Nat) (h : j ≠ k) :
    (FMap.put m k v).find? (fun e => e.1 == j) = m.find? (fun e => e.1 == j) := by
  have hk : (k == j) = false := by simp [Ne.symm h]
  induction m with
  | nil => simp [FMap.put, hk]
  | cons e m ih =>
    obtain ⟨i, w⟩ := e
    simp only [FMap.put]
    split
    · rename_i hi; subst hi; simp [hk]
    · split
      · simp [hk]
      · simp [List.find?_cons, ih]

theorem num_setNum (k v j : Nat) : (s.setNum k v).num j = if j = k then v else s.num j := by
  unfold num setNum
  split
  · rename_i e h
    by_cases hj : j = k
    · subst hj; rw [find_put_self] at h; cases h; simp
    · rw [find_put_ne _ _ _ _ hj] at h; simp [h, hj]
  · rename_i h
    by_cases hj : j = k
    · subst hj; rw [find_put_self] at h; cases h
    · rw [find_put_ne _ _ _ _ hj] at h; simp [h, hj]

@[simp] theorem num_setNum_self (k v : Nat) : (s.setNum k v).num k = v := by simp [num_setNum]

theorem num_setNum_ne {k j : Nat} (v : Nat) (h : j ≠ k) : (s.setNum k v).num j = s.num j := by simp [num_setNum, h]

theorem num_bump (k n j : Nat) : (s.bump k n).num j = if j = k then s.num k + n else s.num j := by simp [bump, num_setNum]

theorem region_setRegion (k : Nat) (r : Region) (j : Nat) : (s.setRegion k r).region j = if j = k then r else s.region j :=
  FMap.find_set _ _ _ _ _

theorem session_setSession (n : Nat) (x : Session) (j : Nat) : (s.setSession n x).session j = if j = n then x else s.session j :=
  FMap.find_set _ _ _ _ _

theorem entry_setEntry (p : Nat) (e : TEntry) (j : Nat) : (s.setEntry p e).entry j = if j = p then e else s.entry j :=
  FMap.find_set _ _ _ _ _

theorem slot_setSlot (n : Nat) (x : FarSlot) (j : Nat) : (s.setSlot n x).slot j = if j = n then x else s.slot j :=
  FMap.find_set _ _ _ _ _

theorem lent_setLent (r : Nat) (x : LentRange) (j : Nat) : (s.setLent r x).lent j = if j = r then x else s.lent j :=
  FMap.find_set _ _ _ _ _

theorem chan_setChan (c : Nat) (x : ChanSt) (j : Nat) : (s.setChan c x).chan j = if j = c then x else s.chan j :=
  FMap.find_set _ _ _ _ _

theorem unit_setUnit (u : Nat) (x : DUnitSt) (j : Nat) : (s.setUnit u x).unit j = if j = u then x else s.unit j :=
  FMap.find_set _ _ _ _ _

theorem door_setDoor (d : Nat) (x : Door) (j : Nat) : (s.setDoor d x).door j = if j = d then x else s.door j :=
  FMap.find_set _ _ _ _ _

/-- A port after a change: the changed port, or any other as it was. -/
theorem updPort_ports (p : Fin 16) (f : Port → Port) (q : Fin 16) :
    (s.updPort p f).ports[q] = if q = p then f s.ports[p] else s.ports[q] := by
  simp only [updPort, Fin.getElem_fin, Vector.getElem_set]
  by_cases h : q = p
  · subst h; simp
  · have : p.val ≠ q.val := fun e => h (Fin.ext e.symm)
    simp [h, this]

@[simp] theorem updPort_ports_self (p : Fin 16) (f : Port → Port) : (s.updPort p f).ports[p] = f s.ports[p] := by
  rw [updPort_ports]; simp

/-! ## Effects over a list -/

/-- What every step of a fold leaves alone, the fold leaves alone. -/
theorem each_frame {α β : Type} (g : State → β) (xs : List α) (f : State → α → State) (h : ∀ s x, g (f s x) = g s) :
    g (s.each xs f) = g s := by
  unfold each
  induction xs generalizing s with
  | nil => rfl
  | cons x xs ih => rw [List.foldl_cons, ih, h]

@[simp] theorem each_nil {α : Type} (f : State → α → State) : s.each [] f = s := rfl

@[simp] theorem each_cons {α : Type} (x : α) (xs : List α) (f : State → α → State) : s.each (x :: xs) f = (f s x).each xs f := rfl

/-! ## Counters, events and reports -/

@[simp] theorem bump_pending (k n : Nat) : (s.bump k n).pending = s.pending := rfl
@[simp] theorem bump_dev (k n : Nat) : (s.bump k n).dev = s.dev := rfl
@[simp] theorem bump_ports (k n : Nat) : (s.bump k n).ports = s.ports := rfl
@[simp] theorem bump_path (k n : Nat) : (s.bump k n).path = s.path := rfl
@[simp] theorem bump_dir (k n : Nat) : (s.bump k n).dir = s.dir := rfl
@[simp] theorem bump_tide (k n : Nat) : (s.bump k n).tide = s.tide := rfl
@[simp] theorem bump_dram (k n : Nat) : (s.bump k n).dram = s.dram := rfl
@[simp] theorem bump_ctl (k n : Nat) : (s.bump k n).ctl = s.ctl := rfl
@[simp] theorem bump_ep (k n : Nat) : (s.bump k n).ep = s.ep := rfl
@[simp] theorem bump_aon (k n : Nat) : (s.bump k n).aon = s.aon := rfl
@[simp] theorem bump_mgmt (k n : Nat) : (s.bump k n).mgmt = s.mgmt := rfl
@[simp] theorem bump_flash (k n : Nat) : (s.bump k n).flash = s.flash := rfl
@[simp] theorem bump_out (k n : Nat) : (s.bump k n).out = s.out := rfl
theorem bump_changes (k n : Nat) : s.changesOnly (s.bump k n) [.objs] := fun x hx => by
  cases x <;> first | (exfalso; revert hx; decide) | simp [Part.same]

@[simp] theorem atLeast_pending (k v : Nat) : (s.atLeast k v).pending = s.pending := by unfold atLeast; split <;> rfl
@[simp] theorem atLeast_dev (k v : Nat) : (s.atLeast k v).dev = s.dev := by unfold atLeast; split <;> rfl
@[simp] theorem atLeast_ports (k v : Nat) : (s.atLeast k v).ports = s.ports := by unfold atLeast; split <;> rfl
@[simp] theorem atLeast_path (k v : Nat) : (s.atLeast k v).path = s.path := by unfold atLeast; split <;> rfl
@[simp] theorem atLeast_dir (k v : Nat) : (s.atLeast k v).dir = s.dir := by unfold atLeast; split <;> rfl
@[simp] theorem atLeast_tide (k v : Nat) : (s.atLeast k v).tide = s.tide := by unfold atLeast; split <;> rfl
@[simp] theorem atLeast_dram (k v : Nat) : (s.atLeast k v).dram = s.dram := by unfold atLeast; split <;> rfl
@[simp] theorem atLeast_ctl (k v : Nat) : (s.atLeast k v).ctl = s.ctl := by unfold atLeast; split <;> rfl
@[simp] theorem atLeast_ep (k v : Nat) : (s.atLeast k v).ep = s.ep := by unfold atLeast; split <;> rfl
@[simp] theorem atLeast_aon (k v : Nat) : (s.atLeast k v).aon = s.aon := by unfold atLeast; split <;> rfl
@[simp] theorem atLeast_mgmt (k v : Nat) : (s.atLeast k v).mgmt = s.mgmt := by unfold atLeast; split <;> rfl
@[simp] theorem atLeast_flash (k v : Nat) : (s.atLeast k v).flash = s.flash := by unfold atLeast; split <;> rfl
@[simp] theorem atLeast_out (k v : Nat) : (s.atLeast k v).out = s.out := by unfold atLeast; split <;> rfl
theorem atLeast_changes (k v : Nat) : s.changesOnly (s.atLeast k v) [.objs] := fun x hx => by
  cases x <;> first | (exfalso; revert hx; decide) | simp [Part.same]

@[simp] theorem setBit_pending (k i : Nat) : (s.setBit k i).pending = s.pending := by unfold setBit; split <;> rfl
@[simp] theorem setBit_dev (k i : Nat) : (s.setBit k i).dev = s.dev := by unfold setBit; split <;> rfl
@[simp] theorem setBit_ports (k i : Nat) : (s.setBit k i).ports = s.ports := by unfold setBit; split <;> rfl
@[simp] theorem setBit_path (k i : Nat) : (s.setBit k i).path = s.path := by unfold setBit; split <;> rfl
@[simp] theorem setBit_dir (k i : Nat) : (s.setBit k i).dir = s.dir := by unfold setBit; split <;> rfl
@[simp] theorem setBit_tide (k i : Nat) : (s.setBit k i).tide = s.tide := by unfold setBit; split <;> rfl
@[simp] theorem setBit_dram (k i : Nat) : (s.setBit k i).dram = s.dram := by unfold setBit; split <;> rfl
@[simp] theorem setBit_ctl (k i : Nat) : (s.setBit k i).ctl = s.ctl := by unfold setBit; split <;> rfl
@[simp] theorem setBit_ep (k i : Nat) : (s.setBit k i).ep = s.ep := by unfold setBit; split <;> rfl
@[simp] theorem setBit_aon (k i : Nat) : (s.setBit k i).aon = s.aon := by unfold setBit; split <;> rfl
@[simp] theorem setBit_mgmt (k i : Nat) : (s.setBit k i).mgmt = s.mgmt := by unfold setBit; split <;> rfl
@[simp] theorem setBit_flash (k i : Nat) : (s.setBit k i).flash = s.flash := by unfold setBit; split <;> rfl
@[simp] theorem setBit_out (k i : Nat) : (s.setBit k i).out = s.out := by unfold setBit; split <;> rfl
theorem setBit_changes (k i : Nat) : s.changesOnly (s.setBit k i) [.objs] := fun x hx => by
  cases x <;> first | (exfalso; revert hx; decide) | simp [Part.same]

@[simp] theorem clearBit_pending (k i : Nat) : (s.clearBit k i).pending = s.pending := by unfold clearBit; split <;> rfl
@[simp] theorem clearBit_dev (k i : Nat) : (s.clearBit k i).dev = s.dev := by unfold clearBit; split <;> rfl
@[simp] theorem clearBit_ports (k i : Nat) : (s.clearBit k i).ports = s.ports := by unfold clearBit; split <;> rfl
@[simp] theorem clearBit_path (k i : Nat) : (s.clearBit k i).path = s.path := by unfold clearBit; split <;> rfl
@[simp] theorem clearBit_dir (k i : Nat) : (s.clearBit k i).dir = s.dir := by unfold clearBit; split <;> rfl
@[simp] theorem clearBit_tide (k i : Nat) : (s.clearBit k i).tide = s.tide := by unfold clearBit; split <;> rfl
@[simp] theorem clearBit_dram (k i : Nat) : (s.clearBit k i).dram = s.dram := by unfold clearBit; split <;> rfl
@[simp] theorem clearBit_ctl (k i : Nat) : (s.clearBit k i).ctl = s.ctl := by unfold clearBit; split <;> rfl
@[simp] theorem clearBit_ep (k i : Nat) : (s.clearBit k i).ep = s.ep := by unfold clearBit; split <;> rfl
@[simp] theorem clearBit_aon (k i : Nat) : (s.clearBit k i).aon = s.aon := by unfold clearBit; split <;> rfl
@[simp] theorem clearBit_mgmt (k i : Nat) : (s.clearBit k i).mgmt = s.mgmt := by unfold clearBit; split <;> rfl
@[simp] theorem clearBit_flash (k i : Nat) : (s.clearBit k i).flash = s.flash := by unfold clearBit; split <;> rfl
@[simp] theorem clearBit_out (k i : Nat) : (s.clearBit k i).out = s.out := by unfold clearBit; split <;> rfl
theorem clearBit_changes (k i : Nat) : s.changesOnly (s.clearBit k i) [.objs] := fun x hx => by
  cases x <;> first | (exfalso; revert hx; decide) | simp [Part.same]

@[simp] theorem happen_pending (sel : Nat) (src : Option Nat) (cls : Nat) (uc : Bool) (n : Nat) : (s.happen sel src cls uc n).pending = s.pending := by
  unfold happen; exact each_frame s (fun t => t.pending) _ _ (fun t j => by dsimp only; (repeat' split) <;> rfl)
@[simp] theorem happen_dev (sel : Nat) (src : Option Nat) (cls : Nat) (uc : Bool) (n : Nat) : (s.happen sel src cls uc n).dev = s.dev := by
  unfold happen; exact each_frame s (fun t => t.dev) _ _ (fun t j => by dsimp only; (repeat' split) <;> rfl)
@[simp] theorem happen_ports (sel : Nat) (src : Option Nat) (cls : Nat) (uc : Bool) (n : Nat) : (s.happen sel src cls uc n).ports = s.ports := by
  unfold happen; exact each_frame s (fun t => t.ports) _ _ (fun t j => by dsimp only; (repeat' split) <;> rfl)
@[simp] theorem happen_path (sel : Nat) (src : Option Nat) (cls : Nat) (uc : Bool) (n : Nat) : (s.happen sel src cls uc n).path = s.path := by
  unfold happen; exact each_frame s (fun t => t.path) _ _ (fun t j => by dsimp only; (repeat' split) <;> rfl)
@[simp] theorem happen_dir (sel : Nat) (src : Option Nat) (cls : Nat) (uc : Bool) (n : Nat) : (s.happen sel src cls uc n).dir = s.dir := by
  unfold happen; exact each_frame s (fun t => t.dir) _ _ (fun t j => by dsimp only; (repeat' split) <;> rfl)
@[simp] theorem happen_tide (sel : Nat) (src : Option Nat) (cls : Nat) (uc : Bool) (n : Nat) : (s.happen sel src cls uc n).tide = s.tide := by
  unfold happen; exact each_frame s (fun t => t.tide) _ _ (fun t j => by dsimp only; (repeat' split) <;> rfl)
@[simp] theorem happen_dram (sel : Nat) (src : Option Nat) (cls : Nat) (uc : Bool) (n : Nat) : (s.happen sel src cls uc n).dram = s.dram := by
  unfold happen; exact each_frame s (fun t => t.dram) _ _ (fun t j => by dsimp only; (repeat' split) <;> rfl)
@[simp] theorem happen_ctl (sel : Nat) (src : Option Nat) (cls : Nat) (uc : Bool) (n : Nat) : (s.happen sel src cls uc n).ctl = s.ctl := by
  unfold happen; exact each_frame s (fun t => t.ctl) _ _ (fun t j => by dsimp only; (repeat' split) <;> rfl)
@[simp] theorem happen_ep (sel : Nat) (src : Option Nat) (cls : Nat) (uc : Bool) (n : Nat) : (s.happen sel src cls uc n).ep = s.ep := by
  unfold happen; exact each_frame s (fun t => t.ep) _ _ (fun t j => by dsimp only; (repeat' split) <;> rfl)
@[simp] theorem happen_aon (sel : Nat) (src : Option Nat) (cls : Nat) (uc : Bool) (n : Nat) : (s.happen sel src cls uc n).aon = s.aon := by
  unfold happen; exact each_frame s (fun t => t.aon) _ _ (fun t j => by dsimp only; (repeat' split) <;> rfl)
@[simp] theorem happen_objs (sel : Nat) (src : Option Nat) (cls : Nat) (uc : Bool) (n : Nat) : (s.happen sel src cls uc n).objs = s.objs := by
  unfold happen; exact each_frame s (fun t => t.objs) _ _ (fun t j => by dsimp only; (repeat' split) <;> rfl)
@[simp] theorem happen_flash (sel : Nat) (src : Option Nat) (cls : Nat) (uc : Bool) (n : Nat) : (s.happen sel src cls uc n).flash = s.flash := by
  unfold happen; exact each_frame s (fun t => t.flash) _ _ (fun t j => by dsimp only; (repeat' split) <;> rfl)
@[simp] theorem happen_out (sel : Nat) (src : Option Nat) (cls : Nat) (uc : Bool) (n : Nat) : (s.happen sel src cls uc n).out = s.out := by
  unfold happen; exact each_frame s (fun t => t.out) _ _ (fun t j => by dsimp only; (repeat' split) <;> rfl)
theorem happen_changes (sel : Nat) (src : Option Nat) (cls : Nat) (uc : Bool) (n : Nat) : s.changesOnly (s.happen sel src cls uc n) [.mgmt] := fun x hx => by
  cases x <;> first | (exfalso; revert hx; decide) | simp [Part.same]

@[simp] theorem pendIrq_pending (v : Nat) : (s.pendIrq v).pending = s.pending := by unfold pendIrq; split <;> rfl
@[simp] theorem pendIrq_dev (v : Nat) : (s.pendIrq v).dev = s.dev := by unfold pendIrq; split <;> rfl
@[simp] theorem pendIrq_objs (v : Nat) : (s.pendIrq v).objs = s.objs := by unfold pendIrq; split <;> rfl
@[simp] theorem pendIrq_ports (v : Nat) : (s.pendIrq v).ports = s.ports := by unfold pendIrq; split <;> rfl
@[simp] theorem pendIrq_path (v : Nat) : (s.pendIrq v).path = s.path := by unfold pendIrq; split <;> rfl
@[simp] theorem pendIrq_dir (v : Nat) : (s.pendIrq v).dir = s.dir := by unfold pendIrq; split <;> rfl
@[simp] theorem pendIrq_tide (v : Nat) : (s.pendIrq v).tide = s.tide := by unfold pendIrq; split <;> rfl
@[simp] theorem pendIrq_dram (v : Nat) : (s.pendIrq v).dram = s.dram := by unfold pendIrq; split <;> rfl
@[simp] theorem pendIrq_ctl (v : Nat) : (s.pendIrq v).ctl = s.ctl := by unfold pendIrq; split <;> rfl
@[simp] theorem pendIrq_ep (v : Nat) : (s.pendIrq v).ep = s.ep := by unfold pendIrq; split <;> rfl
@[simp] theorem pendIrq_mgmt (v : Nat) : (s.pendIrq v).mgmt = s.mgmt := by unfold pendIrq; split <;> rfl
@[simp] theorem pendIrq_flash (v : Nat) : (s.pendIrq v).flash = s.flash := by unfold pendIrq; split <;> rfl
@[simp] theorem pendIrq_out (v : Nat) : (s.pendIrq v).out = s.out := by unfold pendIrq; split <;> rfl
theorem pendIrq_changes (v : Nat) : s.changesOnly (s.pendIrq v) [.aon] := fun x hx => by
  cases x <;> first | (exfalso; revert hx; decide) | simp [Part.same]

@[simp] theorem pushEv_pending (e : Ev) : (s.pushEv e).pending = s.pending := by
  unfold pushEv; dsimp only; split
  · rfl
  · split
    · rfl
    · split <;> rfl
@[simp] theorem pushEv_dev (e : Ev) : (s.pushEv e).dev = s.dev := by
  unfold pushEv; dsimp only; split
  · rfl
  · split
    · rfl
    · split <;> rfl
@[simp] theorem pushEv_ports (e : Ev) : (s.pushEv e).ports = s.ports := by
  unfold pushEv; dsimp only; split
  · rfl
  · split
    · rfl
    · split <;> rfl
@[simp] theorem pushEv_path (e : Ev) : (s.pushEv e).path = s.path := by
  unfold pushEv; dsimp only; split
  · rfl
  · split
    · rfl
    · split <;> rfl
@[simp] theorem pushEv_dir (e : Ev) : (s.pushEv e).dir = s.dir := by
  unfold pushEv; dsimp only; split
  · rfl
  · split
    · rfl
    · split <;> rfl
@[simp] theorem pushEv_tide (e : Ev) : (s.pushEv e).tide = s.tide := by
  unfold pushEv; dsimp only; split
  · rfl
  · split
    · rfl
    · split <;> rfl
@[simp] theorem pushEv_dram (e : Ev) : (s.pushEv e).dram = s.dram := by
  unfold pushEv; dsimp only; split
  · rfl
  · split
    · rfl
    · split <;> rfl
@[simp] theorem pushEv_ctl (e : Ev) : (s.pushEv e).ctl = s.ctl := by
  unfold pushEv; dsimp only; split
  · rfl
  · split
    · rfl
    · split <;> rfl
@[simp] theorem pushEv_ep (e : Ev) : (s.pushEv e).ep = s.ep := by
  unfold pushEv; dsimp only; split
  · rfl
  · split
    · rfl
    · split <;> rfl
@[simp] theorem pushEv_mgmt (e : Ev) : (s.pushEv e).mgmt = s.mgmt := by
  unfold pushEv; dsimp only; split
  · rfl
  · split
    · rfl
    · split <;> rfl
@[simp] theorem pushEv_flash (e : Ev) : (s.pushEv e).flash = s.flash := by
  unfold pushEv; dsimp only; split
  · rfl
  · split
    · rfl
    · split <;> rfl
@[simp] theorem pushEv_out (e : Ev) : (s.pushEv e).out = s.out := by
  unfold pushEv; dsimp only; split
  · rfl
  · split
    · rfl
    · split <;> rfl
theorem pushEv_changes (e : Ev) : s.changesOnly (s.pushEv e) [.aon, .objs] := fun x hx => by
  cases x <;> first | (exfalso; revert hx; decide) | simp [Part.same]

@[simp] theorem logEntry_pending (code core : Nat) : (s.logEntry code core).pending = s.pending := by unfold logEntry; split <;> rfl
@[simp] theorem logEntry_dev (code core : Nat) : (s.logEntry code core).dev = s.dev := by unfold logEntry; split <;> rfl
@[simp] theorem logEntry_ports (code core : Nat) : (s.logEntry code core).ports = s.ports := by unfold logEntry; split <;> rfl
@[simp] theorem logEntry_path (code core : Nat) : (s.logEntry code core).path = s.path := by unfold logEntry; split <;> rfl
@[simp] theorem logEntry_dir (code core : Nat) : (s.logEntry code core).dir = s.dir := by unfold logEntry; split <;> rfl
@[simp] theorem logEntry_tide (code core : Nat) : (s.logEntry code core).tide = s.tide := by unfold logEntry; split <;> rfl
@[simp] theorem logEntry_dram (code core : Nat) : (s.logEntry code core).dram = s.dram := by unfold logEntry; split <;> rfl
@[simp] theorem logEntry_ctl (code core : Nat) : (s.logEntry code core).ctl = s.ctl := by unfold logEntry; split <;> rfl
@[simp] theorem logEntry_ep (code core : Nat) : (s.logEntry code core).ep = s.ep := by unfold logEntry; split <;> rfl
@[simp] theorem logEntry_aon (code core : Nat) : (s.logEntry code core).aon = s.aon := by unfold logEntry; split <;> rfl
@[simp] theorem logEntry_flash (code core : Nat) : (s.logEntry code core).flash = s.flash := by unfold logEntry; split <;> rfl
@[simp] theorem logEntry_out (code core : Nat) : (s.logEntry code core).out = s.out := by unfold logEntry; split <;> rfl
theorem logEntry_changes (code core : Nat) : s.changesOnly (s.logEntry code core) [.objs, .mgmt] := fun x hx => by
  cases x <;> first | (exfalso; revert hx; decide) | simp [Part.same]

@[simp] theorem logBackup_pending (code detail : Nat) (sf bk : Bool) : (s.logBackup code detail sf bk).pending = s.pending := by simp only [logBackup]
@[simp] theorem logBackup_dev (code detail : Nat) (sf bk : Bool) : (s.logBackup code detail sf bk).dev = s.dev := by simp only [logBackup]
@[simp] theorem logBackup_objs (code detail : Nat) (sf bk : Bool) : (s.logBackup code detail sf bk).objs = s.objs := by simp only [logBackup]
@[simp] theorem logBackup_ports (code detail : Nat) (sf bk : Bool) : (s.logBackup code detail sf bk).ports = s.ports := by simp only [logBackup]
@[simp] theorem logBackup_path (code detail : Nat) (sf bk : Bool) : (s.logBackup code detail sf bk).path = s.path := by simp only [logBackup]
@[simp] theorem logBackup_dir (code detail : Nat) (sf bk : Bool) : (s.logBackup code detail sf bk).dir = s.dir := by simp only [logBackup]
@[simp] theorem logBackup_tide (code detail : Nat) (sf bk : Bool) : (s.logBackup code detail sf bk).tide = s.tide := by simp only [logBackup]
@[simp] theorem logBackup_dram (code detail : Nat) (sf bk : Bool) : (s.logBackup code detail sf bk).dram = s.dram := by simp only [logBackup]
@[simp] theorem logBackup_ctl (code detail : Nat) (sf bk : Bool) : (s.logBackup code detail sf bk).ctl = s.ctl := by simp only [logBackup]
@[simp] theorem logBackup_ep (code detail : Nat) (sf bk : Bool) : (s.logBackup code detail sf bk).ep = s.ep := by simp only [logBackup]
@[simp] theorem logBackup_mgmt (code detail : Nat) (sf bk : Bool) : (s.logBackup code detail sf bk).mgmt = s.mgmt := by simp only [logBackup]
@[simp] theorem logBackup_flash (code detail : Nat) (sf bk : Bool) : (s.logBackup code detail sf bk).flash = s.flash := by simp only [logBackup]
@[simp] theorem logBackup_out (code detail : Nat) (sf bk : Bool) : (s.logBackup code detail sf bk).out = s.out := by simp only [logBackup]
theorem logBackup_changes (code detail : Nat) (sf bk : Bool) : s.changesOnly (s.logBackup code detail sf bk) [.aon] := fun x hx => by
  cases x <;> first | (exfalso; revert hx; decide) | simp [Part.same]

@[simp] theorem offer_pending (r : TRec) : (s.offer r).pending = s.pending := by
  unfold offer stageRec updGauge; dsimp only; (repeat' split) <;> rfl
@[simp] theorem offer_dev (r : TRec) : (s.offer r).dev = s.dev := by
  unfold offer stageRec updGauge; dsimp only; (repeat' split) <;> rfl
@[simp] theorem offer_ports (r : TRec) : (s.offer r).ports = s.ports := by
  unfold offer stageRec updGauge; dsimp only; (repeat' split) <;> rfl
@[simp] theorem offer_path (r : TRec) : (s.offer r).path = s.path := by
  unfold offer stageRec updGauge; dsimp only; (repeat' split) <;> rfl
@[simp] theorem offer_dir (r : TRec) : (s.offer r).dir = s.dir := by
  unfold offer stageRec updGauge; dsimp only; (repeat' split) <;> rfl
@[simp] theorem offer_tide (r : TRec) : (s.offer r).tide = s.tide := by
  unfold offer stageRec updGauge; dsimp only; (repeat' split) <;> rfl
@[simp] theorem offer_dram (r : TRec) : (s.offer r).dram = s.dram := by
  unfold offer stageRec updGauge; dsimp only; (repeat' split) <;> rfl
@[simp] theorem offer_ctl (r : TRec) : (s.offer r).ctl = s.ctl := by
  unfold offer stageRec updGauge; dsimp only; (repeat' split) <;> rfl
@[simp] theorem offer_ep (r : TRec) : (s.offer r).ep = s.ep := by
  unfold offer stageRec updGauge; dsimp only; (repeat' split) <;> rfl
@[simp] theorem offer_aon (r : TRec) : (s.offer r).aon = s.aon := by
  unfold offer stageRec updGauge; dsimp only; (repeat' split) <;> rfl
@[simp] theorem offer_flash (r : TRec) : (s.offer r).flash = s.flash := by
  unfold offer stageRec updGauge; dsimp only; (repeat' split) <;> rfl
@[simp] theorem offer_out (r : TRec) : (s.offer r).out = s.out := by
  unfold offer stageRec updGauge; dsimp only; (repeat' split) <;> rfl
theorem offer_changes (r : TRec) : s.changesOnly (s.offer r) [.objs, .mgmt] := fun x hx => by
  cases x <;> first | (exfalso; revert hx; decide) | simp [Part.same]

@[simp] theorem trace_pending (pt src cls : Nat) (addr : Option Nat) (stat tag full arg : Nat) : (s.trace pt src cls addr stat tag full arg).pending = s.pending := by
  unfold trace; dsimp only; (repeat' split) <;> first | rfl | simp
@[simp] theorem trace_dev (pt src cls : Nat) (addr : Option Nat) (stat tag full arg : Nat) : (s.trace pt src cls addr stat tag full arg).dev = s.dev := by
  unfold trace; dsimp only; (repeat' split) <;> first | rfl | simp
@[simp] theorem trace_ports (pt src cls : Nat) (addr : Option Nat) (stat tag full arg : Nat) : (s.trace pt src cls addr stat tag full arg).ports = s.ports := by
  unfold trace; dsimp only; (repeat' split) <;> first | rfl | simp
@[simp] theorem trace_path (pt src cls : Nat) (addr : Option Nat) (stat tag full arg : Nat) : (s.trace pt src cls addr stat tag full arg).path = s.path := by
  unfold trace; dsimp only; (repeat' split) <;> first | rfl | simp
@[simp] theorem trace_dir (pt src cls : Nat) (addr : Option Nat) (stat tag full arg : Nat) : (s.trace pt src cls addr stat tag full arg).dir = s.dir := by
  unfold trace; dsimp only; (repeat' split) <;> first | rfl | simp
@[simp] theorem trace_tide (pt src cls : Nat) (addr : Option Nat) (stat tag full arg : Nat) : (s.trace pt src cls addr stat tag full arg).tide = s.tide := by
  unfold trace; dsimp only; (repeat' split) <;> first | rfl | simp
@[simp] theorem trace_dram (pt src cls : Nat) (addr : Option Nat) (stat tag full arg : Nat) : (s.trace pt src cls addr stat tag full arg).dram = s.dram := by
  unfold trace; dsimp only; (repeat' split) <;> first | rfl | simp
@[simp] theorem trace_ctl (pt src cls : Nat) (addr : Option Nat) (stat tag full arg : Nat) : (s.trace pt src cls addr stat tag full arg).ctl = s.ctl := by
  unfold trace; dsimp only; (repeat' split) <;> first | rfl | simp
@[simp] theorem trace_ep (pt src cls : Nat) (addr : Option Nat) (stat tag full arg : Nat) : (s.trace pt src cls addr stat tag full arg).ep = s.ep := by
  unfold trace; dsimp only; (repeat' split) <;> first | rfl | simp
@[simp] theorem trace_aon (pt src cls : Nat) (addr : Option Nat) (stat tag full arg : Nat) : (s.trace pt src cls addr stat tag full arg).aon = s.aon := by
  unfold trace; dsimp only; (repeat' split) <;> first | rfl | simp
@[simp] theorem trace_flash (pt src cls : Nat) (addr : Option Nat) (stat tag full arg : Nat) : (s.trace pt src cls addr stat tag full arg).flash = s.flash := by
  unfold trace; dsimp only; (repeat' split) <;> first | rfl | simp
@[simp] theorem trace_out (pt src cls : Nat) (addr : Option Nat) (stat tag full arg : Nat) : (s.trace pt src cls addr stat tag full arg).out = s.out := by
  unfold trace; dsimp only; (repeat' split) <;> first | rfl | simp
theorem trace_changes (pt src cls : Nat) (addr : Option Nat) (stat tag full arg : Nat) : s.changesOnly (s.trace pt src cls addr stat tag full arg) [.objs, .mgmt] := fun x hx => by
  cases x <;> first | (exfalso; revert hx; decide) | simp [Part.same]

@[simp] theorem traceEvent_pending (code detail : Nat) : (s.traceEvent code detail).pending = s.pending := trace_pending s _ _ _ _ _ _ _ _
@[simp] theorem traceEvent_dev (code detail : Nat) : (s.traceEvent code detail).dev = s.dev := trace_dev s _ _ _ _ _ _ _ _
@[simp] theorem traceEvent_ports (code detail : Nat) : (s.traceEvent code detail).ports = s.ports := trace_ports s _ _ _ _ _ _ _ _
@[simp] theorem traceEvent_path (code detail : Nat) : (s.traceEvent code detail).path = s.path := trace_path s _ _ _ _ _ _ _ _
@[simp] theorem traceEvent_dir (code detail : Nat) : (s.traceEvent code detail).dir = s.dir := trace_dir s _ _ _ _ _ _ _ _
@[simp] theorem traceEvent_tide (code detail : Nat) : (s.traceEvent code detail).tide = s.tide := trace_tide s _ _ _ _ _ _ _ _
@[simp] theorem traceEvent_dram (code detail : Nat) : (s.traceEvent code detail).dram = s.dram := trace_dram s _ _ _ _ _ _ _ _
@[simp] theorem traceEvent_ctl (code detail : Nat) : (s.traceEvent code detail).ctl = s.ctl := trace_ctl s _ _ _ _ _ _ _ _
@[simp] theorem traceEvent_ep (code detail : Nat) : (s.traceEvent code detail).ep = s.ep := trace_ep s _ _ _ _ _ _ _ _
@[simp] theorem traceEvent_aon (code detail : Nat) : (s.traceEvent code detail).aon = s.aon := trace_aon s _ _ _ _ _ _ _ _
@[simp] theorem traceEvent_flash (code detail : Nat) : (s.traceEvent code detail).flash = s.flash := trace_flash s _ _ _ _ _ _ _ _
@[simp] theorem traceEvent_out (code detail : Nat) : (s.traceEvent code detail).out = s.out := trace_out s _ _ _ _ _ _ _ _
theorem traceEvent_changes (code detail : Nat) : s.changesOnly (s.traceEvent code detail) [.objs, .mgmt] := fun x hx => by
  cases x <;> first | (exfalso; revert hx; decide) | simp [Part.same]

@[simp] theorem raise_pending (code detail : Nat) : (s.raise code detail).pending = s.pending := by simp [raise]
@[simp] theorem raise_dev (code detail : Nat) : (s.raise code detail).dev = s.dev := by simp [raise]
@[simp] theorem raise_ports (code detail : Nat) : (s.raise code detail).ports = s.ports := by simp [raise]
@[simp] theorem raise_path (code detail : Nat) : (s.raise code detail).path = s.path := by simp [raise]
@[simp] theorem raise_dir (code detail : Nat) : (s.raise code detail).dir = s.dir := by simp [raise]
@[simp] theorem raise_tide (code detail : Nat) : (s.raise code detail).tide = s.tide := by simp [raise]
@[simp] theorem raise_dram (code detail : Nat) : (s.raise code detail).dram = s.dram := by simp [raise]
@[simp] theorem raise_ctl (code detail : Nat) : (s.raise code detail).ctl = s.ctl := by simp [raise]
@[simp] theorem raise_ep (code detail : Nat) : (s.raise code detail).ep = s.ep := by simp [raise]
@[simp] theorem raise_flash (code detail : Nat) : (s.raise code detail).flash = s.flash := by simp [raise]
theorem raise_changes (code detail : Nat) : s.changesOnly (s.raise code detail) [.objs, .mgmt, .aon, .out] := fun x hx => by
  cases x <;> first | (exfalso; revert hx; decide) | simp [Part.same]

@[simp] theorem sendLinkEvent_pending (code : Nat) : (s.sendLinkEvent code).pending = s.pending := rfl
@[simp] theorem sendLinkEvent_dev (code : Nat) : (s.sendLinkEvent code).dev = s.dev := rfl
@[simp] theorem sendLinkEvent_objs (code : Nat) : (s.sendLinkEvent code).objs = s.objs := rfl
@[simp] theorem sendLinkEvent_path (code : Nat) : (s.sendLinkEvent code).path = s.path := rfl
@[simp] theorem sendLinkEvent_dir (code : Nat) : (s.sendLinkEvent code).dir = s.dir := rfl
@[simp] theorem sendLinkEvent_tide (code : Nat) : (s.sendLinkEvent code).tide = s.tide := rfl
@[simp] theorem sendLinkEvent_dram (code : Nat) : (s.sendLinkEvent code).dram = s.dram := rfl
@[simp] theorem sendLinkEvent_ctl (code : Nat) : (s.sendLinkEvent code).ctl = s.ctl := rfl
@[simp] theorem sendLinkEvent_ep (code : Nat) : (s.sendLinkEvent code).ep = s.ep := rfl
@[simp] theorem sendLinkEvent_aon (code : Nat) : (s.sendLinkEvent code).aon = s.aon := rfl
@[simp] theorem sendLinkEvent_mgmt (code : Nat) : (s.sendLinkEvent code).mgmt = s.mgmt := rfl
@[simp] theorem sendLinkEvent_flash (code : Nat) : (s.sendLinkEvent code).flash = s.flash := rfl
@[simp] theorem sendLinkEvent_out (code : Nat) : (s.sendLinkEvent code).out = s.out := rfl
theorem sendLinkEvent_changes (code : Nat) : s.changesOnly (s.sendLinkEvent code) [.ports] := fun x hx => by
  cases x <;> first | (exfalso; revert hx; decide) | simp [Part.same]

/-- A frame of each step is a frame of all. -/
theorem each_changes {α : Type} {ps : List Part} {f : State → α → State} (h : ∀ (s : State) x, s.changesOnly (f s x) ps) (xs : List α) (s : State) :
    s.changesOnly (s.each xs f) ps := by
  induction xs generalizing s with
  | nil => exact changesOnly_refl s ps
  | cons x xs ih => rw [each_cons]; exact changesOnly_trans (h s x) (ih _)

theorem foldl_frame {α β : Type} (g : State → β) (xs : List α) (f : State → α → State) (h : ∀ s x, g (f s x) = g s) (s : State) :
    g (xs.foldl f s) = g s := each_frame s g xs f h

@[simp] theorem latchAlert_pending : s.latchAlert.pending = s.pending := rfl
@[simp] theorem latchAlert_dev : s.latchAlert.dev = s.dev := rfl
@[simp] theorem latchAlert_ports : s.latchAlert.ports = s.ports := rfl
@[simp] theorem latchAlert_path : s.latchAlert.path = s.path := rfl
@[simp] theorem latchAlert_dir : s.latchAlert.dir = s.dir := rfl
@[simp] theorem latchAlert_tide : s.latchAlert.tide = s.tide := rfl
@[simp] theorem latchAlert_dram : s.latchAlert.dram = s.dram := rfl
@[simp] theorem latchAlert_ctl : s.latchAlert.ctl = s.ctl := rfl
@[simp] theorem latchAlert_ep : s.latchAlert.ep = s.ep := rfl
@[simp] theorem latchAlert_mgmt : s.latchAlert.mgmt = s.mgmt := rfl
@[simp] theorem latchAlert_flash : s.latchAlert.flash = s.flash := rfl
@[simp] theorem latchAlert_out : s.latchAlert.out = s.out := rfl
theorem latchAlert_changes : s.changesOnly s.latchAlert [.objs, .aon] := fun x hx => by
  cases x <;> first | (exfalso; revert hx; decide) | simp [Part.same]

@[simp] theorem raiseSafety_pending (code detail : Nat) (cls : List Nat) : (s.raiseSafety code detail cls).pending = s.pending := by
  unfold raiseSafety
  simp only [sendLinkEvent_pending, pendIrq_pending, logBackup_pending]
  rw [foldl_frame (fun t : State => t.pending) _ _ (fun s x => by simp)]
  simp only [emit_pending, traceEvent_pending, logEntry_pending, pushEv_pending, latchAlert_pending, setNum_pending]
  rw [foldl_frame (fun t : State => t.pending) _ _ (fun s x => by simp)]
@[simp] theorem raiseSafety_dev (code detail : Nat) (cls : List Nat) : (s.raiseSafety code detail cls).dev = s.dev := by
  unfold raiseSafety
  simp only [sendLinkEvent_dev, pendIrq_dev, logBackup_dev]
  rw [foldl_frame (fun t : State => t.dev) _ _ (fun s x => by simp)]
  simp only [emit_dev, traceEvent_dev, logEntry_dev, pushEv_dev, latchAlert_dev, setNum_dev]
  rw [foldl_frame (fun t : State => t.dev) _ _ (fun s x => by simp)]
@[simp] theorem raiseSafety_path (code detail : Nat) (cls : List Nat) : (s.raiseSafety code detail cls).path = s.path := by
  unfold raiseSafety
  simp only [sendLinkEvent_path, pendIrq_path, logBackup_path]
  rw [foldl_frame (fun t : State => t.path) _ _ (fun s x => by simp)]
  simp only [emit_path, traceEvent_path, logEntry_path, pushEv_path, latchAlert_path, setNum_path]
  rw [foldl_frame (fun t : State => t.path) _ _ (fun s x => by simp)]
@[simp] theorem raiseSafety_dir (code detail : Nat) (cls : List Nat) : (s.raiseSafety code detail cls).dir = s.dir := by
  unfold raiseSafety
  simp only [sendLinkEvent_dir, pendIrq_dir, logBackup_dir]
  rw [foldl_frame (fun t : State => t.dir) _ _ (fun s x => by simp)]
  simp only [emit_dir, traceEvent_dir, logEntry_dir, pushEv_dir, latchAlert_dir, setNum_dir]
  rw [foldl_frame (fun t : State => t.dir) _ _ (fun s x => by simp)]
@[simp] theorem raiseSafety_tide (code detail : Nat) (cls : List Nat) : (s.raiseSafety code detail cls).tide = s.tide := by
  unfold raiseSafety
  simp only [sendLinkEvent_tide, pendIrq_tide, logBackup_tide]
  rw [foldl_frame (fun t : State => t.tide) _ _ (fun s x => by simp)]
  simp only [emit_tide, traceEvent_tide, logEntry_tide, pushEv_tide, latchAlert_tide, setNum_tide]
  rw [foldl_frame (fun t : State => t.tide) _ _ (fun s x => by simp)]
@[simp] theorem raiseSafety_dram (code detail : Nat) (cls : List Nat) : (s.raiseSafety code detail cls).dram = s.dram := by
  unfold raiseSafety
  simp only [sendLinkEvent_dram, pendIrq_dram, logBackup_dram]
  rw [foldl_frame (fun t : State => t.dram) _ _ (fun s x => by simp)]
  simp only [emit_dram, traceEvent_dram, logEntry_dram, pushEv_dram, latchAlert_dram, setNum_dram]
  rw [foldl_frame (fun t : State => t.dram) _ _ (fun s x => by simp)]
@[simp] theorem raiseSafety_ctl (code detail : Nat) (cls : List Nat) : (s.raiseSafety code detail cls).ctl = s.ctl := by
  unfold raiseSafety
  simp only [sendLinkEvent_ctl, pendIrq_ctl, logBackup_ctl]
  rw [foldl_frame (fun t : State => t.ctl) _ _ (fun s x => by simp)]
  simp only [emit_ctl, traceEvent_ctl, logEntry_ctl, pushEv_ctl, latchAlert_ctl, setNum_ctl]
  rw [foldl_frame (fun t : State => t.ctl) _ _ (fun s x => by simp)]
@[simp] theorem raiseSafety_ep (code detail : Nat) (cls : List Nat) : (s.raiseSafety code detail cls).ep = s.ep := by
  unfold raiseSafety
  simp only [sendLinkEvent_ep, pendIrq_ep, logBackup_ep]
  rw [foldl_frame (fun t : State => t.ep) _ _ (fun s x => by simp)]
  simp only [emit_ep, traceEvent_ep, logEntry_ep, pushEv_ep, latchAlert_ep, setNum_ep]
  rw [foldl_frame (fun t : State => t.ep) _ _ (fun s x => by simp)]
@[simp] theorem raiseSafety_flash (code detail : Nat) (cls : List Nat) : (s.raiseSafety code detail cls).flash = s.flash := by
  unfold raiseSafety
  simp only [sendLinkEvent_flash, pendIrq_flash, logBackup_flash]
  rw [foldl_frame (fun t : State => t.flash) _ _ (fun s x => by simp)]
  simp only [emit_flash, traceEvent_flash, logEntry_flash, pushEv_flash, latchAlert_flash, setNum_flash]
  rw [foldl_frame (fun t : State => t.flash) _ _ (fun s x => by simp)]
theorem raiseSafety_changes (code detail : Nat) (cls : List Nat) : s.changesOnly (s.raiseSafety code detail cls) [.objs, .mgmt, .aon, .out, .ports] := fun x hx => by
  cases x <;> first | (exfalso; revert hx; decide) | simp [Part.same]

@[simp] theorem evalNotice_pending (i : Nat) (l : Int) (fl : Bool) (c : Nat) : (s.evalNotice i l fl c).pending = s.pending := by
  unfold evalNotice; dsimp only; (repeat' split) <;> simp
@[simp] theorem evalNotice_dev (i : Nat) (l : Int) (fl : Bool) (c : Nat) : (s.evalNotice i l fl c).dev = s.dev := by
  unfold evalNotice; dsimp only; (repeat' split) <;> simp
@[simp] theorem evalNotice_ports (i : Nat) (l : Int) (fl : Bool) (c : Nat) : (s.evalNotice i l fl c).ports = s.ports := by
  unfold evalNotice; dsimp only; (repeat' split) <;> simp
@[simp] theorem evalNotice_path (i : Nat) (l : Int) (fl : Bool) (c : Nat) : (s.evalNotice i l fl c).path = s.path := by
  unfold evalNotice; dsimp only; (repeat' split) <;> simp
@[simp] theorem evalNotice_dir (i : Nat) (l : Int) (fl : Bool) (c : Nat) : (s.evalNotice i l fl c).dir = s.dir := by
  unfold evalNotice; dsimp only; (repeat' split) <;> simp
@[simp] theorem evalNotice_tide (i : Nat) (l : Int) (fl : Bool) (c : Nat) : (s.evalNotice i l fl c).tide = s.tide := by
  unfold evalNotice; dsimp only; (repeat' split) <;> simp
@[simp] theorem evalNotice_dram (i : Nat) (l : Int) (fl : Bool) (c : Nat) : (s.evalNotice i l fl c).dram = s.dram := by
  unfold evalNotice; dsimp only; (repeat' split) <;> simp
@[simp] theorem evalNotice_ctl (i : Nat) (l : Int) (fl : Bool) (c : Nat) : (s.evalNotice i l fl c).ctl = s.ctl := by
  unfold evalNotice; dsimp only; (repeat' split) <;> simp
@[simp] theorem evalNotice_ep (i : Nat) (l : Int) (fl : Bool) (c : Nat) : (s.evalNotice i l fl c).ep = s.ep := by
  unfold evalNotice; dsimp only; (repeat' split) <;> simp
@[simp] theorem evalNotice_flash (i : Nat) (l : Int) (fl : Bool) (c : Nat) : (s.evalNotice i l fl c).flash = s.flash := by
  unfold evalNotice; dsimp only; (repeat' split) <;> simp
theorem evalNotice_changes (i : Nat) (l : Int) (fl : Bool) (c : Nat) : s.changesOnly (s.evalNotice i l fl c) [.objs, .mgmt, .aon, .out] := fun x hx => by
  cases x <;> first | (exfalso; revert hx; decide) | simp [Part.same]

@[simp] theorem waitLevel_pending : s.waitLevel.pending = s.pending := by simp [waitLevel]
@[simp] theorem waitLevel_dev : s.waitLevel.dev = s.dev := by simp [waitLevel]
@[simp] theorem waitLevel_ports : s.waitLevel.ports = s.ports := by simp [waitLevel]
@[simp] theorem waitLevel_path : s.waitLevel.path = s.path := by simp [waitLevel]
@[simp] theorem waitLevel_dir : s.waitLevel.dir = s.dir := by simp [waitLevel]
@[simp] theorem waitLevel_tide : s.waitLevel.tide = s.tide := by simp [waitLevel]
@[simp] theorem waitLevel_dram : s.waitLevel.dram = s.dram := by simp [waitLevel]
@[simp] theorem waitLevel_ctl : s.waitLevel.ctl = s.ctl := by simp [waitLevel]
@[simp] theorem waitLevel_ep : s.waitLevel.ep = s.ep := by simp [waitLevel]
@[simp] theorem waitLevel_flash : s.waitLevel.flash = s.flash := by simp [waitLevel]
theorem waitLevel_changes : s.changesOnly (s.waitLevel ) [.objs, .mgmt, .aon, .out] := fun x hx => by
  cases x <;> first | (exfalso; revert hx; decide) | simp [Part.same]

@[simp] theorem setDevState_pending (d : DevState) : (s.setDevState d).pending = s.pending := by unfold setDevState; split <;> simp
@[simp] theorem setDevState_ports (d : DevState) : (s.setDevState d).ports = s.ports := by unfold setDevState; split <;> simp
@[simp] theorem setDevState_path (d : DevState) : (s.setDevState d).path = s.path := by unfold setDevState; split <;> simp
@[simp] theorem setDevState_dir (d : DevState) : (s.setDevState d).dir = s.dir := by unfold setDevState; split <;> simp
@[simp] theorem setDevState_tide (d : DevState) : (s.setDevState d).tide = s.tide := by unfold setDevState; split <;> simp
@[simp] theorem setDevState_dram (d : DevState) : (s.setDevState d).dram = s.dram := by unfold setDevState; split <;> simp
@[simp] theorem setDevState_ctl (d : DevState) : (s.setDevState d).ctl = s.ctl := by unfold setDevState; split <;> simp
@[simp] theorem setDevState_ep (d : DevState) : (s.setDevState d).ep = s.ep := by unfold setDevState; split <;> simp
@[simp] theorem setDevState_flash (d : DevState) : (s.setDevState d).flash = s.flash := by unfold setDevState; split <;> simp
theorem setDevState_changes (d : DevState) : s.changesOnly (s.setDevState d) [.objs, .mgmt, .aon, .out, .dev] := fun x hx => by
  cases x <;> first | (exfalso; revert hx; decide) | simp [Part.same]

@[simp] theorem toDegraded_pending : s.toDegraded.pending = s.pending := by unfold toDegraded; split <;> simp
@[simp] theorem toDegraded_ports : s.toDegraded.ports = s.ports := by unfold toDegraded; split <;> simp
@[simp] theorem toDegraded_path : s.toDegraded.path = s.path := by unfold toDegraded; split <;> simp
@[simp] theorem toDegraded_dir : s.toDegraded.dir = s.dir := by unfold toDegraded; split <;> simp
@[simp] theorem toDegraded_tide : s.toDegraded.tide = s.tide := by unfold toDegraded; split <;> simp
@[simp] theorem toDegraded_dram : s.toDegraded.dram = s.dram := by unfold toDegraded; split <;> simp
@[simp] theorem toDegraded_ctl : s.toDegraded.ctl = s.ctl := by unfold toDegraded; split <;> simp
@[simp] theorem toDegraded_ep : s.toDegraded.ep = s.ep := by unfold toDegraded; split <;> simp
@[simp] theorem toDegraded_flash : s.toDegraded.flash = s.flash := by unfold toDegraded; split <;> simp
theorem toDegraded_changes : s.changesOnly (s.toDegraded ) [.objs, .mgmt, .aon, .out, .dev] := fun x hx => by
  cases x <;> first | (exfalso; revert hx; decide) | simp [Part.same]

@[simp] theorem fenceBit_pending (k i c : Nat) : (s.fenceBit k i c).pending = s.pending := by simp [fenceBit, fenced]
@[simp] theorem fenceBit_path (k i c : Nat) : (s.fenceBit k i c).path = s.path := by simp [fenceBit, fenced]
@[simp] theorem fenceBit_dir (k i c : Nat) : (s.fenceBit k i c).dir = s.dir := by simp [fenceBit, fenced]
@[simp] theorem fenceBit_tide (k i c : Nat) : (s.fenceBit k i c).tide = s.tide := by simp [fenceBit, fenced]
@[simp] theorem fenceBit_dram (k i c : Nat) : (s.fenceBit k i c).dram = s.dram := by simp [fenceBit, fenced]
@[simp] theorem fenceBit_ctl (k i c : Nat) : (s.fenceBit k i c).ctl = s.ctl := by simp [fenceBit, fenced]
@[simp] theorem fenceBit_ep (k i c : Nat) : (s.fenceBit k i c).ep = s.ep := by simp [fenceBit, fenced]
@[simp] theorem fenceBit_flash (k i c : Nat) : (s.fenceBit k i c).flash = s.flash := by simp [fenceBit, fenced]
theorem fenceBit_changes (k i c : Nat) : s.changesOnly (s.fenceBit k i c) [.objs, .mgmt, .aon, .out, .dev, .ports] := fun x hx => by
  cases x <;> first | (exfalso; revert hx; decide) | simp [Part.same]

/-! ## Objects through events -/

theorem setNum_num_of (k v j : Nat) (h : (j == k) = false) : (s.setNum k v).num j = s.num j := num_setNum_ne s v (by simpa using h)

theorem bump_num_of (k n j : Nat) (h : (j == k) = false) : (s.bump k n).num j = s.num j := setNum_num_of s k _ j h

theorem pushEv_num (e : Ev) (k : Nat) (h : reportObj k = false) : (s.pushEv e).num k = s.num k := by
  simp only [reportObj, Bool.or_eq_false_iff] at h
  unfold pushEv; dsimp only
  split
  · rfl
  · split
    · rw [bump_num_of _ _ _ _ h.1.1.1]; rfl
    · split
      · rw [bump_num_of _ _ _ _ h.1.1.1]; rfl
      · rfl

theorem logEntry_num (code core : Nat) (k : Nat) (h : reportObj k = false) : (s.logEntry code core).num k = s.num k := by
  simp only [reportObj, Bool.or_eq_false_iff] at h
  unfold logEntry; split
  · exact bump_num_of _ _ _ _ h.1.1.2
  · rfl

theorem stageRec_num (r : TRec) (k : Nat) (h : reportObj k = false) : (s.stageRec r).num k = s.num k := by
  simp only [reportObj, Bool.or_eq_false_iff] at h
  unfold stageRec; dsimp only
  split
  · rw [bump_num_of _ _ _ _ h.2]; exact setNum_num_of _ _ _ _ h.1.2
  · exact setNum_num_of _ _ _ _ h.1.2

theorem offer_num (r : TRec) (k : Nat) (h : reportObj k = false) : (s.offer r).num k = s.num k := by
  unfold offer
  split
  · exact stageRec_num s r k h
  · rfl

theorem trace_num (pt src cls : Nat) (addr : Option Nat) (stat tag full arg : Nat) (k : Nat) (h : reportObj k = false) :
    (s.trace pt src cls addr stat tag full arg).num k = s.num k := by
  unfold trace; dsimp only
  split
  · rfl
  · (repeat' split) <;> first | (rw [offer_num _ _ _ h]; rfl) | rfl

theorem raise_num (code detail : Nat) (k : Nat) (h : reportObj k = false) : (s.raise code detail).num k = s.num k := by
  unfold raise
  show (State.traceEvent _ _ _).num k = _
  unfold traceEvent
  rw [trace_num _ _ _ _ _ _ _ _ _ _ h, logEntry_num _ _ _ _ h, pushEv_num _ _ _ h]

@[simp] theorem raise_out (code detail : Nat) : (s.raise code detail).out = s.out ++ [.event code detail] := by simp [raise]

/-- A happening waits to be counted: it changes Tidegauge alone (R764). -/
theorem happen_num (sel : Nat) (src : Option Nat) (cls : Nat) (uc : Bool) (n : Nat) (k : Nat) : (s.happen sel src cls uc n).num k = s.num k := by
  unfold num; rw [happen_objs]

theorem happen_mgmt (sel : Nat) (src : Option Nat) (cls : Nat) (uc : Bool) (n : Nat) :
    (s.happen sel src cls uc n).mgmt = { s.mgmt with gauge := (s.happen sel src cls uc n).mgmt.gauge } := by
  have h : ({ (s.happen sel src cls uc n).mgmt with gauge := s.mgmt.gauge } : Mgmt) = { s.mgmt with gauge := s.mgmt.gauge } := by
    unfold happen
    exact each_frame s (fun t => ({ t.mgmt with gauge := s.mgmt.gauge } : Mgmt)) _ _ (fun t j => by dsimp only; (repeat' split) <;> rfl)
  exact congrArg (fun m : Mgmt => { m with gauge := (s.happen sel src cls uc n).mgmt.gauge }) h

/-- The device state after a change of it. -/
@[simp] theorem setDevState_state (d : DevState) : (s.setDevState d).dev.state = d := by
  unfold setDevState; split
  · rename_i h; exact h
  · simp

end Sys2Proof.Machine.State
end

