-- ==== Sys2Proof/Laws/Run.lean ====
section
/-! SUPPORT. What running a command does around its own effect. -/

namespace Sys2Proof.Machine

theorem runOk_true (s : State) (f : State → State) : runOk true s f = .next (s.ran f) := rfl

theorem runOk_false (s : State) (f : State → State) : runOk false s f = .fault .illFormed := rfl

/-- A well-formed command has its effect. -/
theorem runWf_next {i : Instr} (h : WellFormed i = true) (s : State) (f : State → State) : runWf i s f = .next (s.ran f) := by
  simp [runWf, h, runOk]

/-- Everything that running a command can do. -/
theorem runOk_cases (ok : Bool) (s : State) (f : State → State) :
    (ok = true ∧ runOk ok s f = .next (s.ran f)) ∨ (ok = false ∧ runOk ok s f = .fault .illFormed) := by
  cases ok
  · exact .inr ⟨rfl, rfl⟩
  · exact .inl ⟨rfl, rfl⟩

/-- What a command leaves, from the form of its meaning. -/
theorem leaves_wf {c : Instr} {s : State} {f : State → State} (e : ∀ s, exec c s = runWf c s f) (h : WellFormed c = true) : Leaves c s (f s) := by
  unfold Leaves; rw [e, runWf_next h]; rfl

theorem leaves_ok {c : Instr} {s : State} {f : State → State} (e : ∀ s, exec c s = runOk true s f) : Leaves c s (f s) := by
  unfold Leaves; rw [e]; rfl

/-- A row's meaning once its sender is one that can send it. -/
theorem exec_of_sender (c : Instr) (s : State) (f : State → State) {w : Who} (hw : w.ok = true) (h1 : WellFormed c = w.ok)
    (h2 : exec c s = runWf c s f) : exec c s = runOk true s f := by
  rw [h2]; unfold runWf; rw [h1, hw]

namespace State

@[simp] theorem ran_pending (s : State) (f : State → State) : (s.ran f).pending = s.pending := rfl

/-- Only the state that the effect leaves counts. -/
theorem ran_const (s : State) (f : State → State) : s.ran f = s.ran (fun _ => f s) := rfl

theorem ran_memWf (s : State) (f : State → State) : (s.ran f).memWf = true := by
  simp only [ran]; exact canon_memWf _

theorem drain_nil (n : Nat) (s : State) (h : s.path.work = []) : drain n s = s := by
  cases n with
  | zero => rfl
  | succ n => simp [drain, h]

theorem endFences_nil (n : Nat) (s : State) (h : s.path.reqs = []) : endFences n s = s := by
  cases n with
  | zero => rfl
  | succ n => simp [endFences, h]

/-- With nothing in the request path, nothing settles. -/
theorem settle_quiet (s : State) (h1 : s.path.reqs = []) (h2 : s.path.work = []) (h3 : s.path.store = []) : s.settle = s := by
  have hn : s.h7Needy = [] := by simp [h7Needy, h1, byGrant]
  unfold settle
  rw [drain_nil _ _ h2]
  simp only [h3, hn, List.isEmpty_nil, Bool.and_self, if_true]
  exact endFences_nil _ _ h1

theorem path_epDone_self (s : State) (h : s.path.epDone = []) : { s with path := { s.path with epDone := [] } } = s := by
  cases s with | mk a b c d path f g i j k l m n o => cases path; simp_all

/-- Nothing that was injected comes due. -/
theorem mismatches_nil (s : State) (h : s.mgmt.inject = []) : s.mismatches = s := by
  unfold mismatches
  simp only [h, List.filter_nil, each_nil]
  cases s with | mk a b c d e f g i j k l m n o => cases m; simp_all

/-- Nothing that an earlier AON cycle decided comes due. -/
theorem aonDue_punctual (s : State) (h : s.punctual = true) : s.aonDue = s := by
  simp only [punctual, Bool.and_eq_true, Bool.or_eq_true, beq_iff_eq, decide_eq_true_eq] at h
  unfold aonDue
  have h1 : ¬ (s.mgmt.power.tampDue ≠ 0 ∧ s.mgmt.power.tampDue ≤ s.aonCycle) := by
    rintro ⟨a, b⟩; rcases h.1.2 with e | e
    · exact a e
    · omega
  have h2 : ¬ (s.mgmt.power.holdDue ≠ 0 ∧ s.mgmt.power.holdDue ≤ s.aonCycle) := by
    rintro ⟨a, b⟩; rcases h.2 with e | e
    · exact a e
    · omega
  simp only [h1, h2, if_false]

/-- In a quiet state nothing follows a command's own effect. -/
theorem after_quiet (s : State) (h : s.quiet = true) : s.after = s := by
  simp only [quiet, Bool.and_eq_true, List.isEmpty_iff, bne_iff_ne, ne_eq] at h
  obtain ⟨⟨⟨⟨⟨⟨⟨⟨⟨⟨⟨⟨hd, hn⟩, h1⟩, h2⟩, h3⟩, h4⟩, h5⟩, h6⟩, h7⟩, h8⟩, h9⟩, h10⟩, h11⟩ := h
  have ea : s.mismatches = s := mismatches_nil s (by
    simp only [punctual, Bool.and_eq_true, List.isEmpty_iff] at hd; exact hd.1.1)
  have eb : s.aonDue = s := aonDue_punctual s hd
  simp only [noted, Bool.and_eq_true, beq_iff_eq] at hn
  obtain ⟨⟨⟨n1, n2⟩, n3⟩, n4⟩ := hn
  have ec : s.watchNear = s := by simp [watchNear, n1, noteEbbing, n2]
  have ed : s.noteBacking = s := by unfold noteBacking; rw [if_pos n3]
  have ee : s.watchSlots = s := by unfold watchSlots; rw [if_pos n4]
  have e1 : s.pumpH8 = s := by simp [pumpH8, wakeAll, h1, byGrant]
  have e2 : s.settle = s := settle_quiet s h1 h2 h3
  have e3 : s.deliverEp = s := by
    unfold deliverEp
    rw [h4]; simp only [each_nil]
    exact path_epDone_self s h4
  have e4 : pumpBells s.mgmt.ring.bells.length s = s := by rw [h5]; rfl
  have e5 : s.pumpRings = s := by simp [pumpRings, h6]
  have e6 : s.pumpSq = s := by simp [pumpSq, h7]
  have e7 : s.pumpLent = s := by unfold pumpLent; split <;> simp [h8]
  have e8 : s.pumpRecal = s := by
    have : s.dram.chans.filter (fun e => e.2.recalDue) = [] := by
      rw [List.filter_eq_nil_iff]; intro e he
      have := List.all_eq_true.1 h9 e he
      simpa using this
    simp [pumpRecal, this]
  have e9 : s.deliverIrqs = s := by simp [deliverIrqs, h10]
  have e10 : s.startAll = s := by
    unfold startAll each
    have hp : ∀ p : Fin 16, (if s.ports[p].stalled || s.ports[p].ready.isEmpty then s else s.startMsgs p) = s := by
      intro p
      have hq := List.all_eq_true.1 h11 p (List.mem_finRange p)
      split
      · rfl
      · rename_i hn
        have : sends s.ports[p] = false := by
          simp only [Bool.or_eq_true, Bool.not_eq_true'] at hq hn
          rcases hq with hq | hq
          · exact absurd hq hn
          · exact hq
        simp only [startMsgs, this]; rfl
    generalize List.finRange 16 = xs
    induction xs with
    | nil => rfl
    | cons x xs ih => rw [List.foldl_cons, hp x]; exact ih
  unfold after
  simp only [ea, eb, ec, ed, ee, e1, e2, e3, e4, e5, e6, e7, e8, e9, e10]

@[simp] theorem idles_pending (s : State) (n : Nat) : (s.idles n).pending = s.pending := by
  unfold idles; exact each_frame s (fun t => t.pending) _ _ (fun t p => by dsimp only; (repeat' split) <;> rfl)
@[simp] theorem idles_dram (s : State) (n : Nat) : (s.idles n).dram = s.dram := by
  unfold idles; exact each_frame s (fun t => t.dram) _ _ (fun t p => by dsimp only; (repeat' split) <;> rfl)
theorem idles_changes (s : State) (n : Nat) : s.changesOnly (s.idles n) [.ports, .out] := by
  unfold idles
  refine each_changes (fun t p => ?_) _ _
  dsimp only; (repeat' split)
  · exact changesOnly_trans (changesOnly_mono (updPort_changes _ _ _) (by simp)) (changesOnly_mono (emit_changes _ _) (by simp))
  · exact changesOnly_refl _ _
  · exact changesOnly_mono (updPort_changes _ _ _) (by simp)

/-- A command whose effect leaves a quiet state with memory in canonical form answers that state and its IDLE flits. -/
theorem ran_quiet (s : State) (f : State → State) (h : (f s).quiet = true) (hm : (f s).memWf = true)
    (hp : (f s).pending = s.pending) : s.ran f = (f s).idles s.out.length := by
  have hw : ((f s).idles s.out.length).memWf = true := by unfold memWf; rw [idles_dram]; exact hm
  have hq : ((f s).idles s.out.length).pending = s.pending := by rw [idles_pending, hp]
  simp only [ran, after_quiet _ h, canon_of_memWf _ hw, ← hq]

end State

end Sys2Proof.Machine
end

