-- ==== Sys2Proof/Laws/Exec.lean ====
section
/-! SUPPORT. Every command is the check of its form followed by one effect. -/

namespace Sys2Proof.Machine

/-- Everything that a command can do: stop on a form that no sender makes, or have one effect with what follows it. -/
theorem exec_form (c : Instr) : ∃ f : State → State, ∀ s, exec c s = runOk (WellFormed c) s f := by
  cases c <;> exact ⟨_, fun _ => rfl⟩

end Sys2Proof.Machine
end

