-- ==== Sys2Proof/Laws/Grant.lean ====
section
/-! SUPPORT. A cycle of H2 that finds one request: it is granted. -/

namespace Sys2Proof.Machine.State

/-- A fold over steps that change nothing. -/
theorem foldl_same {α β : Type} (f : β → α → β) (x : β) (xs : List α) (h : ∀ a ∈ xs, f x a = x) : xs.foldl f x = x := by
  induction xs with
  | nil => rfl
  | cons a as ih => rw [List.foldl_cons, h a (List.mem_cons_self ..)]; exact ih (fun b hb => h b (List.mem_cons_of_mem _ hb))

/-- A fold in which exactly one step changes something. -/
theorem foldl_once {α β : Type} (f : β → α → β) (x y : β) (xs : List α) (a0 : α) (hm : a0 ∈ xs) (hn : xs.Nodup)
    (h0 : f x a0 = y) (hx : ∀ a ∈ xs, a ≠ a0 → f x a = x) (hy : ∀ a ∈ xs, a ≠ a0 → f y a = y) : xs.foldl f x = y := by
  induction xs with
  | nil => cases hm
  | cons a as ih =>
    rw [List.foldl_cons]
    rw [List.nodup_cons] at hn
    by_cases ha : a = a0
    · subst ha
      rw [h0]
      exact foldl_same f y as (fun b hb => hy b (List.mem_cons_of_mem _ hb) (fun e => hn.1 (e ▸ hb)))
    · rw [hx a (List.mem_cons_self ..) ha]
      rcases List.mem_cons.1 hm with e | e
      · exact absurd e.symm ha
      · exact ih e hn.2 (fun b hb => hx b (List.mem_cons_of_mem _ hb)) (fun b hb => hy b (List.mem_cons_of_mem _ hb))

/-- Only one request is held, and it waits. -/
theorem heads_none (s : State) (cy : Cycle) (src : Nat) (h : ∀ r ∈ s.path.reqs, srcBit r.hdr.src ≠ src ∨ r.stage ≠ .waiting) :
    s.heads cy src = [] := by
  unfold heads
  have : s.path.reqs.filter (fun r => srcBit r.hdr.src == src && s.eligible cy.lines r && s.canTake (s.slots ++ cy.freed) r.cls) = [] := by
    rw [List.filter_eq_nil_iff]
    intro r hr
    rcases h r hr with e | e
    · simp [e]
    · have : (r.stage == Stage.waiting) = false := by simpa using e
      simp [eligible, this]
  simp only [this]; rfl

theorem pick_none (s : State) (cy : Cycle) (src level : Nat) (h : ∀ r ∈ s.path.reqs, srcBit r.hdr.src ≠ src ∨ r.stage ≠ .waiting) :
    s.pick cy src level = none := by
  have hh := heads_none s cy src h
  unfold pick
  simp only [hh]
  split
  · split
    · rename_i r hf
      have hm := List.mem_of_find?_eq_some hf
      have hp := List.find?_some hf
      rcases h r hm with e | e
      · simp [e] at hp
      · have : (r.stage == Stage.waiting) = false := by simpa using e
        simp [eligible, this] at hp
    · rfl
  · rfl
  · rfl
  · split <;> rfl

theorem tryGrant_none (s : State) (cy : Cycle) (src level : Nat) (h : ∀ r ∈ s.path.reqs, srcBit r.hdr.src ≠ src ∨ r.stage ≠ .waiting) :
    tryGrant (s, cy) level src = (s, cy) := by
  unfold tryGrant
  simp only [pick_none s cy src level h]
  split <;> split <;> rfl

/-- The rotation's start of a level moves on. -/
def rotated (s : State) (level : Nat) : State :=
  { s with ctl := { s.ctl with water := { s.ctl.water with
      start := (List.range 4).map (fun l => if l = level then (s.ctl.water.start.getD level 0 + 1) % 17 else s.ctl.water.start.getD l 0) } } }

theorem grantLevel_none (s : State) (cy : Cycle) (level : Nat) (h : ∀ r ∈ s.path.reqs, r.stage ≠ .waiting) :
    grantLevel (s, cy) level = (s.rotated level, cy) := by
  have hf : (List.range 17).foldl (fun (x : State × Cycle) i =>
      tryGrant (tryGrant x level ((s.ctl.water.start.getD level 0 + i) % 17)) level ((s.ctl.water.start.getD level 0 + i) % 17)) (s, cy) = (s, cy) := by
    apply foldl_same
    intro i _
    rw [tryGrant_none s cy _ level (fun r hr => .inr (h r hr)), tryGrant_none s cy _ level (fun r hr => .inr (h r hr))]
  unfold grantLevel
  simp only [hf]
  rfl

/-- A level at which the lone request of a source offers nothing. -/
theorem grantLevel_skip (s : State) (cy : Cycle) (level : Nat) (r : Req) (hr : s.path.reqs = [r])
    (hp : s.pick cy (srcBit r.hdr.src) level = none) : grantLevel (s, cy) level = (s.rotated level, cy) := by
  have ht : ∀ src, tryGrant (s, cy) level src = (s, cy) := by
    intro src
    by_cases hs : srcBit r.hdr.src = src
    · subst hs; unfold tryGrant; simp only [hp]; split <;> split <;> rfl
    · exact tryGrant_none s cy src level (by intro q hq; rw [hr] at hq; simp at hq; subst hq; exact .inl hs)
  have hf : (List.range 17).foldl (fun (x : State × Cycle) i =>
      tryGrant (tryGrant x level ((s.ctl.water.start.getD level 0 + i) % 17)) level ((s.ctl.water.start.getD level 0 + i) % 17)) (s, cy) = (s, cy) := by
    apply foldl_same
    intro i _
    rw [ht, ht]
  unfold grantLevel
  simp only [hf]
  rfl

/-- A level at which the lone request of a source is granted. -/
theorem grantLevel_hit (s : State) (cy : Cycle) (level : Nat) (r : Req) (hr : s.path.reqs = [r]) (pool : Bool) (t : State)
    (hb : cy.budget ≠ 0) (hu : cy.used.getD (srcBit r.hdr.src) 0 = 0)
    (hp : s.pick cy (srcBit r.hdr.src) level = some (r, pool, t))
    (hd : ∀ q ∈ ((t.charge r (level != 3)).grant r pool).path.reqs, q.stage ≠ .waiting)
    (hw : ((t.charge r (level != 3)).grant r pool).ctl.water.start = s.ctl.water.start) :
    ∃ cy', grantLevel (s, cy) level = (((t.charge r (level != 3)).grant r pool).rotated level, cy') ∧ cy'.won = cy.won ++ [r.id] := by
  have hsrc : srcBit r.hdr.src < 17 := by cases r.hdr.src with | port p => exact Nat.lt_succ_of_lt p.isLt | ep => exact Nat.lt_succ_self 16
  generalize hD : (t.charge r (level != 3)).grant r pool = D at *
  let cy' : Cycle := ⟨cy.budget - 1, cy.used.set (srcBit r.hdr.src) (cy.used.getD (srcBit r.hdr.src) 0 + 1), s.named r ++ cy.lines, cy.won ++ [r.id], cy.freed⟩
  refine ⟨cy', ?_, rfl⟩
  have hone : tryGrant (s, cy) level (srcBit r.hdr.src) = (D, cy') := by
    unfold tryGrant
    have hl : ¬ (cy.budget = 0 ∨ (if srcBit r.hdr.src = 16 then 1 else 2) ≤ cy.used.getD (srcBit r.hdr.src) 0) := by
      rw [hu]; rintro (h | h)
      · exact hb h
      · split at h <;> omega
    simp only [hl, if_false, hp, hD]; rfl
  have hdone : ∀ src c, tryGrant (D, c) level src = (D, c) := fun src c => tryGrant_none D c src level (fun q hq => .inr (hd q hq))
  have hmiss : ∀ src, src ≠ srcBit r.hdr.src → tryGrant (s, cy) level src = (s, cy) := fun src h =>
    tryGrant_none s cy src level (by intro q hq; rw [hr] at hq; simp at hq; subst hq; exact .inl (fun e => h e.symm))
  have hf : (List.range 17).foldl (fun (x : State × Cycle) i =>
      tryGrant (tryGrant x level ((s.ctl.water.start.getD level 0 + i) % 17)) level ((s.ctl.water.start.getD level 0 + i) % 17)) (s, cy) = (D, cy') := by
    generalize s.ctl.water.start.getD level 0 = st
    have hi : (st + (srcBit r.hdr.src + 17 - st % 17) % 17) % 17 = srcBit r.hdr.src := by omega
    refine foldl_once _ _ _ _ ((srcBit r.hdr.src + 17 - st % 17) % 17) (by simp; omega) List.nodup_range ?_ ?_ ?_
    · show tryGrant (tryGrant (s, cy) level _) level _ = _
      rw [hi, hone, hdone]
    · intro i him hne
      have : (st + i) % 17 ≠ srcBit r.hdr.src := by simp at him; omega
      show tryGrant (tryGrant (s, cy) level _) level _ = _
      rw [hmiss _ this, hmiss _ this]
    · intro i him hne
      show tryGrant (tryGrant (D, cy') level _) level _ = _
      rw [hdone, hdone]
  unfold grantLevel
  simp only [hf]
  unfold rotated
  rw [hw]

/-! ## What the lone request offers -/

theorem heads_lone (s : State) (cy : Cycle) (r : Req) (hr : s.path.reqs = [r]) (he : s.eligible cy.lines r = true)
    (hc : s.canTake (s.slots ++ cy.freed) r.cls = true) : s.heads cy (srcBit r.hdr.src) = [r] := by
  unfold heads
  simp only [hr, List.filter_cons, beq_self_eq_true, he, hc, Bool.and_self, if_true, List.filter_nil, List.foldl_cons, List.foldl_nil,
    List.any_nil, Bool.false_eq_true, if_false, List.nil_append]

/-- What a level offers from a lone request: nothing, or the request, with the level's pointers moved at most. -/
theorem pick_lone (s : State) (cy : Cycle) (r : Req) (level : Nat) (hr : s.path.reqs = [r]) (he : s.eligible cy.lines r = true)
    (hc : s.canTake (s.slots ++ cy.freed) r.cls = true) :
    s.pick cy (srcBit r.hdr.src) level = none ∨ ∃ pool rr df, s.pick cy (srcBit r.hdr.src) level = some (r, pool,
      { s with ctl := { s.ctl with water := { s.ctl.water with rr := rr, deficit := df } } }) := by
  have hh := heads_lone s cy r hr he hc
  unfold pick
  simp only [hh]
  split
  · simp only [hr, List.find?_cons, List.find?_nil]
    split
    · rename_i q hq
      split at hq
      · cases hq; exact .inr ⟨_, s.ctl.water.rr, s.ctl.water.deficit, rfl⟩
      · cases hq
    · exact .inl rfl
  · simp only [List.filter_cons, List.filter_nil]
    split
    · exact .inr ⟨false, s.ctl.water.rr, s.ctl.water.deficit, rfl⟩
    · exact .inl rfl
  · simp only [List.filter_cons, List.filter_nil]
    split
    · exact .inr ⟨false, _, s.ctl.water.deficit, rfl⟩
    · exact .inl rfl
  · split
    · exact .inl rfl
    · simp only [List.find?_cons, List.find?_nil]
      split
      · rename_i q hq
        split at hq
        · cases hq; exact .inr ⟨false, s.ctl.water.rr, _, rfl⟩
        · cases hq
      · exact .inr ⟨false, _, _, rfl⟩

theorem pick_high (s : State) (cy : Cycle) (r : Req) (hh : s.heads cy (srcBit r.hdr.src) = [r]) (hc : 60 ≤ r.cls) (hg : s.green r = true) :
    s.pick cy (srcBit r.hdr.src) 1 ≠ none := by
  unfold pick; simp [hh, hc, hg]

theorem pick_low (s : State) (cy : Cycle) (r : Req) (hh : s.heads cy (srcBit r.hdr.src) = [r]) (hc : r.cls < 60) (hg : s.green r = true) :
    s.pick cy (srcBit r.hdr.src) 2 ≠ none := by
  unfold pick; simp [hh, hc, hg, nextHead]

theorem pick_shared (s : State) (cy : Cycle) (r : Req) (hr : s.path.reqs = [r]) (he : s.eligible cy.lines r = true)
    (hc : s.canTake (s.slots ++ cy.freed) r.cls = true) (hg : 0 < s.ctl.water.cap) : s.pick cy (srcBit r.hdr.src) 3 ≠ none := by
  have hh := heads_lone s cy r hr he hc
  have : ¬ s.ctl.water.cap ≤ 0 := by omega
  unfold pick
  simp only [hh, this, if_false]
  split
  · simp
  · simp [nextHead]

/-! ## The grant -/

/-- A request as its grant leaves it (R423). -/
def grantedReq (s : State) (r : Req) (pool : Bool) : Req :=
  { r with gseq := s.path.gseq + 2, pool := pool, stamp := (s.now16 + r.ddl) % 2 ^ 24, stage := .tide }

/-- The objects that a grant counts in, besides those of reports: the bytes of each class and the ordered requests. -/
def grantObj (k : Nat) : Bool :=
  reportObj k || (k % 256 == 25 && decide (0x7000 ≤ k / 256)) || k == Obj.orderedRequests || k == Obj.orderHoldMax

/-- `d` is `s` after a grant of its one request. -/
structure GrantedFrom (s : State) (r : Req) (pool : Bool) (d : State) : Prop where
  path  : d.path = { s.path with reqs := [grantedReq s r pool], gseq := s.path.gseq + 2 }
  ports : d.ports = (s.leaveRx r).ports
  rest  : s.changesOnly d [.objs, .ports, .path, .ctl, .mgmt]
  ctl   : d.ctl = { s.ctl with water := d.ctl.water }
  mgmt  : d.mgmt = { s.mgmt with gauge := d.mgmt.gauge }
  num   : ∀ k, grantObj k = false → d.num k = s.num k

theorem offer_mgmt (s : State) (x : TRec) : (s.offer x).mgmt = { s.mgmt with gauge := (s.offer x).mgmt.gauge } := by
  unfold offer stageRec updGauge; dsimp only; (repeat' split) <;> rfl

theorem trace_mgmt (s : State) (pt src cls : Nat) (addr : Option Nat) (stat tag full arg : Nat) :
    (s.trace pt src cls addr stat tag full arg).mgmt = { s.mgmt with gauge := (s.trace pt src cls addr stat tag full arg).mgmt.gauge } := by
  unfold trace; dsimp only
  split
  · rfl
  · (repeat' split) <;> first | (rw [offer_mgmt]; done) | rfl

theorem leaveRx_changes (s : State) (r : Req) : s.changesOnly (s.leaveRx r) [.ports] := by
  unfold leaveRx returnUnits; split
  · exact updPort_changes _ _ _
  · exact changesOnly_refl _ _

/-- What a grant returns depends on the ports and the device's state alone. -/
theorem leaveRx_ports {s t : State} (r : Req) (hp : t.ports = s.ports) (hd : t.dev = s.dev) : (t.leaveRx r).ports = (s.leaveRx r).ports := by
  unfold leaveRx returnUnits; split
  · unfold updPort; rw [hp, hd]
  · exact hp

theorem charge_ctl (s : State) (r : Req) (b : Bool) : (s.charge r b).ctl = { s.ctl with water := (s.charge r b).ctl.water }
    ∧ (s.charge r b).ctl.water.start = s.ctl.water.start := by
  unfold charge; dsimp only; split <;> exact ⟨rfl, rfl⟩

theorem charge_changes (s : State) (r : Req) (b : Bool) : s.changesOnly (s.charge r b) [.objs, .ctl] := by
  intro x hx; cases x <;> first | (exfalso; revert hx; decide) | rfl

theorem charge_num (s : State) (r : Req) (b : Bool) (k : Nat) (h : grantObj k = false) : (s.charge r b).num k = s.num k := by
  unfold charge
  have hk : k ≠ Obj.classGrantedBytes r.cls := by
    intro e; subst e; unfold grantObj Obj.classGrantedBytes okey at h
    simp only [Bool.or_eq_false_iff] at h
    have := h.1.1.2
    simp at this; omega
  exact (bump_num_of _ _ _ _ (by simpa using hk)).trans rfl

/-- The request as the grant changes it. -/
theorem updFirst_one (r : Req) (f : Req → Req) : updFirst (fun q => q.id == r.id) f [r] = [f r] := by simp [updFirst]

/-- A grant of the one request that is held. -/
theorem grant_lone (s : State) (r : Req) (pool : Bool) (hr : s.path.reqs = [r]) :
    GrantedFrom s r pool (s.grant r pool) ∧ (s.grant r pool).ctl = s.ctl := by
  unfold grant
  extract_lets gseq s1 s2 r1 pth s3 src s4 s5
  have c1 : s.changesOnly s1 [.objs] := by
    show s.changesOnly (if r.held then _ else s) _
    split
    · exact atLeast_changes _ _ _
    · exact changesOnly_refl _ _
  have c2 : s.changesOnly s2 [.objs] := changesOnly_trans c1 (by
    show s1.changesOnly (if r.ordered then _ else s1) _
    split
    · exact bump_changes _ _ _
    · exact changesOnly_refl _ _)
  have c4 : s3.changesOnly s4 [.objs, .mgmt] :=
    changesOnly_trans (changesOnly_mono (happen_changes s3 _ _ _ _ _) (by simp)) (changesOnly_mono (happen_changes _ _ _ _ _ _) (by simp))
  have c5 : s3.changesOnly s5 [.objs, .mgmt] := changesOnly_trans c4 (trace_changes _ _ _ _ _ _ _ _ _)
  have p2 : s2.path = s.path := c2 .path (by simp)
  have p5 : s5.path = { s.path with gseq := gseq } := (c5 .path (by simp)).trans (by show { s2.path with gseq := gseq } = _; rw [p2])
  have m5 : s5.mgmt = { s.mgmt with gauge := s5.mgmt.gauge } := by
    have h2 : s3.mgmt = s.mgmt := c2 .mgmt (by simp)
    have hm : s4.mgmt = { s.mgmt with gauge := s4.mgmt.gauge } := by
      show ((s3.happen _ _ _ _ _).happen _ _ _ _ _).mgmt = _
      rw [happen_mgmt, happen_mgmt s3, h2]
    have := trace_mgmt s4 1 src r.cls (some (addrOff r.hdr.addr)) 0 r.hdr.tag.toNat r.hdr.addr.toNat r.op.cost
    rw [hm] at this
    exact this
  have r1e : r1 = grantedReq s r pool := by
    have d2 : s2.dev = s.dev := c2 .dev (by simp)
    show ({ r with gseq := gseq, pool := pool, stamp := (s2.now16 + r.ddl) % 2 ^ 24, stage := .tide } : Req) = _
    unfold now16 grantedReq now16; rw [d2]
  have hreq : (s5.updReq r.id (fun _ => r1)).path = { s.path with reqs := [grantedReq s r pool], gseq := s.path.gseq + 2 } := by
    show ({ s5.path with reqs := updFirst (fun q => q.id == r.id) (fun _ => r1) s5.path.reqs } : DataPath) = _
    rw [p5, r1e]; simp only [hr, updFirst_one]; rfl
  have hl := leaveRx_changes (s5.updReq r.id (fun _ => r1)) r
  have d5 : s5.dev = s.dev := (c5 .dev (by simp)).trans (c2 .dev (by simp))
  have q5 : s5.ports = s.ports := (c5 .ports (by simp)).trans (c2 .ports (by simp))
  have ctl5 : s5.ctl = s.ctl := (c5 .ctl (by simp)).trans (c2 .ctl (by simp))
  refine ⟨⟨(hl .path (by simp)).trans hreq, ?_, ?_, ?_, ?_, ?_⟩, (hl .ctl (by simp)).trans ctl5⟩
  · exact leaveRx_ports r q5 d5
  · refine changesOnly_trans (changesOnly_mono c2 (by simp)) (changesOnly_trans (u := s3) ?_ (changesOnly_trans (changesOnly_mono c5 (by simp)) (changesOnly_trans (changesOnly_mono (updReq_changes s5 r.id _) (by simp)) (changesOnly_mono hl (by simp)))))
    intro x hx; cases x <;> first | (exfalso; revert hx; decide) | rfl
  · have hc := hl .ctl (by simp)
    simp only [Part.same] at hc
    have e : ((s5.updReq r.id fun _ => r1).leaveRx r).ctl = s.ctl := hc.trans ctl5
    rw [e]
  · have hm := (hl .mgmt (by simp))
    simp only [Part.same] at hm
    rw [hm]; exact m5
  · intro k hk
    have ho := hl .objs (by simp)
    simp only [Part.same] at ho
    have hb : ((s5.updReq r.id fun _ => r1).leaveRx r).num k = s5.num k := by unfold num; rw [ho]; rfl
    rw [hb]
    have hk' := hk
    unfold grantObj at hk'
    simp only [Bool.or_eq_false_iff, Bool.and_eq_false_iff, beq_eq_false_iff_ne, ne_eq, decide_eq_false_iff_not] at hk'
    obtain ⟨⟨⟨k1, _⟩, k4⟩, k5⟩ := hk'
    show (State.trace s4 1 src r.cls _ 0 _ _ _).num k = _
    rw [trace_num _ _ _ _ _ _ _ _ _ _ k1]
    show ((s3.happen _ _ _ _ _).happen _ _ _ _ _).num k = _
    rw [happen_num, happen_num]
    show s2.num k = _
    have e2 : s2.num k = s1.num k := by
      show (if r.ordered then s1.bump Obj.orderedRequests else s1).num k = _
      split
      · exact bump_num_of _ _ _ _ (by simpa using k4)
      · rfl
    rw [e2]
    show (if r.held then s.atLeast Obj.orderHoldMax _ else s).num k = _
    split
    · unfold atLeast; split
      · exact setNum_num_of _ _ _ _ (by simpa using k5)
      · rfl
    · rfl

/-! ## The whole cycle -/

/-- Two states that differ in the pointers of the arbitration at most. -/
structure Turned (s t : State) : Prop where
  rest   : s.changesOnly t [.ctl]
  ctl    : t.ctl = { s.ctl with water := t.ctl.water }
  cls    : t.ctl.water.cls = s.ctl.water.cls
  cap    : t.ctl.water.cap = s.ctl.water.cap
  tokens : t.ctl.water.tokens = s.ctl.water.tokens

theorem Turned.refl (s : State) : Turned s s := ⟨changesOnly_refl _ _, rfl, rfl, rfl, rfl⟩

theorem Turned.rotated {s t : State} (h : Turned s t) (level : Nat) : Turned s (t.rotated level) :=
  ⟨changesOnly_trans h.rest (by intro x hx; cases x <;> first | (exfalso; revert hx; decide) | rfl),
    congrArg (fun c => { c with water := (t.rotated level).ctl.water }) h.ctl, h.cls, h.cap, h.tokens⟩

theorem GrantedFrom.rotated {s d : State} {r : Req} {pool : Bool} (h : GrantedFrom s r pool d) (level : Nat) :
    GrantedFrom s r pool (d.rotated level) where
  path := h.path
  ports := h.ports
  rest := changesOnly_trans h.rest (by intro x hx; cases x <;> first | (exfalso; revert hx; decide) | rfl)
  ctl := congrArg (fun c => { c with water := (d.rotated level).ctl.water }) h.ctl
  mgmt := h.mgmt
  num := h.num

/-- What the conditions of a grant read is the same after the pointers turn. -/
theorem Turned.fields {s t : State} (h : Turned s t) : t.path = s.path ∧ t.ports = s.ports ∧ t.dev = s.dev ∧ t.objs = s.objs
    ∧ t.mgmt = s.mgmt ∧ t.ep = s.ep ∧ t.ctl.water.cls = s.ctl.water.cls ∧ t.ctl.water.cap = s.ctl.water.cap ∧ t.ctl.water.tokens = s.ctl.water.tokens :=
  ⟨h.rest .path (by simp), h.rest .ports (by simp), h.rest .dev (by simp), h.rest .objs (by simp), h.rest .mgmt (by simp),
    h.rest .ep (by simp), h.cls, h.cap, h.tokens⟩

theorem Turned.orderHeld {s t : State} (h : Turned s t) (r : Req) : t.orderHeld r = s.orderHeld r := by
  obtain ⟨h1, h2, h3, h4, h5, h6, h7, h8, h9⟩ := h.fields
  unfold State.orderHeld; rw [h1, h6]

theorem Turned.named {s t : State} (h : Turned s t) (r : Req) : t.named r = s.named r := by
  have e : t.ctl.regions = s.ctl.regions := by rw [h.ctl]
  unfold State.named State.regionAt; rw [e]

theorem Turned.eligible {s t : State} (h : Turned s t) (l : List Nat) (r : Req) : t.eligible l r = s.eligible l r := by
  obtain ⟨h1, h2, h3, h4, h5, h6, h7, h8, h9⟩ := h.fields
  unfold State.eligible; simp only [h.orderHeld, h.named, h1, h2, h3, State.resetNow]

theorem Turned.slots {s t : State} (h : Turned s t) : t.slots = s.slots := by
  obtain ⟨h1, h2, h3, h4, h5, h6, h7, h8, h9⟩ := h.fields
  have e : t.ctl.regions = s.ctl.regions := by rw [h.ctl]
  have hj : t.jobClass = s.jobClass := by
    funext j; unfold State.jobClass State.pageMode State.lineMode State.regionAt State.num; simp only [e, h4]
  unfold State.slots; rw [h1, h2, (h.rest .tide (by simp) : t.tide = s.tide), hj]

theorem Turned.classOf {s t : State} (h : Turned s t) (c : Nat) : t.classOf c = s.classOf c := by
  obtain ⟨h1, h2, h3, h4, h5, h6, h7, h8, h9⟩ := h.fields
  unfold State.classOf; rw [h7]

theorem Turned.canTake {s t : State} (h : Turned s t) (us : List (Nat × Bool)) (c : Nat) : t.canTake us c = s.canTake us c := by
  obtain ⟨h1, h2, h3, h4, h5, h6, h7, h8, h9⟩ := h.fields
  unfold State.canTake; simp only [h.classOf, h7]

theorem Turned.green {s t : State} (h : Turned s t) (r : Req) : t.green r = s.green r := by
  obtain ⟨h1, h2, h3, h4, h5, h6, h7, h8, h9⟩ := h.fields
  unfold State.green tokensOf; rw [h9]

/-- What a grant leaves is the same wherever the pointers stand. -/
theorem Turned.granted {s t : State} (h : Turned s t) {r : Req} {pool : Bool} {d : State} (g : GrantedFrom t r pool d) :
    GrantedFrom s r pool d := by
  obtain ⟨h1, h2, h3, h4, h5, h6, h7, h8, h9⟩ := h.fields
  have e : t.grantedReq r pool = s.grantedReq r pool := by unfold grantedReq now16; rw [h1, h3]
  refine ⟨by rw [g.path, h1, e], ?_, ?_, ?_, by rw [g.mgmt, h5], ?_⟩
  · rw [g.ports]; exact leaveRx_ports r h2 h3
  · exact changesOnly_trans (changesOnly_mono h.rest (by simp)) g.rest
  · exact g.ctl.trans (congrArg (fun c => { c with water := d.ctl.water }) h.ctl)
  · intro k hk
    rw [g.num k hk]; unfold num; rw [h4]

/-- What the lone waiting request needs for its grant, with the slots that this cycle has freed. -/
structure Lone (s : State) (freed : List (Nat × Bool)) (r : Req) : Prop where
  only : s.path.reqs = [r]
  elig : s.eligible [] r = true
  room : s.canTake (s.slots ++ freed) r.cls = true

theorem Lone.turned {s t : State} {r : Req} {freed : List (Nat × Bool)} (h : Lone s freed r) (ht : Turned s t) : Lone t freed r :=
  ⟨by rw [ht.fields.1]; exact h.only, by rw [ht.eligible]; exact h.elig, by rw [ht.slots, ht.canTake]; exact h.room⟩

/-- One level on a lone request: it grants the request or turns. -/
theorem level_lone {s t : State} {r : Req} {freed : List (Nat × Bool)} (h : Lone s freed r) (ht : Turned s t) (level : Nat) :
    let cy : Cycle := ⟨28, List.replicate 17 0, [], [], freed⟩
    (t.pick cy (srcBit r.hdr.src) level = none ∧ grantLevel (t, cy) level = (t.rotated level, cy))
      ∨ ∃ d cy' pool, grantLevel (t, cy) level = (d, cy') ∧ cy'.won = [r.id] ∧ GrantedFrom s r pool d := by
  intro cy
  have ho := h.turned ht
  rcases pick_lone t cy r level ho.only ho.elig ho.room with hp | ⟨pool, rr, df, hp⟩
  · exact .inl ⟨hp, grantLevel_skip t cy level r ho.only hp⟩
  · right
    generalize hu : ({ t with ctl := { t.ctl with water := { t.ctl.water with rr := rr, deficit := df } } } : State) = u at hp
    have htu : Turned t u := by
      subst hu
      exact ⟨by intro x hx; cases x <;> first | (exfalso; revert hx; decide) | rfl, rfl, rfl, rfl, rfl⟩
    have hso := ho.turned htu
    let w := u.charge r (level != 3)
    have hwc : u.changesOnly w [.objs, .ctl] := charge_changes u r _
    have hwp : w.path = u.path := hwc .path (by simp)
    have hg := grant_lone w r pool (by rw [hwp]; exact hso.only)
    obtain ⟨cy', he, hwon⟩ := grantLevel_hit t cy level r ho.only pool u (by simp [cy]) (by
        have hsrc : srcBit r.hdr.src < 17 := by cases r.hdr.src with | port p => exact Nat.lt_succ_of_lt p.isLt | ep => exact Nat.lt_succ_self 16
        show (List.replicate 17 0).getD _ 0 = 0
        rw [List.getD_eq_getElem?_getD, List.getElem?_replicate, if_pos hsrc]; rfl) hp (by
        intro q hq
        have hpth : (w.grant r pool).path.reqs = [w.grantedReq r pool] := by rw [hg.1.path]
        have hq' : q ∈ (w.grant r pool).path.reqs := hq
        rw [hpth] at hq'
        simp at hq'; subst hq'
        simp [grantedReq]) (by
        show (w.grant r pool).ctl.water.start = _
        rw [hg.2, (charge_ctl u r (level != 3)).2]; subst hu; rfl)
    refine ⟨_, cy', pool, he, by rw [hwon]; rfl, ?_⟩
    apply (Turned.granted ht)
    apply (Turned.granted htu)
    apply GrantedFrom.rotated
    obtain ⟨gp, gq, gr, gc, gm, gn⟩ := hg.1
    have hwd : w.dev = u.dev := hwc .dev (by simp)
    have e : w.grantedReq r pool = u.grantedReq r pool := by unfold grantedReq now16; rw [hwp, hwd]
    refine ⟨by rw [gp, hwp, e], ?_, ?_, ?_, ?_, ?_⟩
    · rw [gq]; exact leaveRx_ports r (hwc .ports (by simp)) hwd
    · exact changesOnly_trans (changesOnly_mono hwc (by simp)) gr
    · exact gc.trans (congrArg (fun c => { c with water := (w.grant r pool).ctl.water }) (charge_ctl u r (level != 3)).1)
    · rw [gm, (hwc .mgmt (by simp) : w.mgmt = u.mgmt)]
    · intro k hk
      rw [gn k hk]; exact charge_num u r _ k hk

/-- After the grant the other levels only turn. -/
theorem level_done {s d : State} {r : Req} {pool : Bool} (g : GrantedFrom s r pool d) (cy : Cycle) (level : Nat) :
    grantLevel (d, cy) level = (d.rotated level, cy) :=
  grantLevel_none d cy level (by intro q hq; rw [g.path] at hq; simp at hq; subst hq; simp [grantedReq])

/-- A request that some level takes is not passed over by all of them. -/
theorem taken_lone {s t0 t1 t2 : State} {r : Req} {cy : Cycle} (hcy : cy.lines = []) (h : Lone s cy.freed r) (h0 : Turned s t0) (h1 : Turned s t1)
    (h2 : Turned s t2) (hg : s.green r = true ∨ 0 < s.ctl.water.cap) (p1 : t0.pick cy (srcBit r.hdr.src) 1 = none)
    (p2 : t1.pick cy (srcBit r.hdr.src) 2 = none) (p3 : t2.pick cy (srcBit r.hdr.src) 3 = none) : False := by
  have l0 := h.turned h0
  have l1 := h.turned h1
  have l2 := h.turned h2
  rcases hg with hg | hg
  · by_cases hc : 60 ≤ r.cls
    · exact pick_high t0 cy r (heads_lone t0 cy r l0.only (hcy ▸ l0.elig) l0.room) hc ((h0.green r).trans hg) p1
    · exact pick_low t1 cy r (heads_lone t1 cy r l1.only (hcy ▸ l1.elig) l1.room) (by omega) ((h1.green r).trans hg) p2
  · exact pick_shared t2 cy r l2.only (hcy ▸ l2.elig) l2.room (h2.cap ▸ hg) p3

/-- With its tokens filled and its lone request not held, a cycle is its four levels. -/
theorem h2Grants_levels (s : State) (r : Req) (h : Lone s s.freedSlots r) (hf : s.dev.now < s.ctl.water.filled) :
    s.h2Grants = grantLevel (grantLevel (grantLevel (grantLevel (s, ⟨28, List.replicate 17 0, [], [], s.freedSlots⟩) 0) 1) 2) 3 := by
  have hfill : s.fillTokens = s := by unfold fillTokens; rw [if_pos hf]
  have hheld : s.markHeld = s := by
    have : ¬ (r.stage = .waiting ∧ s.orderHeld r = true) := by
      rintro ⟨_, ho⟩
      have := h.elig
      unfold eligible at this
      simp [ho] at this
    unfold markHeld
    rw [h.only]; simp only [List.map_cons, List.map_nil, this, if_false]
    have : s.path.reqs = [r] := h.only
    rw [← this]
  unfold h2Grants
  rw [hfill, hheld]
  have hl : List.range 4 = [0, 1, 2, 3] := rfl
  rw [hl, List.foldl_cons, List.foldl_cons, List.foldl_cons, List.foldl_cons, List.foldl_nil]

/-- A cycle grants the one request that waits, where its tokens are filled and some level takes it (R417, R419). -/
theorem h2Grants_lone (s : State) (r : Req) (h : Lone s s.freedSlots r) (hf : s.dev.now < s.ctl.water.filled)
    (hg : s.green r = true ∨ 0 < s.ctl.water.cap) :
    ∃ d cy pool, s.h2Grants = (d, cy) ∧ cy.won = [r.id] ∧ GrantedFrom s r pool d := by
  rw [h2Grants_levels s r h hf]
  have hcy : (⟨28, List.replicate 17 0, [], [], s.freedSlots⟩ : Cycle).lines = [] := rfl
  have hfr : Lone s (⟨28, List.replicate 17 0, [], [], s.freedSlots⟩ : Cycle).freed r := h
  have hlev := fun (t : State) (ht : Turned s t) (level : Nat) => level_lone h ht level
  generalize (⟨28, List.replicate 17 0, [], [], s.freedSlots⟩ : Cycle) = c at hcy hfr hlev ⊢
  rcases hlev s (Turned.refl s) 0 with ⟨_, e0⟩ | ⟨d, cy', pool, e, hw, g⟩
  · rw [e0]
    have t0 := (Turned.refl s).rotated 0
    generalize s.rotated 0 = u0 at t0 ⊢
    rcases hlev u0 t0 1 with ⟨p1, e1⟩ | ⟨d, cy', pool, e, hw, g⟩
    · rw [e1]
      have t1 := t0.rotated 1
      generalize u0.rotated 1 = u1 at t1 ⊢
      rcases hlev u1 t1 2 with ⟨p2, e2⟩ | ⟨d, cy', pool, e, hw, g⟩
      · rw [e2]
        have t2 := t1.rotated 2
        generalize u1.rotated 2 = u2 at t2 ⊢
        rcases hlev u2 t2 3 with ⟨p3, _⟩ | ⟨d, cy', pool, e, hw, g⟩
        · exact (taken_lone hcy hfr t0 t1 t2 hg p1 p2 p3).elim
        · exact ⟨d, cy', pool, e, hw, g⟩
      · rw [e, level_done g]; exact ⟨_, cy', pool, rfl, hw, g.rotated 3⟩
    · rw [e, level_done g, level_done (g.rotated 2)]; exact ⟨_, cy', pool, rfl, hw, (g.rotated 2).rotated 3⟩
  · rw [e, level_done g, level_done (g.rotated 1), level_done ((g.rotated 1).rotated 2)]
    exact ⟨_, cy', pool, rfl, hw, ((g.rotated 1).rotated 2).rotated 3⟩

/-- The cycle then runs step 4 of the request as the grant leaves it, and the grants of source 17. -/
theorem h2Cycle_lone (s : State) (r : Req) (h : Lone s.freshCycle s.freshCycle.freedSlots r)
    (hf : s.freshCycle.dev.now < s.freshCycle.ctl.water.filled) (hg : s.freshCycle.green r = true ∨ 0 < s.freshCycle.ctl.water.cap) :
    ∃ d pool freed, GrantedFrom s.freshCycle r pool d
      ∧ s.h2Cycle = (jobGrants freed 4 (d.step4 (s.freshCycle.grantedReq r pool))).noteSlots := by
  obtain ⟨d, cy, pool, e, hw, g⟩ := h2Grants_lone s.freshCycle r h hf hg
  have hr : d.req r.id = some (s.freshCycle.grantedReq r pool) := by
    unfold req; rw [g.path]
    simp [grantedReq]
  refine ⟨d, pool, (d.step4 (s.freshCycle.grantedReq r pool)).slots.foldl List.erase (d.slots ++ cy.freed), g, ?_⟩
  unfold h2Cycle
  rw [e]
  simp only [hw, each, List.foldl_cons, List.foldl_nil, hr]

/-- Where H2 has not arbitrated in this cycle, it does so now. -/
theorem freshCycle_same (s : State) (h : s.ctl.water.ranAt ≠ s.dev.now + 1) :
    s.freshCycle = { s with ctl := { s.ctl with water := { s.ctl.water with ranAt := s.dev.now + 1 } } } := by
  unfold freshCycle; rw [if_neg h]

/-- With no job, source 17 is granted nothing. -/
theorem jobGrants_nil (s : State) (freed : List (Nat × Bool)) (n : Nat) (h : s.tide.jobs = []) : jobGrants freed n s = s := by
  cases n with
  | zero => rfl
  | succ n => unfold jobGrants nextJob; simp [h]

end Sys2Proof.Machine.State
end

