-- ==== Sys2Proof/Laws/Link.lean ====
section
/-! SUPPORT. What the link layer's shared operations do. -/

namespace Sys2Proof.Machine.State

theorem updPort_ports' (s : State) (p : Fin 16) (f : Port → Port) (q : Fin 16) :
    (s.updPort p f).ports[q.val] = if q = p then f s.ports[p.val] else s.ports[q.val] := updPort_ports s p f q

theorem updPort_updPort (s : State) (p : Fin 16) (f g : Port → Port) : (s.updPort p f).updPort p g = s.updPort p (fun x => g (f x)) := by
  simp [updPort]

@[simp] theorem updPort_num (s : State) (p : Fin 16) (f : Port → Port) (k : Nat) : (s.updPort p f).num k = s.num k := rfl

@[simp] theorem emit_num (s : State) (o : Out) (k : Nat) : (s.emit o).num k = s.num k := rfl

theorem setWidth_changes (s : State) (p : Fin 16) (w : Nat) (h : Half) :
   s.changesOnly (s.setWidth p w h) [.objs, .ports, .aon, .mgmt, .out] := by
  unfold setWidth; dsimp only; split <;> (try split) <;> (intro x hx; cases x <;> first | (exfalso; revert hx; decide) | rfl | (simp [Part.same]; done))

theorem setWidth_ports (s : State) (p : Fin 16) (w : Nat) (h : Half) (q : Fin 16) :
   (s.setWidth p w h).ports[q.val] = if q = p then { s.ports[p.val] with width := w, half := h, halfRate := if w = 0 then s.ports[p.val].halfRate else w == 8 } else s.ports[q.val] := by
  unfold setWidth; dsimp only; split <;> (try split) <;> simp [updPort_ports']

theorem setWidth_out (s : State) (p : Fin 16) (w : Nat) (h : Half) : ∃ xs, (s.setWidth p w h).out = s.out ++ xs := by
  unfold setWidth; dsimp only; split
  · exact ⟨[], by simp⟩
  · split
    · exact ⟨_, by simp; rfl⟩
    · exact ⟨_, by simp; rfl⟩

theorem sendCtl_ctlOut (s : State) (p q : Fin 16) (c d : Ctl) : (s.sendCtl p c).ctlOut q d = s.ctlOut q d := rfl

theorem eachCtl_out (s : State) (p : Fin 16) (cs : List Ctl) : (s.each cs (fun s c => s.sendCtl p c)).out = s.out ++ cs.map (s.ctlOut p) := by
  induction cs generalizing s with
  | nil => simp
  | cons c cs ih =>
    rw [each_cons, ih]
    have : (s.sendCtl p c).ctlOut p = s.ctlOut p := funext (fun d => sendCtl_ctlOut s p p c d)
    rw [this]; simp [sendCtl, emit]

theorem eachCtl_changes (s : State) (p : Fin 16) (cs : List Ctl) : s.changesOnly (s.each cs (fun s c => s.sendCtl p c)) [.out] :=
  each_changes (fun s c => emit_changes s (s.ctlOut p c)) cs s

@[simp] theorem eachCtl_ports (s : State) (p : Fin 16) (cs : List Ctl) : (s.each cs (fun s c => s.sendCtl p c)).ports = s.ports := eachCtl_changes s p cs .ports (by simp)

theorem setNum_changes' (s : State) (k v : Nat) {ps} (h : Part.objs ∈ ps) : s.changesOnly (s.setNum k v) ps := changesOnly_mono (setNum_changes s k v) (by simp [h])

end Sys2Proof.Machine.State
end

