-- ==== Sys2Proof/Laws/Write.lean ====
section
/-! SUPPORT. What an admitted dictionary write does. -/

namespace Sys2Proof.Machine.State

variable (s : State) (w : Who)

@[simp] theorem updSess_dict_only (f : DSess → DSess) : (s.updSess w f).objs = s.objs := rfl

theorem counted_dev : (s.counted w).dev = s.dev := by unfold counted; dsimp only; (repeat' split) <;> simp

theorem counted_ctl : (s.counted w).ctl = s.ctl := by unfold counted; dsimp only; (repeat' split) <;> simp

theorem counted_mgmt : (s.counted w).mgmt = s.mgmt := by unfold counted; dsimp only; (repeat' split) <;> simp

/-- Counting a request changes the request counters alone. -/
theorem counted_num (k : Nat) (h : k / 256 ≠ 0x1104 ∧ k ≠ Obj.t1sFramesRx) : (s.counted w).num k = s.num k := by
  have h1 : k ≠ Obj.requests (pathNum w.path - 1) := by
    intro e; apply h.1; subst e; unfold Obj.requests okey
    cases w.path <;> simp [pathNum]
  unfold counted; dsimp only; (repeat' split) <;> simp [num_bump, h1, h.2]

/-- An admitted write performs its object's effect in the state that counts it. -/
theorem write_admitted (key : Nat) (r : ORow) (v : List Byte)
    (hr : objRow (key / 256) (key % 256) = some r) (h : s.admits w key r v = true) :
    s.write w key v = performWrite applyWrite (s.taken w) (askWrite w key v) key r v := by
  have hk : okey (key / 256) (key % 256) = key := Nat.div_add_mod' key 256
  simp only [admits, served, Bool.and_eq_true, bne_iff_ne, ne_eq, Bool.not_eq_true'] at h
  obtain ⟨⟨⟨⟨⟨⟨⟨⟨⟨⟨⟨⟨⟨d1, d2⟩, d3⟩, d4⟩, hb⟩, hc⟩, hp⟩, ha⟩, a1⟩, a2⟩, a3⟩, hty⟩, _⟩, _⟩ := h
  have hsv : s.write w key v = serve readObj applyWrite s (askWrite w key v) := by
    simp only [write, ask, takeAsk, askWrite, d1, d2, d3, or_self, if_false]
    revert hp; cases w.path with
    | t1s => intro _; rfl
    | window => intro hp; simp at hp; simp [hp.2]
    | link p => intro hp; simp at hp
  have hrun : (s.counted w).coreRuns 2 = true := by
    rw [← hc]; unfold coreRuns
    rw [counted_num s w _ (by decide)]
  rw [hsv]
  have hl : pathNum w.path ≠ 3 := by
    revert hp; cases w.path <;> simp [pathNum]
  simp only [askWrite] at ha ⊢
  unfold serve
  have hcount : (if w.path = Path.t1s then
      (if w.path = Path.window ∧ w.peer ≠ 0 then s else s.bump (Obj.requests (pathNum w.path - 1))).bump Obj.t1sFramesRx
      else (if w.path = Path.window ∧ w.peer ≠ 0 then s else s.bump (Obj.requests (pathNum w.path - 1)))) = s.counted w := rfl
  simp only [hcount, hb, hrun, hl, Bool.not_false, Bool.not_true, Bool.and_false, Bool.false_and, Bool.false_eq_true, if_false]
  revert ha
  cases hau : (s.counted w).authOf ⟨w, 1, 2, key / 256, key % 256, 1, 0, v.length, 0, v⟩ <;> intro ha <;> simp at ha
  rename_i a
  simp only [show ¬ (1 : Nat) ≠ 1 by decide, show ¬ (2 : Nat) = 0 by decide, show ¬ 6 < 2 by decide, show ¬ 2 ≤ 1 by decide,
    show ¬ (0 : Nat) ≠ 0 by decide, or_self, if_false, show (2 : Nat) ≠ 6 by decide, show (2 : Nat) ≠ 3 by decide]
  simp only [false_and, if_false, show (2 : Nat) ≠ 4 by decide, show (2 : Nat) ≠ 5 by decide]
  have ht : (s.counted w).updSess w (fun x => { taking x w.reqId with since := (s.counted w).dev.now }) = s.taken w := by
    rw [counted_dev]; rfl
  rw [ht]
  have e1 : (s.taken w).dev = s.dev := counted_dev s w
  have e2 : (s.taken w).ctl = s.ctl := counted_ctl s w
  have e3 : (s.taken w).num Obj.ownerLock = s.num Obj.ownerLock := counted_num s w _ (by decide)
  have e4 : (s.taken w).groupLocked (key / 256) = s.groupLocked (key / 256) := by unfold groupLocked region; rw [e2]
  have b1 : ¬ (r.acc = .ro ∨ r.acc = .const ∨ a < r.wa) := by
    rintro (h | h | h)
    · exact a1 h
    · exact a2 h
    · omega
  have b2 : ¬ (s.num Obj.ownerLock = 1 ∧ r.store = true ∧ a < 3) := by
    rintro ⟨h1, h2, h3⟩
    rcases ha.2 with h | h | h
    · exact h h1
    · simp [h] at h2
    · omega
  have b3 : ¬ (r.acc = .rwl ∧ s.groupLocked (key / 256) = true) := by
    rintro ⟨h1, h2⟩; simp [h1, h2] at a3
  simp only [serveObj, hr, hk, show (2 : Nat) ≠ 1 by decide, if_false, serveWrite, e1, e3, e4, d4, b1, b2, b3, false_and, hty, if_true,
    ne_eq, not_true_eq_false, show ¬ (1 % 2 = 0) by decide, or_self]

/-- An admitted write that its object takes at once answers with success. -/
theorem write_ok (key : Nat) (r : ORow) (v : List Byte) (hr : objRow (key / 256) (key % 256) = some r)
    (h : s.admits w key r v = true) (t : State) (ht : applyWrite (s.taken w) ⟨w, key⟩ r v = (.now .ok 0, t)) :
    s.write w key v = t.granted w key r v := by
  rw [write_admitted s w key r v hr h]
  simp only [admits, served, Bool.and_eq_true] at h
  have hf : formOk key r v = true := h.1.2
  have hg : rangeOk r v = true := h.2
  have hw : (askWrite w key v).who = w := rfl
  simp only [performWrite, hf, hg, Bool.not_true, Bool.false_eq_true, if_false, hw, ht, if_true]
  rfl

/-- A request that comes from the host's window or from a T1S node. -/
def outside (w : Who) : Bool := match w.path with | .link _ => false | .window => w.peer == 0 | .t1s => true

theorem admits_outside (key : Nat) (r : ORow) (v : List Byte) (h : s.admits w key r v = true) : outside w = true := by
  simp only [admits, served, Bool.and_eq_true] at h
  have hp := h.1.1.1.1.1.1.1.2
  unfold outside
  revert hp; cases w.path <;> simp
  intro h _; exact h

theorem change_eq (key : Nat) (r : ORow) (v : List Byte) : ∃ d, s.change key r v = s.setDict d := by
  unfold change; split
  · exact ⟨_, rfl⟩
  · exact ⟨s.mgmt.dict, rfl⟩

/-- Everything that an answer to a request from outside changes: the dictionary server, the count of frames sent and the outputs. -/
theorem granted_eq (key : Nat) (r : ORow) (v : List Byte) (hw : outside w = true) :
    ∃ d n o, s.granted w key r v = { s with mgmt := { s.mgmt with dict := d }, out := o
                                            objs := { s.objs with vals := if w.path = .t1s then FMap.put s.objs.vals Obj.t1sFramesTx n else s.objs.vals } } := by
  obtain ⟨d, hd⟩ := change_eq s key r v
  unfold granted
  rw [hd]
  unfold outside at hw
  obtain ⟨path, req, sess, mac, tag, peer⟩ := w
  cases path with
  | t1s => exact ⟨_, _, _, rfl⟩
  | window =>
    simp at hw; subst hw
    exact ⟨_, 0, _, rfl⟩
  | link p => simp at hw

theorem granted_num (key : Nat) (r : ORow) (v : List Byte) (hw : outside w = true) (k : Nat) (hk : k ≠ Obj.t1sFramesTx) :
    (s.granted w key r v).num k = s.num k := by
  obtain ⟨d, n, o, h⟩ := granted_eq s w key r v hw
  rw [h]
  by_cases hp : w.path = .t1s
  · simp only [hp, if_true]
    exact num_setNum_ne s n hk
  · simp only [hp, if_false]; rfl

theorem granted_pending (key : Nat) (r : ORow) (v : List Byte) (hw : outside w = true) : (s.granted w key r v).pending = s.pending := by
  obtain ⟨d, n, o, h⟩ := granted_eq s w key r v hw; rw [h]

theorem granted_dev (key : Nat) (r : ORow) (v : List Byte) (hw : outside w = true) : (s.granted w key r v).dev = s.dev := by
  obtain ⟨d, n, o, h⟩ := granted_eq s w key r v hw; rw [h]

theorem granted_ports (key : Nat) (r : ORow) (v : List Byte) (hw : outside w = true) : (s.granted w key r v).ports = s.ports := by
  obtain ⟨d, n, o, h⟩ := granted_eq s w key r v hw; rw [h]

theorem granted_path (key : Nat) (r : ORow) (v : List Byte) (hw : outside w = true) : (s.granted w key r v).path = s.path := by
  obtain ⟨d, n, o, h⟩ := granted_eq s w key r v hw; rw [h]

theorem granted_dir (key : Nat) (r : ORow) (v : List Byte) (hw : outside w = true) : (s.granted w key r v).dir = s.dir := by
  obtain ⟨d, n, o, h⟩ := granted_eq s w key r v hw; rw [h]

theorem granted_tide (key : Nat) (r : ORow) (v : List Byte) (hw : outside w = true) : (s.granted w key r v).tide = s.tide := by
  obtain ⟨d, n, o, h⟩ := granted_eq s w key r v hw; rw [h]

theorem granted_dram (key : Nat) (r : ORow) (v : List Byte) (hw : outside w = true) : (s.granted w key r v).dram = s.dram := by
  obtain ⟨d, n, o, h⟩ := granted_eq s w key r v hw; rw [h]

theorem granted_ctl (key : Nat) (r : ORow) (v : List Byte) (hw : outside w = true) : (s.granted w key r v).ctl = s.ctl := by
  obtain ⟨d, n, o, h⟩ := granted_eq s w key r v hw; rw [h]

theorem granted_ep (key : Nat) (r : ORow) (v : List Byte) (hw : outside w = true) : (s.granted w key r v).ep = s.ep := by
  obtain ⟨d, n, o, h⟩ := granted_eq s w key r v hw; rw [h]

theorem granted_aon (key : Nat) (r : ORow) (v : List Byte) (hw : outside w = true) : (s.granted w key r v).aon = s.aon := by
  obtain ⟨d, n, o, h⟩ := granted_eq s w key r v hw; rw [h]

theorem granted_flash (key : Nat) (r : ORow) (v : List Byte) (hw : outside w = true) : (s.granted w key r v).flash = s.flash := by
  obtain ⟨d, n, o, h⟩ := granted_eq s w key r v hw; rw [h]

theorem taken_num (k : Nat) (h : k / 256 ≠ 0x1104 ∧ k ≠ Obj.t1sFramesRx) : (s.taken w).num k = s.num k := counted_num s w k h

theorem taken_dev : (s.taken w).dev = s.dev := counted_dev s w

theorem taken_ctl : (s.taken w).ctl = s.ctl := counted_ctl s w

theorem taken_pending : (s.taken w).pending = s.pending := by
  unfold taken counted updSess; dsimp only; (repeat' split) <;> simp

theorem taken_ports : (s.taken w).ports = s.ports := by
  unfold taken counted updSess; dsimp only; (repeat' split) <;> simp

theorem taken_path : (s.taken w).path = s.path := by
  unfold taken counted updSess; dsimp only; (repeat' split) <;> simp

theorem taken_dir : (s.taken w).dir = s.dir := by
  unfold taken counted updSess; dsimp only; (repeat' split) <;> simp

theorem taken_tide : (s.taken w).tide = s.tide := by
  unfold taken counted updSess; dsimp only; (repeat' split) <;> simp

theorem taken_dram : (s.taken w).dram = s.dram := by
  unfold taken counted updSess; dsimp only; (repeat' split) <;> simp

theorem taken_ep : (s.taken w).ep = s.ep := by
  unfold taken counted updSess; dsimp only; (repeat' split) <;> simp

theorem taken_aon : (s.taken w).aon = s.aon := by
  unfold taken counted updSess; dsimp only; (repeat' split) <;> simp

theorem taken_flash : (s.taken w).flash = s.flash := by
  unfold taken counted updSess; dsimp only; (repeat' split) <;> simp

theorem taken_out : (s.taken w).out = s.out := by
  unfold taken counted updSess; dsimp only; (repeat' split) <;> simp

theorem taken_changes : s.changesOnly (s.taken w) [.objs, .mgmt] := by
  intro x hx
  cases x <;> first
    | (exfalso; revert hx; decide)
    | exact taken_pending s w | exact taken_dev s w | exact taken_ports s w | exact taken_path s w | exact taken_dir s w
    | exact taken_tide s w | exact taken_dram s w | exact taken_ctl s w | exact taken_ep s w | exact taken_aon s w
    | exact taken_flash s w | exact taken_out s w

theorem granted_changes (key : Nat) (r : ORow) (v : List Byte) (hw : outside w = true) :
    s.changesOnly (s.granted w key r v) [.objs, .mgmt, .out] := by
  obtain ⟨d, n, o, h⟩ := granted_eq s w key r v hw
  rw [h]
  intro x hx; cases x <;> first | (exfalso; revert hx; decide) | rfl

/-- The answer is the last output. -/
theorem granted_out (key : Nat) (r : ORow) (v : List Byte) (hw : outside w = true) :
    ∃ tail, (s.granted w key r v).out
      = s.out ++ [.dictReply (pathNum w.path) w.peer (replyBody 2 w.reqId.toNat .ok 0 r.ty.code 0 [] 0 ++ tail)] := by
  obtain ⟨d, hd⟩ := change_eq s key r v
  unfold granted
  rw [hd]
  have ho : (s.setDict d).out = s.out := rfl
  generalize s.setDict d = q at ho
  unfold outside at hw
  obtain ⟨path, req, sess, mac, tag, peer⟩ := w
  cases path with
  | t1s =>
    unfold reply
    simp only [pathNum]
    cases hx : q.dsess ⟨.t1s, req, sess, mac, tag, peer⟩ with
    | none => exact ⟨[], by simp [hx, emit, setDict, bump, updSess, ho]⟩
    | some y =>
      cases ht : tagged y
      · exact ⟨[], by simp [hx, ht, emit, setDict, bump, updSess, ho]⟩
      · exact ⟨_, by simp [hx, ht, emit, setDict, bump, updSess, ho]; rfl⟩
  | window =>
    simp at hw; subst hw
    exact ⟨[], by simp [reply, pathNum, emit, setDict, ho]⟩
  | link p => simp at hw

theorem granted_mgmt (key : Nat) (r : ORow) (v : List Byte) (hw : outside w = true) :
    (s.granted w key r v).mgmt = { s.mgmt with dict := (s.granted w key r v).mgmt.dict } := by
  obtain ⟨d, n, o, h⟩ := granted_eq s w key r v hw
  rw [h]

theorem taken_mgmt : (s.taken w).mgmt = { s.mgmt with dict := (s.taken w).mgmt.dict } := by
  unfold taken updSess setDict; simp only [counted_mgmt]

theorem askObj_num (k : Nat) (h : askObj k = false) : (s.taken w).num k = s.num k := by
  unfold askObj at h; simp only [Bool.or_eq_false_iff, beq_eq_false_iff_ne] at h
  exact taken_num s w k ⟨h.1.1, h.1.2⟩

/-- What a write does to a stored number apart from the dictionary server: the object's effect on the state that counts it. -/
theorem granted_taken_num (t : State) (key : Nat) (r : ORow) (v : List Byte) (hw : outside w = true) (k : Nat) (h : askObj k = false) :
    (t.granted w key r v).num k = t.num k :=
  granted_num t w key r v hw k (by unfold askObj at h; simp only [Bool.or_eq_false_iff, beq_eq_false_iff_ne] at h; exact h.2)

/-! ## Which group's rules a write follows -/

theorem apply_port (key : Nat) (r : ORow) (v : List Byte) (hn : isNotice (key / 256) = false) (h1 : 0x2000 ≤ key / 256) (h2 : key / 256 < 0x2400) :
    applyWrite s ⟨w, key⟩ r v = s.portWrite (Fin.ofNat 16 ((key / 256 - 0x2000) / 64)) key (stored r v) := by
  unfold applyWrite; simp only [hn, Bool.false_eq_true, if_false]
  repeat (first | rw [if_pos (by omega)] | rw [if_neg (by omega)])

theorem apply_ep (key : Nat) (r : ORow) (v : List Byte) (hn : isNotice (key / 256) = false) (h1 : 0x2800 ≤ key / 256) (h2 : key / 256 < 0x2900) :
    applyWrite s ⟨w, key⟩ r v = s.epObjWrite key (stored r v) := by
  unfold applyWrite; simp only [hn, Bool.false_eq_true, if_false]
  repeat (first | rw [if_pos (by omega)] | rw [if_neg (by omega)])

theorem apply_tide (key : Nat) (r : ORow) (v : List Byte) (hn : isNotice (key / 256) = false) (h1 : 0x3000 ≤ key / 256) (h2 : key / 256 < 0x3800) :
    applyWrite s ⟨w, key⟩ r v = s.tideWrite w key (stored r v) r v := by
  unfold applyWrite; simp only [hn, Bool.false_eq_true, if_false]
  repeat (first | rw [if_pos (by omega)] | rw [if_neg (by omega)])

theorem apply_dram (key : Nat) (r : ORow) (v : List Byte) (hn : isNotice (key / 256) = false) (h1 : 0x3800 ≤ key / 256) (h2 : key / 256 < 0x4000) :
    applyWrite s ⟨w, key⟩ r v = s.dramObjWrite key (stored r v) := by
  unfold applyWrite; simp only [hn, Bool.false_eq_true, if_false]
  repeat (first | rw [if_pos (by omega)] | rw [if_neg (by omega)])

theorem apply_region (key : Nat) (r : ORow) (v : List Byte) (hn : isNotice (key / 256) = false) (h1 : 0x4000 ≤ key / 256) (h2 : key / 256 < 0x6000) :
    applyWrite s ⟨w, key⟩ r v = s.regionObjWrite w key (stored r v) := by
  unfold applyWrite; simp only [hn, Bool.false_eq_true, if_false]
  repeat (first | rw [if_pos (by omega)] | rw [if_neg (by omega)])

theorem apply_ctl (key : Nat) (r : ORow) (v : List Byte) (hn : isNotice (key / 256) = false) (h1 : 0x6000 ≤ key / 256) (h2 : key / 256 < 0x8000) :
    applyWrite s ⟨w, key⟩ r v = s.ctlObjWrite w key (stored r v) := by
  unfold applyWrite; simp only [hn, Bool.false_eq_true, if_false]
  repeat (first | rw [if_pos (by omega)] | rw [if_neg (by omega)])

theorem apply_guard (key : Nat) (r : ORow) (v : List Byte) (hn : isNotice (key / 256) = false) (h1 : 0x8000 ≤ key / 256) (h2 : key / 256 < 0xA000) :
    applyWrite s ⟨w, key⟩ r v = s.guardObjWrite key (stored r v) := by
  unfold applyWrite; simp only [hn, Bool.false_eq_true, if_false]
  repeat (first | rw [if_pos (by omega)] | rw [if_neg (by omega)])

theorem apply_gauge (key : Nat) (r : ORow) (v : List Byte) (hn : isNotice (key / 256) = false) (h1 : 0xC000 ≤ key / 256) (h2 : key / 256 < 0xD000) :
    applyWrite s ⟨w, key⟩ r v = s.gaugeObjWrite key (stored r v) := by
  unfold applyWrite; simp only [hn, Bool.false_eq_true, if_false]
  repeat (first | rw [if_pos (by omega)] | rw [if_neg (by omega)])

theorem apply_mgmt (key : Nat) (r : ORow) (v : List Byte) (hn : isNotice (key / 256) = false)
    (h : key / 256 < 0x2000 ∨ (0x2400 ≤ key / 256 ∧ key / 256 < 0x2800) ∨ (0x2900 ≤ key / 256 ∧ key / 256 < 0x3000)
      ∨ (0xA000 ≤ key / 256 ∧ key / 256 < 0xC000) ∨ 0xD000 ≤ key / 256) :
    applyWrite s ⟨w, key⟩ r v = s.mgmtObjWrite ⟨w, key⟩ r v := by
  unfold applyWrite; simp only [hn, Bool.false_eq_true, if_false]
  repeat rw [if_neg (by omega)]

theorem apply_notice (key : Nat) (r : ORow) (v : List Byte) (hn : isNotice (key / 256) = true) :
    applyWrite s ⟨w, key⟩ r v = s.noticeWrite (key / 256) (key % 256) (stored r v) := by
  unfold applyWrite; simp only [hn, if_true]

/-! ## From a write row to what it leaves -/

theorem leNat_leBytes (n v : Nat) (h : v < 256 ^ n) : leNat (leBytes n v) = v := by
  induction n generalizing v with
  | zero => simp at h; subst h; rfl
  | succ n ih =>
    simp only [leBytes, leNat]
    rw [ih _ (by rw [Nat.pow_succ] at h; exact Nat.div_lt_of_lt_mul (by omega))]
    simp; omega

theorem leNat_leBytes8 (v : BitVec 64) : leNat (leBytes 8 v.toNat) = v.toNat := leNat_leBytes 8 _ (by have := v.isLt; omega)

theorem leNat_leBytes4 (v : BitVec 32) : leNat (leBytes 4 v.toNat) = v.toNat := leNat_leBytes 4 _ (by have := v.isLt; omega)

theorem leNat_leBytes2 (v : BitVec 16) : leNat (leBytes 2 v.toNat) = v.toNat := leNat_leBytes 2 _ (by have := v.isLt; omega)

theorem leNat_leBytes1 (v : BitVec 8) : leNat (leBytes 1 v.toNat) = v.toNat := leNat_leBytes 1 _ (by have := v.isLt; omega)
/-- The form of every write row's statement. -/
theorem write_leaves {c : Instr} {s : State} {w : Who} {key : Nat} {v : List Byte} {t : State} (e : exec c s = runOk true s (fun s => s.write w key v))
    (h : s.allows w key v)
    (ht : ∀ r, objRow (key / 256) (key % 256) = some r → applyWrite (s.taken w) ⟨w, key⟩ r v = (.now .ok 0, t)) :
    outside w = true ∧ ∃ r, Leaves c s (t.granted w key r v) := by
  obtain ⟨r, hr, ha⟩ := h
  refine ⟨admits_outside s w key r v ha, r, ?_⟩
  unfold Leaves; rw [e, runOk_true, ran_const]
  simp only [write_ok s w key r v hr ha t (ht r hr)]

theorem wr_out {s t : State} {w : Who} (key : Nat) (r : ORow) (v : List Byte) (hw : outside w = true) (evs : List Out) (h : t.out = s.out ++ evs) :
    s.replied (t.granted w key r v) w .ok evs := by
  obtain ⟨tail, e⟩ := granted_out t w key r v hw
  exact ⟨0, r.ty.code, tail, by rw [e, h]⟩

theorem wr_changes {s t : State} {w : Who} (key : Nat) (r : ORow) (v : List Byte) (hw : outside w = true) (ps : List Part)
    (h : (s.taken w).changesOnly t ps) (h1 : Part.objs ∈ ps) (h2 : Part.mgmt ∈ ps) (h3 : Part.out ∈ ps) :
    s.changesOnly (t.granted w key r v) ps :=
  changesOnly_trans (changesOnly_mono (taken_changes s w) (by simp [h1, h2]))
    (changesOnly_trans h (changesOnly_mono (granted_changes t w key r v hw) (by simp [h1, h2, h3])))

theorem wr_keeps {s t : State} {w : Who} (key : Nat) (r : ORow) (v : List Byte) (hw : outside w = true) (ks : List Nat)
    (h : ∀ k, k ∉ ks → askObj k = false → t.num k = (s.taken w).num k) : s.keepsObjs (t.granted w key r v) ks := by
  intro k hk ha
  rw [granted_taken_num w t key r v hw k ha, h k hk ha, askObj_num s w k ha]

theorem stores_of {c : Instr} {s : State} {w : Who} {key : Nat} {v : List Byte} {n : Nat} (e : exec c s = runOk true s (fun s => s.write w key v))
    (hk : askObj key = false)
    (ht : ∀ r, objRow (key / 256) (key % 256) = some r → applyWrite (s.taken w) ⟨w, key⟩ r v = (.now .ok 0, (s.taken w).setNum key n)) :
    s.stores c w key v n := by
  intro h
  obtain ⟨hw, r, hl⟩ := write_leaves e h ht
  refine ⟨_, hl, ?_, ?_, ?_, ?_, ?_⟩
  · rw [granted_taken_num w _ key r v hw key hk]; exact num_setNum_self ..
  · exact wr_keeps key r v hw _ (fun k hk ha => num_setNum_ne _ _ (by simpa using hk))
  · exact wr_changes key r v hw _ (changesOnly_mono (setNum_changes _ _ _) (by simp)) (by simp) (by simp) (by simp)
  · rw [granted_mgmt _ w key r v hw]; rw [setNum_mgmt, taken_mgmt]
  · exact wr_out key r v hw [] (by rw [setNum_out, taken_out]; simp)



end Sys2Proof.Machine.State
end

