-- ==== Sys2Proof/Laws/Records.lean ====
section
/-! SUPPORT. The records of the near tier's metadata areas pass their own checks. -/

namespace Sys2Proof.Machine

theorem leBytes_length (n v : Nat) : (leBytes n v).length = n := by
  induction n generalizing v with
  | zero => rfl
  | succ n ih => simp [leBytes, ih]

/-- Bytes with their CRC behind them pass the check of a record (R227, R345). -/
theorem recordOk_crc (f : List Byte) (h : f.length = 28) : recordOk (f ++ leBytes 4 (crc32c f).toNat) = true := by
  have hl : (leBytes 4 (crc32c f).toNat).length = 4 := leBytes_length _ _
  have hd : slice (f ++ leBytes 4 (crc32c f).toNat) 28 4 = leBytes 4 (crc32c f).toNat := by
    unfold slice
    rw [← h, List.drop_left, List.take_of_length_le (by omega)]
    simp [hl]
  have ht : (f ++ leBytes 4 (crc32c f).toNat).take 28 = f := by rw [← h, List.take_left]
  unfold recordOk
  rw [hd, ht, State.leNat_leBytes4]
  simp

/-- A tide map entry as it is written passes its check. -/
theorem TEntry.bytes_ok (e : TEntry) : recordOk e.bytes = true := recordOk_crc _ (leBytes_length _ _)

/-- A backing record as it is written passes its check. -/
theorem DEntry.record_ok (l : Nat) (e : DEntry) : recordOk (e.record l) = true := recordOk_crc _ (leBytes_length _ _)

end Sys2Proof.Machine
end

