-- ==== Sys2Proof/Machine/Clocks.lean ====
section
/-! DEFINITION. The gated clock domains and when each is gated (R19–R22, R598). -/

namespace Sys2Proof.Machine

/-- The gated clock domains of Table 01-3: H0–H11, PDk.a and PDk.b by their port, MDk.c, MDk.n and MDk.f, M0–M3, E0–E2 and AON. -/
inductive Domain where
  | hub (i : Fin 12)
  | port (p : Fin 16)
  | codec (k : Fin 8)
  | near (k : Fin 8)
  | far (k : Fin 8)
  | core (c : Fin 4)
  | endpoint (i : Fin 3)
  | aon
  deriving DecidableEq, Repr

/-- Every domain (R19). -/
def Domain.all : List Domain :=
  (List.finRange 12).map .hub ++ (List.finRange 16).map .port ++ (List.finRange 8).map .codec ++ (List.finRange 8).map .near
    ++ (List.finRange 8).map .far ++ (List.finRange 4).map .core ++ (List.finRange 3).map .endpoint ++ [.aon]

namespace State

/-- Whether a stack or far channel, as `State.unit` numbers them, is empty or fenced. -/
def unitIdle (s : State) (u : Nat) : Bool := (s.unit u).st == .empty || (s.unit u).st == .fenced

/-- Whether the three far channels of a memory die are empty or fenced. -/
def farIdle (s : State) (k : Fin 8) : Bool := (List.range 3).all (fun i => s.unitIdle (8 + 3 * k.val + i))

/-- Whether a domain is gated while main power is present. The device gates each domain wherever R21 lets it (DESIGN CHOICE, log 120):
a port that is not trained nor training, memory that is empty or fenced, a core held in reset, the endpoint's domains in D3cold
(R598), and H9 while no counter and no trace point is enabled. -/
def gated (s : State) : Domain → Bool
  | .hub i => i.val == 9 && s.mgmt.gauge.on.isEmpty && (List.range 9).all (fun j => !bit (s.num (Obj.tpControl j)) 0)
    && s.mgmt.gauge.staged.isEmpty && s.mgmt.gauge.late.isEmpty && s.mgmt.gauge.adds.isEmpty
  | .port p => match s.ports[p].state with
    | .down => true | .fenced => true | .disabled => true
    | .training => false | .up => false | .recovering => false
  | .codec k => s.unitIdle k.val && s.farIdle k
  | .near k => s.unitIdle k.val
  | .far k => s.farIdle k
  | .core c => s.num (Obj.coreState c) == 0
  | .endpoint _ => s.ep.dState == 4
  | .aon => false

end State

end Sys2Proof.Machine
end

