-- ==== Sys2Proof/Tests/Setup.lean ====
section
/-! SUPPORT. Small states for the tests, and the decision procedures of the hypotheses. -/

namespace Sys2Proof.Tests

open Sys2Proof.Machine

def withNums (s : State) (xs : List (Nat × Nat)) : State := xs.foldl (fun s x => s.setNum x.1 x.2) s
def sv : State :=
  let s : State := { State.reset with
    dev := { State.reset.dev with state := .service, now := 8000000, serial := 100 }
    ctl := { State.reset.ctl with water := { State.reset.ctl.water with filled := 8000001 } }
    dram := { State.reset.dram with units := (List.range 32).map (fun u => (u, { DUnitSt.untrained with st := .inService })) } }
  withNums s [(Obj.coreState 0, 2), (Obj.coreState 1, 2), (Obj.coreState 2, 2), (Obj.coreState 3, 2), (Obj.nearFillState, 2)]
def w0 : Who := ⟨.window, 0, 7, [], 0, 0⟩
def upPort : Port := { Port.reset with state := .up, width := 16, node := 9, adv := ⟨512, 512, 64, 256⟩, credit := ⟨512, 512, 64, 256⟩ }
def withPort (s : State) (p : Fin 16) (x : Port) : State := s.updPort p (fun _ => x)
def svUp : State := withPort sv 3 upPort
def allowsB (s : State) (w : Who) (key : Nat) (v : List Byte) : Bool :=
  match objRow (key / 256) (key % 256) with
  | some r => s.admits w key r v
  | none => false
theorem allows_iff (s : State) (w : Who) (key : Nat) (v : List Byte) : s.allows w key v ↔ allowsB s w key v = true := by
  unfold State.allows allowsB
  cases objRow (key / 256) (key % 256) <;> simp
def blobB (s : State) (w : Who) (key : Nat) (v : List Byte) : Bool :=
  match objRow (key / 256) (key % 256) with
  | some r => s.served w key r v && r.ty.bytes.isNone && State.formOk key r v && State.rangeOk r v
  | none => false
theorem blob_iff (s : State) (w : Who) (key : Nat) (v : List Byte) : s.allowsBlob w key v ↔ blobB s w key v = true := by
  unfold State.allowsBlob blobB
  cases objRow (key / 256) (key % 256) <;> simp [and_assoc]

@[reducible] def decAllows (s : State) (w : Who) (key : Nat) (v : List Byte) : Decidable (s.allows w key v) := decidable_of_iff _ (allows_iff s w key v).symm
@[reducible] def decBlob (s : State) (w : Who) (key : Nat) (v : List Byte) : Decidable (s.allowsBlob w key v) := decidable_of_iff _ (blob_iff s w key v).symm
@[reducible] def decReaches (s : State) (p : Fin 16) (h : Hdr) (op : ReqOp) (m : Mode) : Decidable (s.reaches p h op m) := by unfold State.reaches; infer_instance
@[reducible] def decTlp (s : State) (a : Nat) (op : ReqOp) (x : BitVec 8) (m : Mode) : Decidable (s.tlpReaches a op x m) := by unfold State.tlpReaches; infer_instance
theorem of_dec {P : Prop} (d : Decidable P) (h : d.decide = true) : P := of_decide_eq_true h

@[reducible] def decRange (lo hi : Nat) (Q : Nat → Prop) [∀ p, Decidable (Q p)] : Decidable (∀ p, lo ≤ p → p < hi → Q p) :=
  decidable_of_iff (∀ p < hi, lo ≤ p → Q p) ⟨fun h p a b => h p b a, fun h p b a => h p a b⟩

def P3 (x : Port) := withPort sv 3 x
def sf (n : BitVec 10) : SentFlit := ⟨n, 1, 2, List.replicate 31 7, [⟨.rsp, [7], some 3, none, false, none⟩], 0⟩
def h0 : Hdr := ⟨.port 3, 5, 1, 0, false, 0, 0, none⟩
def realm0 (s : State) : State := { s with ctl := { s.ctl with realms := [(0, 1)] } }
def rich (s : State) : State := { s with ctl := { s.ctl with water := { s.ctl.water with tokens := (List.range 1088).map (fun m => (m, 40000 * 65536)), cap := 40000 * 4096 } } }
def md (coh : Nat) : Mode := { Mode.none with tier := 0, coh := coh, cls := 1, mask := 0x1FFFF, base := 0, len := 2^20, atom := true, format := 1 }
def reg (m : Mode) : Region := { Region.free with st := .open, mode := m }
def rs (m : Mode) : State := let s := withNums (realm0 (rich svUp)) [(Obj.realmMask 0, 0x1FFFF)]; { s with ctl := { s.ctl with regions := [(3, reg m)] } }
def ha (attr : BitVec 8) (a : BitVec 64) : Hdr := ⟨.port 3, 5, 1, 0, false, attr, a, none⟩
def withCrc (b : List Byte) : List Byte := b ++ leBytes 4 (crc32c b).toNat
def hdrOf (kind len : Nat) : List Byte :=
  withCrc ([0x59, 0x55, 0x43, 0x4C, 1, BitVec.ofNat 8 kind, 0, 0] ++ slice (ascii "ATG-P9-12T") 0 16 ++ [0xB1, 0, 0, 0] ++ leBytes 4 len ++ leBytes 4 ((len + 32767) / 32768)
    ++ zeros 100 ++ leBytes 8 0x1122334455 ++ zeros 108)
def blkOf (no len : Nat) : List Byte := withCrc (leBytes 4 no ++ leBytes 4 24 ++ leBytes 4 (0x1122334455 % 2^32) ++ [1,0,0,0] ++ [3, 7] ++ leBytes 2 len)
def noRow : ORow := ⟨0, 0, .u8, .ro, 0, 0, 0, .imm, false, .any⟩
def rowOf (i j : Nat) : ORow := (objRow i j).getD noRow
def noLine : State.Line := ⟨0, 0, 0, .fence, 0, 0⟩

set_option maxRecDepth 100000 in
theorem default_classes : State.classFault ((List.range 64).map sv.stagedClass) = none := by decide +kernel

end Sys2Proof.Tests
end

