-- ==== Sys2Proof/Tests/Cores.lean ====
section
/-! SUPPORT. Witnesses: for each clause of the statements named, a state and operands that meet its hypotheses together. -/

namespace Sys2Proof.Tests.Cores

open Sys2Proof.Machine

set_option Elab.async false
set_option maxRecDepth 100000
set_option synthInstance.maxSize 100000
set_option synthInstance.maxHeartbeats 400000

def sens (t : Int) (p : Nat) : Sensors := ⟨t :: List.replicate 39 (-5000), List.replicate 8 40000, p⟩
def bv (x : Option Spd) : BootView := ⟨true, true, x :: List.replicate 47 none⟩
def bv2 : BootView := ⟨false, false, List.replicate 48 none⟩
def spdk : Spd := ⟨64, true, 1, true, true, 9, []⟩

theorem witness_CoresRestart :
    (let s : State := sv;
     let c : CoreId := .coreM;
     let n := State.coreNum c;
     let runs (n : Nat) : Prop := s.coreRuns n = true ∧ (n = 0 → s.updSt ≠ 5) ∧ (n = 3 → ∀ k < 32, (s.unit k).st ≠ .training);
     runs n ∧ FMap.find 0 s.mgmt.kicks n ≠ s.aonCycle + 1)
    ∧ (let s : State := sv;
     let c : CoreId := .coreM;
     let n := State.coreNum c;
     let runs (n : Nat) : Prop := s.coreRuns n = true ∧ (n = 0 → s.updSt ≠ 5) ∧ (n = 3 → ∀ k < 32, (s.unit k).st ≠ .training);
     runs n)
    ∧ (let s : State := { sv with mgmt := { sv.mgmt with kicks := [(1, 1000001)], restarts := [(0, 0), (0, 5), (0, 8), (2, 8)] } };
     let c : CoreId := .coreP;
     let n := State.coreNum c;
     FMap.find 0 s.mgmt.kicks n = s.aonCycle + 1)
    ∧ (let s : State := withNums sv [(Obj.coreState 0, 3), (Obj.coreState 1, 3), (Obj.coreState 3, 4)];
     let c : CoreId := .coreM;
     let n := State.coreNum c;
     s.num (Obj.coreState n) = 3 ∧ (n = 0 ∨ s.coreRuns 0 = true))
    ∧ (let s : State := withNums sv [(Obj.coreState 0, 3), (Obj.coreState 1, 3), (Obj.coreState 3, 4)];
     let w : Who := w0;
     let v : BitVec 8 := 3;
     w.ok = true ∧ v.toNat < 4 ∧ s.num (Obj.coreState v.toNat) = 4 ∧ s.allows w Obj.coreRestart (leBytes 1 v.toNat))
    ∧ (let s : State := sv;
     let w : Who := w0;
     let v : BitVec 8 := 0;
     w.ok = true ∧ v.toNat < 4 ∧ s.allows w Obj.lockstepInject (leBytes 1 v.toNat))
    ∧ (let s : State := { sv with mgmt := { sv.mgmt with inject := [(1, 2)] } };
     let c : CoreId := .coreM;
     let n := State.coreNum c;
     let recent (n : Nat) : Nat := (s.mgmt.restarts.filter (fun x => x.1 == n && decide (s.dev.now < x.2 + 60 * cyclesS))).length;
     let runs (n : Nat) : Prop := s.coreRuns n = true ∧ (n = 0 → s.updSt ≠ 5) ∧ (n = 3 → ∀ k < 32, (s.unit k).st ≠ .training);
     let w : Who := w0;
     let v : BitVec 8 := 1;
     let at_ : Nat := 2;
     w.ok = true ∧ v.toNat < 4 ∧ runs v.toNat ∧ recent v.toNat < 3 ∧ s.mgmt.inject = [(v.toNat, at_)] ∧ at_ ≠ s.dev.now) :=
  of_dec (by haveI := decAllows; haveI := decBlob; haveI := decReaches; haveI := decTlp; haveI := @decRange; infer_instance) (by decide +kernel)

theorem witness_LoopsBootAndLog :
    (let s : State := sv;
     let x : Sensors := sens 90000 500000;
     x.tj.length = 40 ∧ x.stackT.length = 8 ∧ s.coreRuns 1 = true ∧ s.mgmt.fallback ≠ s.aonCycle + 1)
    ∧ (let tj : List Int := List.replicate 40 90000;
     tj.length = 40 ∧ State.highest tj < 100000)
    ∧ (let s : State := withNums sv [(Obj.thermalCap, 120), (Obj.coreState 1, 4)];
     let tj : List Int := 100000 :: List.replicate 39 0;
     tj.length = 40 ∧ 100000 ≤ State.highest tj ∧ State.highest tj < 110000 ∧ s.coreRuns 1 = false)
    ∧ (let s : State := sv;
     let tj : List Int := 115000 :: List.replicate 39 0;
     tj.length = 40 ∧ 110000 ≤ State.highest tj ∧ (s.dev.state = .service ∨ s.dev.state = .degraded))
    ∧ (let s : State := withNums { sv with dev := { sv.dev with state := .boot } } [(Obj.vbatMv, 3000)];
     let x : BootView := bv2;
     x.dimms.length = 48 ∧ s.dev.state = .boot ∧ s.mgmt.power.boot = false ∧ (s.bootBank x).1 = none)
    ∧ (let s : State := withNums { sv with dev := { sv.dev with state := .boot }, mgmt := { sv.mgmt with power := { sv.mgmt.power with tamper := true } } } [(Obj.tamperAction, 1), (Obj.tamperState, 1)];
     let x : BootView := bv none;
     let i : Nat := 0;
     x.dimms.length = 48 ∧ s.dev.state = .boot ∧ s.mgmt.power.boot = false ∧ (s.bootBank x).1 = some i ∧ s.tamperLevel = true
       ∧ s.num Obj.tamperAction = 1)
    ∧ (let s : State := withNums { sv with dev := { sv.dev with state := .boot } } [(Obj.vbatMv, 3000)];
     let x : BootView := bv none;
     let i : Nat := 0;
     x.dimms.length = 48 ∧ s.dev.state = .boot ∧ s.mgmt.power.boot = false ∧ (s.bootBank x).1 = some i ∧ s.tamperLevel = false
       ∧ (∀ d ∈ x.dimms, ∀ y, d = some y → y.accepted = true))
    ∧ (let s : State := sv;
     let w : Who := w0;
     w.ok = true ∧ s.allows w Obj.backupLogClear (leBytes 1 0xA5)) :=
  of_dec (by haveI := decAllows; haveI := decBlob; haveI := decReaches; haveI := decTlp; haveI := @decRange; infer_instance) (by decide +kernel)

end Sys2Proof.Tests.Cores
end

