-- ==== Sys2Proof/Tests/Counts.lean ====
section
/-! SUPPORT. Witnesses: for each clause of the statements named, a state and operands that meet its hypotheses together. -/

namespace Sys2Proof.Tests.Counts

open Sys2Proof.Machine

set_option Elab.async false
set_option maxRecDepth 100000
set_option synthInstance.maxSize 100000
set_option synthInstance.maxHeartbeats 400000

def gst (g : Gauge) : State := { sv with mgmt := { sv.mgmt with gauge := g } }
def trc (n : Nat) : TRec := ⟨n, 1, 2, 3, 4, false, 5, 6, 7, n⟩

theorem witness_TidegaugeCountsAndTraces :
    (let s : State := gst ⟨[0,2047], [], [trc 1], true, true, [trc 2, trc 3], 2, [trc 4], [(0,3)]⟩;
     let w : Who := w0;
     let v : BitVec 8 := 0;
     w.ok = true ∧ s.allows w Obj.cntSnapshot (leBytes 1 v.toNat))
    ∧ (let s : State := gst ⟨[0,2047], [], [trc 1], true, true, [trc 2, trc 3], 2, [trc 4], [(0,3)]⟩;
     let w : Who := w0;
     let j : BitVec 11 := 0;
     let v : BitVec 8 := 0;
     w.ok = true ∧ s.allows w (Obj.cntClear j.toNat) (leBytes 1 v.toNat))
    ∧ (let s : State := gst ⟨[0,2047], [], [trc 1], true, true, [trc 2, trc 3], 2, [trc 4], [(0,3)]⟩;
     let w : Who := w0;
     let v : BitVec 8 := 0;
     w.ok = true ∧ s.allows w Obj.cntClearAll (leBytes 1 v.toNat))
    ∧ (let s : State := gst ⟨[0,2047], [], [trc 1], true, true, [trc 2, trc 3], 2, [trc 4], [(0,3)]⟩;
     let w : Who := w0;
     let j : BitVec 11 := 0;
     let v : U64 := 0;
     w.ok = true ∧ s.allows w (Obj.cntFilter j.toNat) (leBytes 8 v.toNat))
    ∧ (let s : State := gst ⟨[0,2047], [], [trc 1], true, true, [trc 2, trc 3], 2, [trc 4], [(0,3)]⟩;
     let w : Who := w0;
     let j : BitVec 11 := 0;
     let v : U64 := 0x1001;
     let key := Obj.cntSelect j.toNat;
     w.ok = true ∧ selectors.contains (v.toNat % 65536) = true ∧ s.allows w key (leBytes 2 v.toNat))
    ∧ (let s : State := gst ⟨[0,2047], [], [trc 1], true, true, [trc 2, trc 3], 2, [trc 4], [(0,3)]⟩;
     let w : Who := w0;
     let j : BitVec 11 := 0;
     let v : U64 := 0;
     let key := Obj.cntSelect j.toNat;
     w.ok = true ∧ selectors.contains (v.toNat % 65536) = false ∧ s.allows w key (leBytes 2 v.toNat))
    ∧ (let s : State := gst ⟨[0,2047], [], [trc 1], true, true, [trc 2, trc 3], 2, [trc 4], [(0,3)]⟩;
     let w : Who := w0;
     let pt : Fin 9 := 0;
     let v : BitVec 32 := 1;
     let key := Obj.tpControl pt;
     w.ok = true ∧ v.getLsbD 0 = true ∧ s.allows w key (leBytes 4 v.toNat))
    ∧ (let s : State := gst ⟨[0,2047], [], [trc 1], true, true, [trc 2, trc 3], 2, [trc 4], [(0,3)]⟩;
     let w : Who := w0;
     let pt : Fin 9 := 0;
     let v : BitVec 32 := 0;
     let key := Obj.tpControl pt;
     w.ok = true ∧ v.getLsbD 0 = false ∧ s.allows w key (leBytes 4 v.toNat))
    ∧ (let s : State := gst ⟨[0,2047], [], [trc 1], true, true, [trc 2, trc 3], 2, [trc 4], [(0,3)]⟩;
     let w : Who := w0;
     let v : BitVec 8 := 0;
     w.ok = true ∧ s.allows w Obj.traceMode (leBytes 1 v.toNat))
    ∧ (let s : State := gst ⟨[0,2047], [], [trc 1], true, true, [trc 2, trc 3], 2, [trc 4], [(0,3)]⟩;
     let w : Who := w0;
     let auth : Nat := 3;
     let x : ORow := rowOf (Obj.traceRead / 256) (Obj.traceRead % 256);
     w.ok = true ∧ s.listens w = true
       ∧ (s.counted w).authOf ⟨w, 1, 1, Obj.traceRead / 256, Obj.traceRead % 256, 0, 0, 0, 0, []⟩ = .ok auth
       ∧ objRow (Obj.traceRead / 256) (Obj.traceRead % 256) = some x ∧ x.ra ≤ auth)
    ∧ (let s : State := gst ⟨[0,2047], [], [trc 1], true, true, [trc 2, trc 3], 2, [trc 4], [(0,3)]⟩;
     let w : Who := w0;
     w.ok = true ∧ s.allows w Obj.streamEnable (leBytes 1 1))
    ∧ (let s : State := gst ⟨[0,2047], [], [trc 1], true, true, [trc 2, trc 3], 2, [trc 4], [(0,3)]⟩;
     let w : Who := w0;
     let v : U64 := 0;
     w.ok = true ∧ v.toNat ≤ s.num Obj.streamTail ∧ s.allows w Obj.streamHead (leBytes 8 v.toNat))
    ∧ (let s : State := gst ⟨[0,2047], [], [trc 1], true, true, [trc 2, trc 3], 2, [trc 4], [(0,3)]⟩;
     let w : Who := w0;
     let v : U64 := 1;
     w.ok = true ∧ s.num Obj.streamTail < v.toNat ∧ s.allows w Obj.streamHead (leBytes 8 v.toNat))
    ∧ (let s : State := withNums { gst ⟨[0,2047], [], [trc 1, trc 2, trc 3], true, true, [], 0, [], []⟩ with ep := { Ep.reset with busMaster := true, linkUp := true, ready := true } } [(Obj.streamEnable, 1), (Obj.streamSize, 4096), (Obj.streamTail, 4096+4064), (Obj.streamHead, 4096), (Obj.streamBase, 65536)];
     let f := s.flushTrace;
     let g := f.mgmt.gauge;
     let tail := s.num Obj.streamTail;
     let size := s.num Obj.streamSize;
     let used := tail - s.num Obj.streamHead;
     s.num Obj.streamEnable = 1 ∧ s.dmaOn = true ∧ s.halted 2 = false ∧ g.recs ≠ [] ∧ used < size) :=
  of_dec (by haveI := decAllows; haveI := decBlob; haveI := decReaches; haveI := decTlp; haveI := @decRange; infer_instance) (by decide +kernel)

end Sys2Proof.Tests.Counts
end

