-- ==== Sys2Proof/Tests/Dictionary.lean ====
section
/-! SUPPORT. Witnesses: for each clause of the statements named, a state and operands that meet its hypotheses together. -/

namespace Sys2Proof.Tests.Dictionary

open Sys2Proof.Machine

set_option Elab.async false
set_option maxRecDepth 100000
set_option synthInstance.maxSize 100000
set_option synthInstance.maxHeartbeats 400000

def sx (active : Bool) : DSess := ⟨2, 9, 1, zeros 32, active, 5, none, [], (none, [])⟩
def sd (xs : List DSess) : State := { sv with mgmt := { sv.mgmt with dict := { sv.mgmt.dict with sess := xs } } }
def w9 : Who := ⟨.window, 9, 3, [], 0, 0⟩
def hh (w : Who) (i : BitVec 16) (j : BitVec 8) : DictHdr := ⟨w, 1, 1, i, j, 0, 0, 0, 0⟩
def pw : List Byte := hmac384 (sv.secret 1) (ascii "P9PV" ++ zeros 32 ++ leBytes 4 9 ++ leBytes 1 2)

theorem witness_DictionaryRequestsAreServed :
    (let s : State := sv;
     let h : DictHdr := hh w0 0x1200 1;
     let auth : Nat := 3;
     let n : Nat := 1;
     let x : ORow := rowOf 0x1200 1;
     h.op = 1 ∧ h.version = 1 ∧ h.flags.toNat < 2 ∧ h.rsvd = 0 ∧ h.offset = 0 ∧ (h.length = 0 ∨ n ≤ h.length.toNat)
       ∧ s.listens h.who = true ∧ (s.counted h.who).authOf (State.hdrAsk h []) = .ok auth ∧ objRow h.index.toNat h.sub.toNat = some x
       ∧ x.acc ≠ .wo ∧ x.ra ≤ auth ∧ x.ty.bytes = some n)
    ∧ (let s : State := sv;
     let w : Who := w0;
     let v : List Byte := [1];
     let len : BitVec 32 := 1;
     let key : Nat := Obj.floodThreshold;
     w.ok = true ∧ len.toNat = v.length ∧ key ∈ [Obj.floodThreshold, Obj.escapeLog2, Obj.remapWindow, Obj.relayRole] ∧ s.allows w key v)
    ∧ (let s : State := sv;
     let w : Who := w0;
     w.ok = true ∧ s.listens w = true)
    ∧ (let s : State := sv;
     let w : Who := w0;
     let auth : BitVec 8 := 1;
     w.ok = true ∧ s.listens w = true ∧ w.session = 0 ∧ 1 ≤ auth.toNat ∧ auth.toNat ≤ 3 ∧ (2 ≤ auth.toNat → s.secret auth.toNat ≠ [])
       ∧ s.mgmt.dict.locked.contains (pathNum w.path * 4 + auth.toNat) = false
       ∧ (s.mgmt.dict.sess.filter (fun x => x.path == pathNum w.path)).length < (if w.path = .t1s then 16 else 4))
    ∧ (let s : State := sd [sx false];
     let w : Who := w9;
     let x : DSess := sx false;
     let value : List Byte := pw;
     let want := hmac384 (s.secret x.auth) (ascii "P9PV" ++ x.nonce ++ leBytes 4 x.num.toNat ++ leBytes 1 x.path);
     w.ok = true ∧ s.listens w = true ∧ w.session ≠ 0 ∧ s.dsess w = some x ∧ x.active = false ∧ value = want)
    ∧ (let s : State := sd [sx false];
     let w : Who := w9;
     let x : DSess := sx false;
     let value : List Byte := [3,0,0,0];
     let want := hmac384 (s.secret x.auth) (ascii "P9PV" ++ x.nonce ++ leBytes 4 x.num.toNat ++ leBytes 1 x.path);
     w.ok = true ∧ s.listens w = true ∧ w.session ≠ 0 ∧ s.dsess w = some x ∧ x.active = false ∧ value ≠ want)
    ∧ (let s : State := sd [sx true];
     let w : Who := w9;
     let a : Nat := 1;
     w.ok = true ∧ s.listens w = true ∧ w.session ≠ 0 ∧ (s.counted w).authOf (State.bareAsk w 5 0 []) = .ok a) :=
  of_dec (by haveI := decAllows; haveI := decBlob; haveI := decReaches; haveI := decTlp; haveI := @decRange; infer_instance) (by decide +kernel)

theorem witness_DictionaryTimersAndNetwork :
    (let s : State := sd [sx true];
     let p : Path := .window;
     let n : BitVec 32 := 9;
     let mine (x : DSess) : Bool := x.path == pathNum p && x.num == n;
     let x : DSess := sx true;
     s.mgmt.dict.sess.find? mine = some x ∧ x.active = true ∧ x.since / 4 ≠ s.dev.now / 4)
    ∧ (let s : State := sd [{ sx true with since := 8000001}];
     let p : Path := .window;
     let n : BitVec 32 := 9;
     let mine (x : DSess) : Bool := x.path == pathNum p && x.num == n;
     let x : DSess := { sx true with since := 8000001};
     s.mgmt.dict.sess.find? mine = some x ∧ x.active = true ∧ x.since / 4 = s.dev.now / 4)
    ∧ (let s : State := sd [sx false];
     let p : Path := .window;
     let n : BitVec 32 := 9;
     let mine (x : DSess) : Bool := x.path == pathNum p && x.num == n;
     let x : DSess := sx false;
     s.mgmt.dict.sess.find? mine = some x ∧ x.active = false)
    ∧ (let s : State := sd [sx true];
     let p : Path := .window;
     let n : BitVec 32 := 9;
     let mine (x : DSess) : Bool := x.path == pathNum p && x.num == n;
     let x : DSess := sx true;
     s.mgmt.dict.sess.find? mine = some x ∧ x.active = true)
    ∧ (let s : State := (let s := sd []; { s with mgmt := { s.mgmt with dict := { s.mgmt.dict with saving := [(okey (Obj.floodThreshold / 256) 1, [3])] } } });
     let index : BitVec 16 := BitVec.ofNat 16 (Obj.floodThreshold / 256);
     let sub : BitVec 8 := 1;
     let v : List Byte := [3];
     let key := okey index.toNat sub.toNat;
     s.mgmt.dict.saving.find? (fun e => e.1 == key) = some (key, v))
    ∧ (let s : State := sd [sx true];
     let w : Who := w0;
     w.ok = true ∧ s.allows w Obj.configReset (leBytes 1 0xA5))
    ∧ (let s : State := sd [sx true];
     let w : Who := w0;
     let index : BitVec 16 := 0x7042;
     let v : BitVec 8 := 1;
     w.ok = true ∧ State.isNotice index.toNat = true ∧ s.allows w (okey index.toNat 7) (leBytes 1 v.toNat))
    ∧ (let w : Who := w0;
     let index : BitVec 16 := BitVec.ofNat 16 (Obj.floodThreshold / 256);
     w.ok = true ∧ State.isNotice index.toNat = false)
    ∧ (let s : State := withNums sv [(Obj.t1sLinkState, 2)];
     s.t1sUp = true)
    ∧ (let s : State := withNums sv [(Obj.t1sLinkState, 2)];
     s.t1sUp = true)
    ∧ (let s : State := withNums sv [(Obj.t1sLinkState, 2)];
     s.t1sUp = true)
    ∧ (let s : State := sd [sx true];
     let st : BitVec 2 := 0;
     s.powered = true ∧ s.dev.state ≠ .reset ∧ (st = 0 ∨ (st = 1 ∧ s.mgmt.power.straps ≠ 0) ∨ (st = 2 ∧ s.mgmt.power.straps = 0))) :=
  of_dec (by haveI := decAllows; haveI := decBlob; haveI := decReaches; haveI := decTlp; haveI := @decRange; infer_instance) (by decide +kernel)

theorem five_ne (m : BitVec 48) : (5#128) ≠ (0xFE80000000000000#64) ++ (m.extractLsb' 24 24 ^^^ 0x020000#24) ++ (0xFFFE#16) ++ m.extractLsb' 0 24 := by
  generalize m.extractLsb' 24 24 ^^^ 0x020000#24 = hi
  generalize m.extractLsb' 0 24 = lo
  intro h
  have h := congrArg (fun x => x.getLsbD 127) h
  rw [BitVec.getLsbD_append, BitVec.getLsbD_append, BitVec.getLsbD_append] at h
  simp at h

theorem five_ne_linkLocal : (5 : BitVec 128) ≠ State.linkLocal := by
  have e : State.linkLocal =
      (0xFE80000000000000#64) ++ (Config.macAddress.extractLsb' 24 24 ^^^ 0x020000#24) ++ (0xFFFE#16) ++ Config.macAddress.extractLsb' 0 24 := by
    unfold State.linkLocal
    exact rfl
  rw [e]
  exact five_ne _

theorem witness_DictionaryTimersAndNetwork_target :
    (let s : State := withNums sv [(Obj.t1sLinkState, 2)];
     let target : BitVec 128 := 5;
     s.t1sUp = true ∧ target ≠ State.linkLocal) :=
  And.intro (by decide +kernel) five_ne_linkLocal

end Sys2Proof.Tests.Dictionary
end

