-- ==== Sys2Proof/Tests/HostPort.lean ====
section
/-! SUPPORT. Witnesses: for each clause of the statements named, a state and operands that meet its hypotheses together. -/

namespace Sys2Proof.Tests.HostPort

open Sys2Proof.Machine

set_option Elab.async false
set_option maxRecDepth 100000
set_option synthInstance.maxSize 100000
set_option synthInstance.maxHeartbeats 400000

def epUp : Ep := { Ep.reset with ready := true, linkUp := true, memEnable := true, busMaster := true }
def ep (s : State) (e : Ep) : State := { s with ep := e }
def near (loc : Nat) : Copy := ⟨1, loc, 0, 1024, false, 0⟩
def rwS (m : Mode) : State := let s := rs m; { s with tide := { s.tide with map := [(0, { TEntry.unwritten with pstate := .resident, a := near (84000*1024) })] } }
def gr (n : Nat) : Gran := ⟨(List.range 64).map (fun i => BitVec.ofNat 8 (n + i)), false⟩
def slm : StoreLine := ⟨gr 1, gr 70, 3, false, false, 0, false, md 0, none⟩
def homeS : State := let s := rs (md 0); { s with path := { s.path with store := [(1, slm)], sr := 12345 }, dir := { s.dir with ents := [(1, { DEntry.none with st := .home })] } }
def tl (off : BitVec 38) (n : Nat) : Tlp := ⟨77, off, n, false, false⟩
def dat : List Byte := (List.range 128).map (BitVec.ofNat 8)
def sn (m : Src) (op : SnpOp) (tag : BitVec 12) : Snoop := ⟨m, tag, 71, op, 0, 16, 0, false⟩
def tx (who : TxnFor) : Txn := ⟨who, 1, false, false, { DEntry.none with st := .shared, l0 := 8 }, [], 1⟩
def snState (m : Src) (op : SnpOp) (t : Txn) : State := { sv with ep := { epUp with sqIn := [4, 9] }, dir := { sv.dir with snoops := [sn m op 4], txns := [(71, t), (70, t)] } }
def lrd (k : Nat) : LentRead := ⟨9, 3, 100, [k], .issued⟩
def lk : Nat := 3 * 2^38 + 3 * 2^32 + 5*1024
def lrs (x : LentRead) : State := let s := (ep sv epUp).setLent 3 ⟨true, false, false, 2^16, 2^20, 0, none⟩; { s with tide := { s.tide with lentRds := [x] } }

theorem witness_HostTlpsAreServed :
    (let s : State := ep (rs (md 0)) epUp;
     let t : Tlp := tl 131 20;
     let l : State.Line := ((ep (rs (md 0)) epUp).readLines 131 20).headD noLine;
     let m : Mode := md 0;
     let k := lineOf (addrOff (BitVec.ofNat 64 l.addr));
     t.ok 4096 = true ∧ s.readLines (s.bar2Addr t.off.toNat) t.len = [l] ∧ l.op = .readHalf ∧ s.tlpReaches l.addr .readHalf 0 m
       ∧ s.calm k = true ∧ (s.line k).st = .uncached ∧ s.storeLine k = none ∧ (s.entry (k / 512)).pstate = .unwritten)
    ∧ (let s : State := ep (rwS (md 0)) epUp;
     let t : Tlp := tl 0 128;
     let be : List Bool := List.replicate 128 true;
     let data : List Byte := dat;
     let l : State.Line := (State.writeLines 0 (List.replicate 128 true) dat false).headD noLine;
     let d : List Byte := dat;
     let m : Mode := md 0;
     let k := lineOf (addrOff (BitVec.ofNat 64 l.addr));
     let a := (s.entry (k / 512)).a;
     let g := k * 2 % 1024;
     t.ok 512 = true ∧ be.length = t.len ∧ data.length = t.len ∧ t.ep = false
       ∧ State.writeLines (s.bar2Addr t.off.toNat) be data false = [l] ∧ l.op = .write d ∧ s.tlpReaches l.addr (.write d) 0 m
       ∧ s.calm k = true ∧ s.rawPage (k / 512) = true ∧ (s.line k).st = .uncached ∧ s.storeLine k = none ∧ s.path.store = []
       ∧ s.keyFenced (a.key g) = false ∧ s.keyFenced (a.key (g + 1)) = false)
    ∧ (let s : State := ep homeS epUp;
     let t : Tlp := tl 132 4;
     let m : Mode := md 0;
     let x : StoreLine := slm;
     let p := s.bar2Addr t.off.toNat;
     let k := lineOf (addrOff (BitVec.ofNat 64 p));
     let n := t.len;
     let held (op : ReqOp) : Prop := t.ok 8 = true ∧ (n = 4 ∨ n = 8) ∧ s.tlpReaches p op (State.atomAttr n) m ∧ s.calm k = true ∧ (s.line k).st = .home ∧ (s.entry (k / 512)).pstate = .unwritten ∧ s.storeLine k = some x ∧ x.filling = false ∧ x.leaving = false ∧ x.badPar = false ∧ x.lo.poison = false ∧ x.hi.poison = false ∧ x.lo.bytes.length = 64 ∧ x.hi.bytes.length = 64 ∧ s.num Obj.aluFlipMask = 0;
     let a : U64 := 5;
     held (.add a))
    ∧ (let s : State := ep homeS epUp;
     let t : Tlp := tl 132 4;
     let m : Mode := md 0;
     let x : StoreLine := slm;
     let p := s.bar2Addr t.off.toNat;
     let k := lineOf (addrOff (BitVec.ofNat 64 p));
     let n := t.len;
     let held (op : ReqOp) : Prop := t.ok 8 = true ∧ (n = 4 ∨ n = 8) ∧ s.tlpReaches p op (State.atomAttr n) m ∧ s.calm k = true ∧ (s.line k).st = .home ∧ (s.entry (k / 512)).pstate = .unwritten ∧ s.storeLine k = some x ∧ x.filling = false ∧ x.leaving = false ∧ x.badPar = false ∧ x.lo.poison = false ∧ x.hi.poison = false ∧ x.lo.bytes.length = 64 ∧ x.hi.bytes.length = 64 ∧ s.num Obj.aluFlipMask = 0;
     let c : U64 := 5;
     let w : U64 := 5;
     held (.cas c w))
    ∧ (let s : State := ep (rs (md 0)) epUp;
     let t : Tlp := tl 131 20;
     t.ok 32 = true ∧ s.decodes = true)
    ∧ (let s : State := ep sv { epUp with memEnable := false };
     let t : Tlp := tl 131 20;
     t.ok 4096 = true ∧ s.decodes = false ∧ s.ep.flr = false ∧ s.ep.perst = false ∧ s.ep.linkUp = true) :=
  of_dec (by haveI := decAllows; haveI := decBlob; haveI := decReaches; haveI := decTlp; haveI := @decRange; infer_instance) (by decide +kernel)

theorem witness_HostRegistersTakeWrites :
    (let s : State := ep sv { epUp with flr := true };
     s.ep.perst = false ∧ s.ep.linkUp = true ∧ (s.ep.ready = false ∨ s.ep.flr = true))
    ∧ (let s : State := ep sv epUp;
     s.ep.perst = false ∧ s.ep.linkUp = true ∧ s.ep.ready = true ∧ s.ep.flr = false)
    ∧ (let s : State := ep sv epUp;
     s.ep.perst = false ∧ s.ep.linkUp = true ∧ s.ep.ready = true ∧ s.ep.flr = false)
    ∧ (let s : State := ep sv epUp;
     let us : Nat := 50;
     s.ep.perst = false ∧ s.ep.linkUp = true ∧ s.ep.ready = true ∧ s.ep.flr = false ∧ 50 ≤ us ∧ us ≤ 4000000)
    ∧ (let s : State := ep sv epUp;
     s.ep.perst = false ∧ s.ep.linkUp = true ∧ s.ep.ready = true ∧ s.ep.flr = false ∧ s.ep.intxCause = 0)
    ∧ (let s : State := ep sv epUp;
     s.ep.perst = false ∧ s.ep.linkUp = true ∧ s.ep.ready = true ∧ s.ep.flr = false ∧ s.tide.lentRds = [])
    ∧ (let s : State := ep sv epUp;
     s.ep.perst = false ∧ s.ep.linkUp = true ∧ s.ep.ready = true ∧ s.ep.flr = false ∧ s.ep.dState = 0)
    ∧ (let s : State := ep sv epUp;
     s.decodes = true)
    ∧ (let s : State := ep sv epUp;
     s.decodes = true ∧ s.mgmt.ring.st = 0)
    ∧ (let s : State := ep sv epUp;
     s.decodes = true)
    ∧ (let s : State := ep sv { epUp with intxCause := 5, doors := [(55, { Door.idle with busy := true})] };
     let d : Fin 56 := 55;
     let v : U64 := 0x200003;
     s.decodes = true ∧ State.bolOfOpc (bits v.toNat 21 16) ≠ none ∧ (s.door d).busy = true)
    ∧ (let s : State := ep sv epUp;
     s.decodes = true)
    ∧ (let s : State := ep sv epUp;
     s.decodes = true)
    ∧ (let s : State := snState .ep .inv (tx .evict);
     let tag : BitVec 12 := 4;
     let x : Snoop := sn .ep .inv 4;
     let t : Txn := tx .evict;
     s.decodes = true ∧ s.dir.snoops.find? (fun y => y.master == .ep && y.tag == tag && !y.waitWb) = some x ∧ s.txn x.line = some t) :=
  of_dec (by haveI := decAllows; haveI := decBlob; haveI := decReaches; haveI := decTlp; haveI := @decRange; infer_instance) (by decide +kernel)

theorem witness_TranslationsAndDma :
    (let s : State := ep sv { epUp with atc := [0, 1, 2, 3, 4], inval := [⟨4, [9]⟩] };
     let x : Inval := ⟨4, [9]⟩;
     s.ep.inval = [x] ∧ (∀ i ∈ x.reads, (∀ q ∈ s.tide.lentRds, q.id ≠ i) ∧ i ∉ s.tide.lentGone.map (·.1)))
    ∧ (let s : State := lrs {lrd lk with st := .translating};
     let x : LentRead := { lrd lk with st := .translating };
     s.tide.lentRds = [x] ∧ x.st = .translating)
    ∧ (let s : State := lrs {lrd lk with st := .translating};
     let x : LentRead := { lrd lk with st := .translating };
     s.tide.lentRds = [x] ∧ x.st = .translating ∧ s.req x.req = none ∧ (s.lent x.range).run + 1 < s.num Obj.lentFailCount)
    ∧ (let s : State := lrs (lrd lk);
     let x : LentRead := lrd lk;
     s.tide.lentRds = [x] ∧ x.st = .issued ∧ s.req x.req = none)
    ∧ (let ch : Fin 4 := 1;
     ch ≠ 0)
    ∧ (let ch : Fin 4 := 2;
     ch ≠ 0 ∧ 2 ≤ ch.val)
    ∧ (let s : State := ep sv { epUp with atc := [0, 1, 2, 3, 4], inval := [⟨4, [9]⟩] };
     let w : Who := w0;
     let v : BitVec 32 := 0;
     w.ok = true ∧ s.allows w Obj.dmaRestart (leBytes 4 v.toNat)) :=
  of_dec (by haveI := decAllows; haveI := decBlob; haveI := decReaches; haveI := decTlp; haveI := @decRange; infer_instance) (by decide +kernel)

theorem witness_EndpointResetsAndLink :
    (let s : State := ep sv epUp;
     s.ep.perst = false ∧ s.ep.ready = true ∧ s.ep.flr = false)
    ∧ (let s : State := ep sv { epUp with flr := true };
     s.ep.perst = false ∧ s.ep.flr = true)
    ∧ (let s : State := ep sv epUp;
     s.ep.perst = false)
    ∧ (let s : State := ep sv epUp;
     s.ep.perst = false ∧ s.dev.state ≠ .off ∧ s.dev.state ≠ .backup ∧ s.dev.state ≠ .reset)
    ∧ (let s : State := ep sv epUp;
     s.ep.perst = false ∧ s.dev.state ≠ .off ∧ s.dev.state ≠ .backup ∧ s.dev.state ≠ .reset ∧ s.ep.flr = false)
    ∧ (let s : State := ep sv epUp;
     s.ep.perst = false ∧ s.ep.linkUp = true)
    ∧ (let s : State := ep sv { epUp with perst := true, linkUp := false, dState := 4 };
     s.ep.perst = true) :=
  of_dec (by haveI := decAllows; haveI := decBlob; haveI := decReaches; haveI := decTlp; haveI := @decRange; infer_instance) (by decide +kernel)

end Sys2Proof.Tests.HostPort
end

