-- ==== Sys2Proof/Tests/Links.lean ====
section
/-! SUPPORT. Witnesses: for each clause of the statements named, a state and operands that meet its hypotheses together. -/

namespace Sys2Proof.Tests.Links

open Sys2Proof.Machine

set_option Elab.async false
set_option maxRecDepth 100000
set_option synthInstance.maxSize 100000
set_option synthInstance.maxHeartbeats 400000

def okFlit (x : Port) (seq : BitVec 10) : Flit := let f : Flit := ⟨0, seq, 1023, 1, 4, List.replicate 31 0, 0, true, none⟩; { f with crc := crc32c (leBytes 4 f.word ++ ofUnits f.units) }
def pm : ParamMsg := ⟨true, true, 17, 17, 3, 194, 77, 1⟩
def m1 : Msg := ⟨.rsp, [1,2,3], some 4, none, false, none⟩

theorem witness_FlitsAreAppliedOrAskedFor :
    (let s : State := svUp;
     let p : Fin 16 := 3;
     let f : Flit := okFlit upPort 0;
     s.ports[p].state = .up ∧ f.sound = true ∧ f.kind = 0 ∧ f.seq = s.ports[p].rxLast + 1 ∧ s.ports[p].rxPart = []
       ∧ f.units = List.replicate 31 0)
    ∧ (let s : State := svUp;
     let p : Fin 16 := 3;
     let f : Flit := okFlit upPort 5;
     f.units.length = 31 ∧ s.ports[p].state = .up
       ∧ (f.sound = false ∨ (f.kind = 0 ∧ f.seq ≠ s.ports[p].rxLast + 1 ∧ s.ports[p].replayWait = false))
       ∧ s.ports[p].replayFails + 1 < s.num (Obj.replayEscCount p))
    ∧ (let s : State := P3 { upPort with replayWait := true };
     let p : Fin 16 := 3;
     let f : Flit := okFlit upPort 5;
     f.units.length = 31 ∧ s.ports[p].state = .up ∧ f.sound = true ∧ f.kind = 0 ∧ f.seq ≠ s.ports[p].rxLast + 1
       ∧ s.ports[p].replayWait = true) :=
  of_dec (by haveI := decAllows; haveI := decBlob; haveI := decReaches; haveI := decTlp; haveI := @decRange; infer_instance) (by decide +kernel)

theorem witness_ReplayRepeatsHeldFlits :
    (let s : State := P3 { upPort with replayWait := true, replayFails := 1, retry := [sf 0, sf 1, sf 2] };
     let p : Fin 16 := 3;
     let seq : BitVec 10 := 0;
     let f : SentFlit := sf 0;
     let fs : List SentFlit := [sf 1, sf 2];
     s.ports[p].state = .up ∧ freeThrough (seq - 1) s.ports[p].retry = f :: fs ∧ f.seq = seq ∧ s.ports[p].inject = 0) :=
  of_dec (by haveI := decAllows; haveI := decBlob; haveI := decReaches; haveI := decTlp; haveI := @decRange; infer_instance) (by decide +kernel)

theorem witness_WidthHandshakes :
    (let s : State := svUp;
     let p : Fin 16 := 3;
     s.ports[p].state = .up ∧ s.ports[p].width = 16)
    ∧ (let s : State := P3 {upPort with ctrl := [.degradeReq .high 5, .replayReq 3], degrading := true};
     let p : Fin 16 := 3;
     let h : Half := .high;
     let a : BitVec 12 := 5;
     s.ports[p].state = .up ∧ s.ports[p].ctrl.findSome? (Ctl.degradeAt a) = some h)
    ∧ (let s : State := P3 { upPort with width := 8, switchAt := some (5, none) };
     let p : Fin 16 := 3;
     s.ports[p].state = .up ∧ s.ports[p].width = 8 ∧ s.num (Obj.portWidthMax p) = 16)
    ∧ (let s : State := P3 {upPort with ctrl := [.upshiftReq 5, .replayReq 3], width := 8};
     let p : Fin 16 := 3;
     let a : BitVec 12 := 5;
     s.ports[p].state = .up ∧ s.ports[p].ctrl.any (Ctl.isUpshift a) = true)
    ∧ (let s : State := P3 { upPort with switchAt := some (5, some .high) , rxPart := [3], retry := [sf 0] };
     let p : Fin 16 := 3;
     let a : BitVec 12 := 5;
     let t : Option Half := some .high;
     s.ports[p].state = .up ∧ s.ports[p].switchAt = some (a, t)) :=
  of_dec (by haveI := decAllows; haveI := decBlob; haveI := decReaches; haveI := decTlp; haveI := @decRange; infer_instance) (by decide +kernel)

theorem witness_TrainingAndResets :
    (let s : State := withPort sv 3 Port.reset;
     let p : Fin 16 := 3;
     s.portsLive = true ∧ s.ports[p].state = .down ∧ s.ports[p].fence ≠ .checker)
    ∧ (let s : State := P3 {Port.reset with state := .training};
     let p : Fin 16 := 3;
     s.ports[p].state = .training ∧ s.ports[p].fence ≠ .checker)
    ∧ (let s : State := P3 {Port.reset with state := .training};
     let p : Fin 16 := 3;
     s.ports[p].state = .training ∧ s.ports[p].fence ≠ .checker ∧ s.ports[p].attempts + 1 < s.num (Obj.retrainAttempts p))
    ∧ (let s : State := P3 {Port.reset with state := .training};
     let p : Fin 16 := 3;
     let m : ParamMsg := pm;
     s.ports[p].state = .training ∧ s.ports[p].fence = .none ∧ s.ports[p].inReset = false ∧ 17 ≤ m.advRsp
       ∧ (if m.features.getLsbD 0 then 3 else 2) ≤ m.advSnp ∧ 194 ≤ m.advMgmt ∧ (m.lowClean = true ∨ m.highClean = true))
    ∧ (let s : State := P3 {Port.reset with state := .training};
     let p : Fin 16 := 3;
     let m : ParamMsg := {pm with advRsp := 16};
     s.ports[p].state = .training ∧ s.ports[p].fence ≠ .checker
       ∧ (m.advRsp < 17 ∨ m.advSnp < (if m.features.getLsbD 0 then 3 else 2) ∨ m.advMgmt < 194)
       ∧ s.ports[p].attempts + 1 < s.num (Obj.retrainAttempts p))
    ∧ (let s : State := P3 {Port.reset with state := .recovering, ctrl := [.resume true 3], retry := [sf 0, sf 1]};
     let p : Fin 16 := 3;
     let last : BitVec 10 := 3;
     s.ports[p].state = .recovering ∧ s.ports[p].forceFresh = false ∧ s.ports[p].ctrl = [.resume true last] ∧ s.ports[p].inject = 0)
    ∧ (let s : State := P3 {Port.reset with state := .recovering, ctrl := [.resume true 3], retry := [sf 0, sf 1]};
     let p : Fin 16 := 3;
     let valid : Bool := false;
     let mine : Bool := true;
     let last : BitVec 10 := 3;
     s.ports[p].state = .recovering ∧ s.ports[p].ctrl = [.resume mine last] ∧ (mine && valid && !s.ports[p].forceFresh) = false)
    ∧ (let s : State := withNums svUp [(Obj.resumeEnable 3, 1)];
     let p : Fin 16 := 3;
     s.ports[p].state = .up ∧ s.num (Obj.resumeEnable p) ≠ 0) :=
  of_dec (by haveI := decAllows; haveI := decBlob; haveI := decReaches; haveI := decTlp; haveI := @decRange; infer_instance) (by decide +kernel)

theorem witness_LinkTimersAndLanes :
    (let s : State := P3 {upPort with retry := [sf 0]};
     let p : Fin 16 := 3;
     s.ports[p].state = .up ∧ s.num (Obj.resumeEnable p) ≠ 0 ∧ s.ports[p].degradeAt ≠ s.dev.now + 1
       ∧ s.ports[p].replayAt ≠ s.dev.now + 1 ∧ s.ports[p].retry ≠ [])
    ∧ (let s : State := P3 {upPort with degrading := true};
     let p : Fin 16 := 3;
     s.ports[p].state = .up ∧ s.num (Obj.resumeEnable p) ≠ 0 ∧ s.ports[p].degradeAt ≠ s.dev.now + 1
       ∧ s.ports[p].replayAt ≠ s.dev.now + 1 ∧ s.ports[p].degrading = true)
    ∧ (let s : State := P3 {upPort with width := 8, half := .low};
     let p : Fin 16 := 3;
     let lane : Fin 16 := 3;
     s.ports[p].state = .up ∧ s.num (Obj.resumeEnable p) ≠ 0 ∧ s.ports[p].degradeAt ≠ s.dev.now + 1
       ∧ s.ports[p].replayAt ≠ s.dev.now + 1 ∧ s.ports[p].width = 8 ∧ State.halfOf lane.val = s.ports[p].half)
    ∧ (let s : State := svUp;
     let p : Fin 16 := 3;
     let cs : List Nat := List.replicate 16 0;
     cs.length = 16 ∧ s.ports[p].state = .up ∧ s.ports[p].width = 16 ∧ (∀ i < 16, cs.getD i 0 ≤ s.num (Obj.laneSerThreshold p)))
    ∧ (let s : State := P3 {upPort with width := 8, half := .low};
     let p : Fin 16 := 3;
     s.ports[p].state = .up ∧ s.ports[p].width = 8 ∧ s.num (Obj.portWidthMax p) = 16 ∧ s.num (Obj.autoUpshift p) = 1
       ∧ s.ports[p].switchAt = none ∧ s.ports[p].soakBad ≠ s.dev.now + 1) :=
  of_dec (by haveI := decAllows; haveI := decBlob; haveI := decReaches; haveI := decTlp; haveI := @decRange; infer_instance) (by decide +kernel)

theorem witness_CreditsCarryMessages :
    (let s : State := P3 {upPort with pendRet := ⟨0,300,0,4⟩};
     let p : Fin 16 := 3;
     let v : VC := .rsp;
     s.ports[p].state = .up ∧ nextCvc s.ports[p] = some v ∧ s.ports[p].retry.length < 512)
    ∧ (let s : State := P3 {upPort with ready := [m1]};
     let p : Fin 16 := 3;
     let m : Msg := m1;
     s.ports[p].state = .up ∧ s.ports[p].ready = [m] ∧ m.units.length ≤ State.usable s.ports[p] s.dev.now m.vc
       ∧ m.units.length ≤ State.retryRoom s.ports[p])
    ∧ (let s : State := P3 {upPort with ready := [m1], credit := ⟨0,2,0,0⟩, stalled := true};
     let p : Fin 16 := 3;
     s.ports[p].state = .up ∧ s.ports[p].rspHold = false ∧ State.rspWaits s.ports[p] s.dev.now = true) :=
  of_dec (by haveI := decAllows; haveI := decBlob; haveI := decReaches; haveI := decTlp; haveI := @decRange; infer_instance) (by decide +kernel)

theorem witness_InjectionsAreArmed :
    (let s : State := sv;
     let w : Who := w0;
     let v : BitVec 32 := 0;
     w.ok = true ∧ s.allows w Obj.dirFlipMask (leBytes 4 v.toNat))
    ∧ (let s : State := sv;
     let w : Who := w0;
     let v : BitVec 32 := 0;
     w.ok = true ∧ s.allows w Obj.aluFlipMask (leBytes 4 v.toNat))
    ∧ (let s : State := sv;
     let w : Who := w0;
     let v : BitVec 32 := 0;
     w.ok = true ∧ s.allows w Obj.bollardFlipMask (leBytes 4 v.toNat))
    ∧ (let s : State := sv;
     let w : Who := w0;
     let v : BitVec 32 := 0;
     w.ok = true ∧ s.allows w Obj.eccFlipMask (leBytes 4 v.toNat))
    ∧ (let s : State := sv;
     let w : Who := w0;
     let v : BitVec 32 := 0;
     w.ok = true ∧ s.allows w Obj.codecFlipMask (leBytes 4 v.toNat))
    ∧ (let s : State := sv;
     let w : Who := w0;
     let v : BitVec 8 := 1;
     w.ok = true ∧ 1 ≤ v.toNat ∧ v.toNat ≤ 8 ∧ s.allows w Obj.parityFlipPath (leBytes 1 v.toNat))
    ∧ (let s : State := sv;
     let w : Who := w0;
     w.ok = true ∧ s.allows w Obj.dirSplitWrite (leBytes 1 1))
    ∧ (let s : State := sv;
     let w : Who := w0;
     let x : DUnit := .stack 3;
     let v : BitVec 8 := 1;
     w.ok = true ∧ (v = 1 ∨ v = 2) ∧ (∀ m, x = .chan m → (s.unit (8 + m)).st ≠ .empty ∧ (s.unit (8 + m)).st ≠ .fenced)
       ∧ s.allows w (State.splitObj x) (leBytes 1 v.toNat))
    ∧ (let s : State := { sv with dram := { sv.dram with units := [(13, { DUnitSt.untrained with st := .fenced })] } };
     let w : Who := w0;
     let m : Fin 24 := 5;
     let v : BitVec 8 := 1;
     w.ok = true ∧ (v = 1 ∨ v = 2) ∧ ((s.unit (8 + m)).st = .empty ∨ (s.unit (8 + m)).st = .fenced)
       ∧ s.allows w (Obj.chSplitWrite m) (leBytes 1 v.toNat))
    ∧ (let s : State := sv;
     let w : Who := w0;
     let p : Fin 16 := 3;
     let v : BitVec 8 := 1;
     w.ok = true ∧ v ≠ 0 ∧ s.allows w (Obj.injectFlitCrc p) (leBytes 1 v.toNat)) :=
  of_dec (by haveI := decAllows; haveI := decBlob; haveI := decReaches; haveI := decTlp; haveI := @decRange; infer_instance) (by decide +kernel)

end Sys2Proof.Tests.Links
end

