-- ==== Sys2Proof/Tests/Objects.lean ====
section
/-! SUPPORT. Witnesses: for each clause of the statements named, a state and operands that meet its hypotheses together. -/

namespace Sys2Proof.Tests.Objects

open Sys2Proof.Machine

set_option Elab.async false
set_option maxRecDepth 100000
set_option synthInstance.maxSize 100000
set_option synthInstance.maxHeartbeats 400000

def wl : Who := ⟨.link 3, 0, 7, [], 5, 0⟩
def dh : DictHdr := ⟨wl, 1, 1, 0x1000, 1, 0, 0, 0, 0⟩
def s2 : State := withNums { sv with ctl := { sv.ctl with water := { sv.ctl.water with tokens := [(1, 30), (64, 99999999999999)] } } } [(Obj.classShare 3, 2)]
def accW (id stamp : Nat) : Acc := ⟨id, true, some 5, .write, 64, 3, stamp, false, 1, [2^38+128], [], [⟨2^38+128, ⟨List.replicate 64 9, false⟩, 0, 0⟩], 0, 0⟩
def rq : Req := sv.newReq 100 h0 .read 0 .link
def dirty : State := { sv with dir := { sv.dir with ents := [(70, { DEntry.none with st := .shared, l0 := 9, l1 := 5 }), (71, {DEntry.none with st := .exclusive, owner := 3, ownLocal := true}), (72, {DEntry.none with st := .exclusive, owner := 130, ownLocal := false})] } }
def withPurge (s : State) (p : Purge) : State := { s with dir := { s.dir with purges := [p] } }
def sn (m : Src) (op : SnpOp) (tag : BitVec 12) : Snoop := ⟨m, tag, 71, op, 0, 3, 0, false⟩
def tx (who : TxnFor) : Txn := ⟨who, 1, false, false, { DEntry.none with st := .shared, l0 := 8 }, [], 1⟩
def snState (m : Src) (op : SnpOp) (t : Txn) : State := { P3 upPort with dir := { dirty.dir with snoops := [sn m op 4], txns := [(71, t), (70, t)] } }
def bolS : State := withNums (rich svUp) ((List.range 64).map (fun g => (Obj.bollardGroupMask g, 0x1FFFF)))
def bol (s : State) (b : Nat) (v : U64) : State := { s with path := { s.path with bols := FMap.put s.path.bols b v } }
def wt (b : Nat) (t : U64) (n : Option Nat) (tag : BitVec 12) : Waiter := ⟨50, b, t, n, .port 3, bolS.originOf h0, tag, 8, some 4000, none, 0, 0⟩
def hb (attr : BitVec 8) (a : BitVec 64) : Hdr := ⟨.port 3, 5, 1, 0, false, attr, a, none⟩
def bolReq : Req := { sv.newReq 50 h0 (.bol .waitGe 50) 0 .link with stage := .bollard }

theorem witness_PortConfigWrites :
    (let s : State := svUp;
     let w : Who := w0;
     let p : Fin 16 := 3;
     w.ok = true ∧ s.ports[p].fence ≠ .checker ∧ s.ports[p].state ≠ .fenced ∧ s.ports[p].state ≠ .disabled
       ∧ s.allows w (Obj.portEnable p) (leBytes 1 0))
    ∧ (let s : State := withNums (P3 {upPort with state := .fenced, fence := .training}) [(Obj.portEnable 3, 0)];
     let w : Who := w0;
     let p : Fin 16 := 3;
     w.ok = true ∧ s.ports[p].state = .fenced ∧ s.ports[p].fence = .training ∧ s.num (Obj.portEnable p) = 0
       ∧ s.allows w (Obj.portEnable p) (leBytes 1 1))
    ∧ (let s : State := P3 {upPort with state := .fenced, fence := .checker};
     let w : Who := w0;
     let p : Fin 16 := 3;
     let v : BitVec 8 := 0;
     w.ok = true ∧ s.ports[p].fence = .checker ∧ s.allows w (Obj.portEnable p) (leBytes 1 v.toNat))
    ∧ (let s : State := svUp;
     let w : Who := w0;
     let p : Fin 16 := 3;
     w.ok = true ∧ s.ports[p].state = .up ∧ s.ports[p].width = 16 ∧ s.ports[p].degrading = false ∧ s.ports[p].switchAt = none
       ∧ s.allows w (Obj.portWidthMax p) (leBytes 1 8))
    ∧ (let s : State := svUp;
     let w : Who := w0;
     let p : Fin 16 := 3;
     w.ok = true ∧ s.allows w (Obj.portWidthMax p) (leBytes 1 16)) :=
  of_dec (by haveI := decAllows; haveI := decBlob; haveI := decReaches; haveI := decTlp; haveI := @decRange; infer_instance) (by decide +kernel)

theorem witness_InBandRequestsChangeNothing :
    (let s : State := svUp;
     let p : Fin 16 := 3;
     let h : DictHdr := dh;
     let w : Who := wl;
     let c : Instr := .dictRead dh;
     let value : List Byte := [1];
     let auth : BitVec 8 := 1;
     WellFormed c = true ∧ h.who.path = .link p ∧ w.path = .link p
       ∧ c ∈ [.dictRead h, .dictWrite h value, .open_ w auth, .prove w value, .close w, .describe w]
       ∧ (∀ x ∈ s.mgmt.dict.sess, x.path ≠ 3)) :=
  of_dec (by haveI := decAllows; haveI := decBlob; haveI := decReaches; haveI := decTlp; haveI := @decRange; infer_instance) (by decide +kernel)

theorem witness_SettingsTakeEffect :
    (let s : State := svUp;
     let w : Who := w0;
     let v : U64 := 3;
     w.ok = true ∧ v ≠ 0 ∧ s.allows w Obj.srSeed (leBytes 8 v.toNat))
    ∧ (let s : State := svUp;
     let w : Who := w0;
     w.ok = true ∧ s.allows w Obj.srSeedMode (leBytes 1 1))
    ∧ (let s : State := svUp;
     let w : Who := w0;
     let v : BitVec 16 := 1000;
     w.ok = true ∧ (1000 ≤ min (s.num Obj.thermalCap) (s.num Obj.operatorCap) ↔ 1000 ≤ min (s.num Obj.thermalCap) v.toNat)
       ∧ s.allows w Obj.operatorCap (leBytes 2 v.toNat))
    ∧ (let s : State := svUp;
     let w : Who := w0;
     let v : BitVec 16 := 900;
     w.ok = true ∧ 1000 ≤ min (s.num Obj.thermalCap) (s.num Obj.operatorCap) ∧ v.toNat < 1000
       ∧ s.allows w Obj.operatorCap (leBytes 2 v.toNat))
    ∧ (let s : State := svUp;
     let w : Who := w0;
     w.ok = true ∧ s.allows w Obj.epGrants (leBytes 1 1))
    ∧ (let s : State := svUp;
     let w : Who := w0;
     w.ok = true ∧ s.dir.snoops = [] ∧ s.allows w Obj.epGrants (leBytes 1 0))
    ∧ (let s : State := svUp;
     let w : Who := w0;
     let v : BitVec 32 := 0;
     w.ok = true ∧ s.nearLimits ≤ min v.toNat (s.liveStacks * (2 ^ 20 - State.metaBays))
       ∧ s.allows w Obj.nearReservableCap (leBytes 4 v.toNat)) :=
  of_dec (by haveI := decAllows; haveI := decBlob; haveI := decReaches; haveI := decTlp; haveI := @decRange; infer_instance) (by decide +kernel)

theorem witness_ClassesCommitAndSweepsMark :
    (let s : State := sv;
     let w : Who := w0;
     w.ok = true ∧ State.classFault ((List.range 64).map s.stagedClass) = none ∧ s.allows w Obj.classAction (leBytes 1 1))
    ∧ (let s : State := withNums sv [(Obj.classMinBw 3 0, 4000)];
     let w : Who := w0;
     let r : Nat := 0x5101;
     let src : Nat := 0;
     let c : Nat := 0xFF;
     w.ok = true ∧ State.classFault ((List.range 64).map s.stagedClass) = some (r, src, c) ∧ s.allows w Obj.classAction (leBytes 1 1))
    ∧ (let s : State := sv;
     let w : Who := w0;
     w.ok = true ∧ s.allows w Obj.classAction (leBytes 1 2)) :=
  of_dec (by haveI := decAllows; haveI := decBlob; haveI := decReaches; haveI := decTlp; haveI := @decRange; infer_instance) (by decide +kernel)

theorem witness_RoutesAndPurges :
    (let s : State := sv;
     let w : Who := w0;
     let pod : Bool := false;
     let i : BitVec 6 := 0;
     let v : BitVec 8 := 0;
     w.ok = true ∧ s.dir.snoops = [] ∧ s.allows w (State.routeObj pod i) (leBytes 1 v.toNat))
    ∧ (let s : State := withPurge dirty ⟨.port 3, 5, none⟩;
     let h : Holder := .port 3;
     let n : Nat := 5;
     s.dir.purges = [⟨h, n, none⟩])
    ∧ (let s : State := withPurge dirty ⟨.route false 2, 5, some (w0, 5)⟩;
     let w : Who := w0;
     let pod : Bool := false;
     let i : BitVec 6 := 2;
     let v : BitVec 8 := 5;
     let n : Nat := 5;
     (w.path = .t1s ∨ (w.path = .window ∧ w.peer = 0)) ∧ s.dir.purges = [⟨.route pod i, n, some (w, v)⟩])
    ∧ (let s : State := sv;
     s.dir.badA = [] ∧ s.dir.badB = [])
    ∧ (let s : State := { dirty with dir := { dirty.dir with badA := [(70, 1)], sweep := State.setOf 70 } };
     let l : Nat := 70;
     let m : BitVec 192 := 1;
     s.dir.badA = [(l, m)] ∧ s.dir.badB = [] ∧ m ≠ 0 ∧ State.maskValid m = false ∧ State.setOf l = s.dir.sweep) :=
  of_dec (by haveI := decAllows; haveI := decBlob; haveI := decReaches; haveI := decTlp; haveI := @decRange; infer_instance) (by decide +kernel)

theorem witness_SnoopsAndTransactions :
    (let s : State := snState (.port 3) .inv (tx .clone);
     let p : Fin 16 := 3;
     let tag : BitVec 12 := 4;
     let x : Snoop := sn (.port 3) .inv 4;
     let t : Txn := tx .clone;
     s.takesRsp p 1 = true ∧ s.txn x.line = some t
       ∧ s.dir.snoops.find? (fun y => y.master == .port p && y.tag == tag && !y.waitWb) = some x)
    ∧ (let s : State := snState (.port 3) .inv (tx .clone);
     let p : Fin 16 := 3;
     let tag : BitVec 12 := 4;
     let x : Snoop := sn (.port 3) .inv 4;
     let t : Txn := tx .clone;
     s.takesRsp p 1 = true ∧ s.txn x.line = some t
       ∧ s.dir.snoops.find? (fun y => y.master == .port p && y.tag == tag && !y.waitWb) = some x ∧ t.wbGot = false)
    ∧ (let s : State := snState (.port 3) .recall (tx .evict);
     let p : Fin 16 := 3;
     let tag : BitVec 12 := 4;
     let x : Snoop := sn (.port 3) .recall 4;
     let t : Txn := tx .evict;
     let data : List Byte := List.replicate 128 5;
     data.length = 128 ∧ s.takesRsp p 17 = true ∧ s.txn x.line = some t
       ∧ s.dir.snoops.find? (fun y => y.master == .port p && y.tag == tag && !y.waitWb) = some x ∧ x.op ≠ .inv ∧ x.scope = 0
       ∧ s.supersedes t = false)
    ∧ (let s : State := (let s : State := snState (.port 3) .read (tx .evict); { s with dir := { s.dir with snoops := [{ sn (.port 3) .read 4 with scope := 1 }] } });
     let p : Fin 16 := 3;
     let tag : BitVec 12 := 4;
     let x : Snoop := { sn (.port 3) .read 4 with scope := 1 };
     let data : List Byte := List.replicate 128 5;
     data.length = 128 ∧ s.takesRsp p 17 = true
       ∧ s.dir.snoops.find? (fun y => y.master == .port p && y.tag == tag && !y.waitWb) = some x ∧ x.scope ≠ 0
       ∧ s.num (Obj.resumeEnable p) ≠ 0 ∧ s.ports[p].degradeAt ≠ s.dev.now + 1)
    ∧ (let s : State := snState (.port 3) .inv (tx .clone);
     let p : Fin 16 := 3;
     let tag : BitVec 12 := 4;
     s.ports[p].state = .up ∧ s.ports[p].degradeAt ≠ s.dev.now + 1
       ∧ s.dir.snoops.any (fun x => x.master == .port p && x.tag == tag) = true)
    ∧ (let s : State := snState .ep .inv (tx .evict);
     let tag : BitVec 12 := 4;
     s.dir.snoops.any (fun x => x.master == .ep && x.tag == tag) = true)
    ∧ (let s : State := snState .ep .inv { tx .evict with pend := 0};
     let line : BitVec 37 := 70;
     let t : Txn := { tx .evict with pend := 0};
     s.txn line.toNat = some t ∧ t.pend = 0 ∧ t.wbWait = false ∧ t.who = .evict ∧ s.tide.jobs = [] ∧ s.tide.clone = none
       ∧ (∀ e ∈ s.ctl.regions, e.2.st = .open ∧ e.2.act = .none) ∧ s.num Obj.dirFlipMask = 0 ∧ s.num Obj.dirSplitWrite = 0) :=
  of_dec (by haveI := decAllows; haveI := decBlob; haveI := decReaches; haveI := decTlp; haveI := @decRange; infer_instance) (by decide +kernel)

theorem witness_BollardOperations :
    (let s : State := bolS;
     let p : Fin 16 := 3;
     let h : Hdr := hb 0 2;
     let a : U64 := 0;
     let b := h.addr.toNat;
     let free (k : BolOp) : Prop := s.alone p h (.bol k a) = true ∧ s.aluFenced = false ∧ s.path.bolPar.contains b = false ∧ s.path.bolBad.contains b = false ∧ s.num Obj.bollardFlipMask = 0 ∧ bit (s.num (Obj.bollardGroupMask (b / 256))) p = true ∧ (∀ x ∈ s.path.waiters, x.req ≠ s.dev.serial);
     free .add)
    ∧ (let s : State := bolS;
     let p : Fin 16 := 3;
     let h : Hdr := hb 0 2;
     let a : U64 := 0;
     let b := h.addr.toNat;
     let free (k : BolOp) : Prop := s.alone p h (.bol k a) = true ∧ s.aluFenced = false ∧ s.path.bolPar.contains b = false ∧ s.path.bolBad.contains b = false ∧ s.num Obj.bollardFlipMask = 0 ∧ bit (s.num (Obj.bollardGroupMask (b / 256))) p = true ∧ (∀ x ∈ s.path.waiters, x.req ≠ s.dev.serial);
     free .signal)
    ∧ (let s : State := bolS;
     let p : Fin 16 := 3;
     let h : Hdr := hb 0 2;
     let a : U64 := 0;
     let b := h.addr.toNat;
     let free (k : BolOp) : Prop := s.alone p h (.bol k a) = true ∧ s.aluFenced = false ∧ s.path.bolPar.contains b = false ∧ s.path.bolBad.contains b = false ∧ s.num Obj.bollardFlipMask = 0 ∧ bit (s.num (Obj.bollardGroupMask (b / 256))) p = true ∧ (∀ x ∈ s.path.waiters, x.req ≠ s.dev.serial);
     free .reset)
    ∧ (let s : State := bolS;
     let p : Fin 16 := 3;
     let h : Hdr := hb 0 2;
     let a : U64 := 0;
     let b := h.addr.toNat;
     let v := s.bollard b;
     let free (k : BolOp) : Prop := s.alone p h (.bol k a) = true ∧ s.aluFenced = false ∧ s.path.bolPar.contains b = false ∧ s.path.bolBad.contains b = false ∧ s.num Obj.bollardFlipMask = 0 ∧ bit (s.num (Obj.bollardGroupMask (b / 256))) p = true ∧ (∀ x ∈ s.path.waiters, x.req ≠ s.dev.serial);
     free .waitGe ∧ (v - a).toNat < 2 ^ 63)
    ∧ (let s : State := bolS;
     let p : Fin 16 := 3;
     let h : Hdr := hb 0 2;
     let a : U64 := 4;
     let b := h.addr.toNat;
     let v := s.bollard b;
     let t := h.attr.toNat % 32;
     let free (k : BolOp) : Prop := s.alone p h (.bol k a) = true ∧ s.aluFenced = false ∧ s.path.bolPar.contains b = false ∧ s.path.bolBad.contains b = false ∧ s.num Obj.bollardFlipMask = 0 ∧ bit (s.num (Obj.bollardGroupMask (b / 256))) p = true ∧ (∀ x ∈ s.path.waiters, x.req ≠ s.dev.serial);
     free .waitGe ∧ 2 ^ 63 ≤ (v - a).toNat ∧ t = 0)
    ∧ (let s : State := bolS;
     let p : Fin 16 := 3;
     let h : Hdr := hb 31 2;
     let a : U64 := 4;
     let b := h.addr.toNat;
     let v := s.bollard b;
     let t := h.attr.toNat % 32;
     let free (k : BolOp) : Prop := s.alone p h (.bol k a) = true ∧ s.aluFenced = false ∧ s.path.bolPar.contains b = false ∧ s.path.bolBad.contains b = false ∧ s.num Obj.bollardFlipMask = 0 ∧ bit (s.num (Obj.bollardGroupMask (b / 256))) p = true ∧ (∀ x ∈ s.path.waiters, x.req ≠ s.dev.serial);
     free .waitGe ∧ 2 ^ 63 ≤ (v - a).toNat ∧ t ≠ 0 ∧ s.path.waiters.length < 16384)
    ∧ (let s : State := bol bolS 2 3;
     let p : Fin 16 := 3;
     let h : Hdr := hb 0 2;
     let a : U64 := 4;
     let b := h.addr.toNat;
     let v := s.bollard b;
     let free (k : BolOp) : Prop := s.alone p h (.bol k a) = true ∧ s.aluFenced = false ∧ s.path.bolPar.contains b = false ∧ s.path.bolBad.contains b = false ∧ s.num Obj.bollardFlipMask = 0 ∧ bit (s.num (Obj.bollardGroupMask (b / 256))) p = true ∧ (∀ x ∈ s.path.waiters, x.req ≠ s.dev.serial);
     free .arrive ∧ s.path.waiters.any (fun x => x.bol == b && x.n.isSome && x.n != some (a.toNat % 2 ^ 32)) = false
       ∧ v.toNat + 2 ^ 32 < 2 ^ 64 ∧ (v.toNat + 1) % (a.toNat % 2 ^ 32) = 0)
    ∧ (let s : State := bolS;
     let p : Fin 16 := 3;
     let h : Hdr := hb 31 2;
     let a : U64 := 4;
     let b := h.addr.toNat;
     let v := s.bollard b;
     let t := h.attr.toNat % 32;
     let free (k : BolOp) : Prop := s.alone p h (.bol k a) = true ∧ s.aluFenced = false ∧ s.path.bolPar.contains b = false ∧ s.path.bolBad.contains b = false ∧ s.num Obj.bollardFlipMask = 0 ∧ bit (s.num (Obj.bollardGroupMask (b / 256))) p = true ∧ (∀ x ∈ s.path.waiters, x.req ≠ s.dev.serial);
     free .arrive ∧ s.path.waiters.any (fun x => x.bol == b && x.n.isSome && x.n != some (a.toNat % 2 ^ 32)) = false
       ∧ v.toNat + 2 ^ 32 < 2 ^ 64 ∧ (v.toNat + 1) % (a.toNat % 2 ^ 32) ≠ 0 ∧ t ≠ 0 ∧ s.path.waiters = [])
    ∧ (let s : State := bolS;
     let p : Fin 16 := 3;
     let h : Hdr := hb 0 2;
     let a : U64 := 0;
     let b := h.addr.toNat;
     let free (k : BolOp) : Prop := s.alone p h (.bol k a) = true ∧ s.aluFenced = false ∧ s.path.bolPar.contains b = false ∧ s.path.bolBad.contains b = false ∧ s.num Obj.bollardFlipMask = 0 ∧ bit (s.num (Obj.bollardGroupMask (b / 256))) p = true ∧ (∀ x ∈ s.path.waiters, x.req ≠ s.dev.serial);
     free .cancel) :=
  of_dec (by haveI := decAllows; haveI := decBlob; haveI := decReaches; haveI := decTlp; haveI := @decRange; infer_instance) (by decide +kernel)

theorem witness_BollardWaitsEnd :
    (let s : State := { svUp with path := { svUp.path with reqs := [bolReq], waiters := [wt 2 50 none 5] } };
     let p : Fin 16 := 3;
     let x : Waiter := wt 2 50 none 5;
     let r : Req := bolReq;
     let b : BitVec 14 := 2;
     s.ports[p].state = .up ∧ s.req x.req = some r ∧ r.via = .link ∧ r.hdr.src = .port p ∧ r.stage = .bollard ∧ r.wbFor = false
       ∧ s.path.waiters = [x] ∧ x.bol = b.toNat ∧ x.limit.isSome = true ∧ x.ready = none)
    ∧ (let s : State := { svUp with path := { svUp.path with reqs := [bolReq], waiters := [wt 3 9 none 9, {wt 2 50 none 5 with ready := some 3, val := 77}] } };
     let p : Fin 16 := 3;
     let x : Waiter := {wt 2 50 none 5 with ready := some 3, val := 77};
     let r : Req := bolReq;
     s.ports[p].state = .up ∧ s.req x.req = some r ∧ r.via = .link ∧ r.hdr.src = .port p ∧ r.stage = .bollard ∧ r.wbFor = false
       ∧ s.path.disp ≠ s.dev.now + 1 ∧ s.path.waiters.filter (fun y => y.ready.isSome) = [x]) :=
  of_dec (by haveI := decAllows; haveI := decBlob; haveI := decReaches; haveI := decTlp; haveI := @decRange; infer_instance) (by decide +kernel)

end Sys2Proof.Tests.Objects
end

