-- ==== Sys2Proof/Tests/Paths.lean ====
section
/-! SUPPORT. Witnesses: for each clause of the statements named, a state and operands that meet its hypotheses together. -/

namespace Sys2Proof.Tests.Paths

open Sys2Proof.Machine

set_option Elab.async false
set_option maxRecDepth 100000
set_option synthInstance.maxSize 100000
set_option synthInstance.maxHeartbeats 400000

def near (loc : Nat) : Copy := ⟨1, loc, 0, 1024, false, 0⟩
def rwS (m : Mode) : State := let s := rs m; { s with tide := { s.tide with map := [(0, { TEntry.unwritten with pstate := .resident, a := near 5 }), (1, { TEntry.unwritten with pstate := .resident, a := ⟨2, 9, 0, 1024, false, 0⟩ })] } }
def owned (s : State) (l : Nat) : State := { s with dir := { s.dir with ents := [(l, { DEntry.none with st := .exclusive, owner := 3, ownLocal := true })] } }
def gr (n : Nat) : Gran := ⟨(List.range 64).map (fun i => BitVec.ofNat 8 (n + i)), false⟩
def slm : StoreLine := ⟨gr 1, gr 70, 3, false, false, 0, false, md 0, none⟩
def homeS : State := let s := rs (md 0); { s with path := { s.path with store := [(1, slm)], sr := 12345 }, dir := { s.dir with ents := [(1, { DEntry.none with st := .home })] } }
def wk : Nat := 2^38 + 10
def ac (wr : Bool) (p : Purpose) : Acc := ⟨7, wr, some 100, p, 64, 3, 40000, false, 1, [wk], [], if wr then [⟨wk, gr 3, 256, 9⟩] else [], 0, 0⟩
def chS (f : ChanSt → ChanSt) (rs : List Req) : State := { svUp with path := { svUp.path with reqs := rs }, dram := { svUp.dram with chans := [(5, f ChanSt.idle)] } }
def rqm : Req := { rqh with stage := .mem, mode := some (md 0), need := [wk], line := 0, page := 0, writes := 0, tweaks := [(wk, 7)] } where rqh : Req := sv.newReq 100 h0 .readHalf 0 .link
def rqw : Req := { rqw0 with stage := .mem, mode := some (md 0), line := 0, page := 0, writes := 1 } where rqw0 : Req := sv.newReq 100 h0 (.write (List.replicate 128 5)) 0 .link
def retS : State := let s := chS (fun x => { x with flight := [ac false .read] }) [rqm]
  { s with tide := { s.tide with map := [(0, { TEntry.unwritten with pstate := .resident, a := ⟨1, 10, 0, 1024, false, 0⟩ })] }, dram := { s.dram with mem := [(wk * 64, 3), (wk*64+63, 4)], gmeta := [(wk, ⟨false, 256, [], 7⟩)] } }
def blkOf0 (st : BlockSt) (d : Bool) : Block := ⟨st, [gr 4], d, md 0, 3, 0⟩
def bS (st : BlockSt) (d : Bool) : State := { svUp with path := { svUp.path with blocks := [(18, blkOf0 st d)], useClock := 77 } }

theorem witness_ReadsReturnZerosWithGrants :
    (let s : State := rs (md 0);
     let p : Fin 16 := 3;
     let h : Hdr := ha 0 128;
     let m : Mode := md 0;
     let l := lineOf (addrOff h.addr);
     let fresh (op : ReqOp) : Prop := s.reaches p h op m ∧ s.calm l = true ∧ s.wayFree l = true ∧ (s.line l).st = .uncached ∧ s.storeLine l = none ∧ (s.entry (l / 512)).pstate = .unwritten;
     fresh .read)
    ∧ (let s : State := rs (md 0);
     let p : Fin 16 := 3;
     let h : Hdr := ha 0 128;
     let m : Mode := md 0;
     let l := lineOf (addrOff h.addr);
     let fresh (op : ReqOp) : Prop := s.reaches p h op m ∧ s.calm l = true ∧ s.wayFree l = true ∧ (s.line l).st = .uncached ∧ s.storeLine l = none ∧ (s.entry (l / 512)).pstate = .unwritten;
     fresh .readExcl)
    ∧ (let s : State := rs (md 0);
     let p : Fin 16 := 3;
     let h : Hdr := ha 0 128;
     let m : Mode := md 0;
     let l := lineOf (addrOff h.addr);
     let fresh (op : ReqOp) : Prop := s.reaches p h op m ∧ s.calm l = true ∧ s.wayFree l = true ∧ (s.line l).st = .uncached ∧ s.storeLine l = none ∧ (s.entry (l / 512)).pstate = .unwritten;
     fresh .readOnce)
    ∧ (let s : State := rs (md 0);
     let p : Fin 16 := 3;
     let h : Hdr := ha 0 128;
     let m : Mode := md 0;
     let l := lineOf (addrOff h.addr);
     let fresh (op : ReqOp) : Prop := s.reaches p h op m ∧ s.calm l = true ∧ s.wayFree l = true ∧ (s.line l).st = .uncached ∧ s.storeLine l = none ∧ (s.entry (l / 512)).pstate = .unwritten;
     fresh .readHalf) :=
  of_dec (by haveI := decAllows; haveI := decBlob; haveI := decReaches; haveI := decTlp; haveI := @decRange; infer_instance) (by decide +kernel)

theorem witness_WritesGoToTheirChannels :
    (let s : State := rwS (md 0);
     let p : Fin 16 := 3;
     let h : Hdr := ha 0 128;
     let m : Mode := {md 0 with region := 0};
     let d : List Byte := (List.range 128).map (BitVec.ofNat 8);
     let l := lineOf (addrOff h.addr);
     let a := (s.entry (l / 512)).a;
     let g := l * 2 % 1024;
     let raw (op : ReqOp) : Prop := s.reaches p h op m ∧ s.calm l = true ∧ s.rawPage (l / 512) = true ∧ s.storeLine l = none ∧ s.path.store = [] ∧ s.keyFenced (a.key g) = false ∧ s.keyFenced (a.key (g + 1)) = false;
     d.length = 128 ∧ raw (.write d) ∧ (s.line l).st = .uncached)
    ∧ (let s : State := owned (rwS (md 0)) 1;
     let p : Fin 16 := 3;
     let h : Hdr := ha 0 128;
     let m : Mode := {md 0 with region := 0};
     let d : List Byte := (List.range 128).map (BitVec.ofNat 8);
     let l := lineOf (addrOff h.addr);
     let a := (s.entry (l / 512)).a;
     let g := l * 2 % 1024;
     let raw (op : ReqOp) : Prop := s.reaches p h op m ∧ s.calm l = true ∧ s.rawPage (l / 512) = true ∧ s.storeLine l = none ∧ s.path.store = [] ∧ s.keyFenced (a.key g) = false ∧ s.keyFenced (a.key (g + 1)) = false;
     d.length = 128 ∧ raw (.writeback d) ∧ s.ownsLine (s.newReq s.dev.serial h (.writeback d) 0 .link) l = true)
    ∧ (let s : State := rwS (md 0);
     let p : Fin 16 := 3;
     let h : Hdr := ha 0 128;
     let m : Mode := {md 0 with region := 0};
     let d : List Byte := List.replicate 64 7;
     let l := lineOf (addrOff h.addr);
     let a := (s.entry (l / 512)).a;
     let g := l * 2 % 1024;
     let raw (op : ReqOp) : Prop := s.reaches p h op m ∧ s.calm l = true ∧ s.rawPage (l / 512) = true ∧ s.storeLine l = none ∧ s.path.store = [] ∧ s.keyFenced (a.key g) = false ∧ s.keyFenced (a.key (g + 1)) = false;
     let mask : BitVec 64 := BitVec.allOnes 64;
     d.length = 64 ∧ raw (.writeMasked mask d) ∧ (s.line l).st = .uncached) :=
  of_dec (by haveI := decAllows; haveI := decBlob; haveI := decReaches; haveI := decTlp; haveI := @decRange; infer_instance) (by decide +kernel)

theorem witness_ReleasesAndFences :
    (let s : State := owned (rs (md 0)) 1;
     let p : Fin 16 := 3;
     let h : Hdr := ha 0 128;
     let m : Mode := md 0;
     let l := lineOf (addrOff h.addr);
     s.reaches p h .releaseClean m ∧ s.calm l = true ∧ m.coh ≤ 1 ∧ h.node = none ∧ (s.line l).st = .exclusive
       ∧ (s.line l).ownLocal = true ∧ (s.line l).owner = BitVec.ofNat 18 p)
    ∧ (let s : State := let s := rs (md 1); { s with dir := { s.dir with ents := [(1, { DEntry.none with st := .shared, l0 := 9, l1 := 5 }), (512, { DEntry.none with st := .shared, l0 := 8})] } };
     let p : Fin 16 := 3;
     let h : Hdr := ha 0 128;
     let m : Mode := md 1;
     let l := lineOf (addrOff h.addr);
     s.reaches p h .releaseClean m ∧ s.calm l = true ∧ m.coh ≤ 1 ∧ h.node = none ∧ (s.line l).st = .shared)
    ∧ (let s : State := owned (rs (md 0)) 1;
     let p : Fin 16 := 3;
     let h : Hdr := ha 0 128;
     s.alone p h .fence = true) :=
  of_dec (by haveI := decAllows; haveI := decBlob; haveI := decReaches; haveI := decTlp; haveI := @decRange; infer_instance) (by decide +kernel)

theorem witness_AtomicsOnHeldLines :
    (let s : State := homeS;
     let p : Fin 16 := 3;
     let h : Hdr := ha 2 132;
     let m : Mode := md 0;
     let x : StoreLine := slm;
     let l := lineOf (addrOff h.addr);
     let held (op : ReqOp) : Prop := s.reaches p h op m ∧ s.calm l = true ∧ (s.line l).st = .home ∧ (s.entry (l / 512)).pstate = .unwritten ∧ s.storeLine l = some x ∧ x.filling = false ∧ x.leaving = false ∧ x.badPar = false ∧ x.lo.poison = false ∧ x.hi.poison = false ∧ x.lo.bytes.length = 64 ∧ x.hi.bytes.length = 64 ∧ s.num Obj.aluFlipMask = 0;
     let a : U64 := 0;
     held (.add a))
    ∧ (let s : State := homeS;
     let p : Fin 16 := 3;
     let h : Hdr := ha 2 132;
     let m : Mode := md 0;
     let x : StoreLine := slm;
     let l := lineOf (addrOff h.addr);
     let held (op : ReqOp) : Prop := s.reaches p h op m ∧ s.calm l = true ∧ (s.line l).st = .home ∧ (s.entry (l / 512)).pstate = .unwritten ∧ s.storeLine l = some x ∧ x.filling = false ∧ x.leaving = false ∧ x.badPar = false ∧ x.lo.poison = false ∧ x.hi.poison = false ∧ x.lo.bytes.length = 64 ∧ x.hi.bytes.length = 64 ∧ s.num Obj.aluFlipMask = 0;
     let c : U64 := 0;
     let v : U64 := 0;
     held (.cas c v))
    ∧ (let s : State := homeS;
     let p : Fin 16 := 3;
     let h : Hdr := ha 0 128;
     let m : Mode := md 0;
     let x : StoreLine := slm;
     let l := lineOf (addrOff h.addr);
     let held (op : ReqOp) : Prop := s.reaches p h op m ∧ s.calm l = true ∧ (s.line l).st = .home ∧ (s.entry (l / 512)).pstate = .unwritten ∧ s.storeLine l = some x ∧ x.filling = false ∧ x.leaving = false ∧ x.badPar = false ∧ x.lo.poison = false ∧ x.hi.poison = false ∧ x.lo.bytes.length = 64 ∧ x.hi.bytes.length = 64 ∧ s.num Obj.aluFlipMask = 0;
     let a : U64 := 0;
     held (.fadd a))
    ∧ (let s : State := homeS;
     let p : Fin 16 := 3;
     let h : Hdr := ha 0 128;
     let m : Mode := md 0;
     let x : StoreLine := slm;
     let l := lineOf (addrOff h.addr);
     let held (op : ReqOp) : Prop := s.reaches p h op m ∧ s.calm l = true ∧ (s.line l).st = .home ∧ (s.entry (l / 512)).pstate = .unwritten ∧ s.storeLine l = some x ∧ x.filling = false ∧ x.leaving = false ∧ x.badPar = false ∧ x.lo.poison = false ∧ x.hi.poison = false ∧ x.lo.bytes.length = 64 ∧ x.hi.bytes.length = 64 ∧ s.num Obj.aluFlipMask = 0;
     let a : U64 := 0;
     held (.bfadd a))
    ∧ (let s : State := homeS;
     let p : Fin 16 := 3;
     let h : Hdr := ha 0 128;
     let m : Mode := md 0;
     let x : StoreLine := slm;
     let l := lineOf (addrOff h.addr);
     let held (op : ReqOp) : Prop := s.reaches p h op m ∧ s.calm l = true ∧ (s.line l).st = .home ∧ (s.entry (l / 512)).pstate = .unwritten ∧ s.storeLine l = some x ∧ x.filling = false ∧ x.leaving = false ∧ x.badPar = false ∧ x.lo.poison = false ∧ x.hi.poison = false ∧ x.lo.bytes.length = 64 ∧ x.hi.bytes.length = 64 ∧ s.num Obj.aluFlipMask = 0;
     let d : List Byte := List.replicate 128 0x41;
     d.length = 128 ∧ held (.vec d)) :=
  of_dec (by haveI := decAllows; haveI := decBlob; haveI := decReaches; haveI := decTlp; haveI := @decRange; infer_instance) (by decide +kernel)

theorem witness_ChannelsServeAccesses :
    (let s : State := chS (fun x => { x with wait := [ac true .write] }) [rqw];
     let c : Chan := .near 0 5;
     let a : Acc := ac true .write;
     (s.chan (chanNum c)).sr = .no ∧ (s.chan (chanNum c)).admAt ≠ s.dev.now / 2 + 1 ∧ s.pickAcc (chanNum c) = some a ∧ a.write = true
       ∧ a.purpose = .write ∧ s.num Obj.parityFlipPath = 0)
    ∧ (let s : State := chS (fun x => { x with wait := [ac false .read] }) [rqm];
     let c : Chan := .near 0 5;
     let a : Acc := ac false .read;
     (s.chan (chanNum c)).sr = .no ∧ (s.chan (chanNum c)).admAt ≠ s.dev.now / 2 + 1 ∧ s.pickAcc (chanNum c) = some a ∧ a.write = false
       ∧ a.keys ≠ [] ∧ (∀ k ∈ a.keys, s.queued k = none))
    ∧ (let s : State := chS (fun x => { x with wq := [ac true .write] }) [rqm];
     let c : Chan := .near 0 5;
     let a : Acc := ac true .write;
     let rest : List Acc := [];
     let w : GW := ⟨wk, gr 3, 256, 9⟩;
     (s.chan (chanNum c)).sr = .no ∧ (s.chan (chanNum c)).issAt ≠ s.dev.now / 2 + 1 ∧ (s.chan (chanNum c)).recal = false
       ∧ (s.chan (chanNum c)).wq = a :: rest ∧ (s.chan (chanNum c)).rq = [] ∧ (s.chan (chanNum c)).flight = [] ∧ a.wr = [w]
       ∧ chanOf w.key = chanNum c ∧ keyTier w.key ≠ 3 ∧ w.gran.poison = false ∧ w.gran.bytes.length = 64 ∧ s.num Obj.eccFlipMask = 0
       ∧ (∀ k : Fin 8, s.num (Obj.stackSplitWrite k) = 0) ∧ (∀ k : Fin 24, s.num (Obj.chSplitWrite k) = 0))
    ∧ (let s : State := chS (fun x => { x with rq := [ac false .read] }) [rqm];
     let c : Chan := .near 0 5;
     let a : Acc := ac false .read;
     let rest : List Acc := [];
     (s.chan (chanNum c)).sr = .no ∧ (s.chan (chanNum c)).issAt ≠ s.dev.now / 2 + 1 ∧ (s.chan (chanNum c)).recal = false
       ∧ (s.chan (chanNum c)).wq = [] ∧ (s.chan (chanNum c)).rq = a :: rest ∧ (∀ k ∈ a.keys, chanOf k = chanNum c))
    ∧ (let s : State := retS;
     let c : Chan := .near 0 5;
     let a : Acc := ac false .read;
     let r : Req := rqm;
     let m : Mode := md 0;
     let p : Fin 16 := 3;
     let k : Nat := wk;
     let rest : List Acc := [];
     (s.chan (chanNum c)).flight = a :: rest ∧ a.owner = some r.id ∧ a.purpose = .read ∧ a.keys = [k] ∧ a.got = [] ∧ s.req r.id = some r
       ∧ r.via = .link ∧ r.hdr.src = .port p ∧ s.ports[p].state = .up ∧ r.stage = .mem ∧ r.op = .readHalf ∧ addrView r.hdr.addr = 0
       ∧ r.mode = some m ∧ r.need = [k] ∧ r.got = [] ∧ r.wbFor = false ∧ r.grant = 0 ∧ (s.copyA r.page).tier ≠ 0
       ∧ (s.copyA r.page).comp = false ∧ (s.copyA r.page).key (addrOff r.hdr.addr / 64 % 1024) = k ∧ (s.gmeta k).poison = false
       ∧ (s.gmeta k).v0 = State.v0Of m ∧ (s.gmeta k).errs = [] ∧ (r.tweaks.find? (fun e => e.1 == k)).map (·.2) = some (s.seenTweak k)
       ∧ s.dram.keyBad = [] ∧ s.storeLine (addrOff r.hdr.addr / 64 / 2) = none ∧ s.num Obj.parityFlipPath = 0) :=
  of_dec (by haveI := decAllows; haveI := decBlob; haveI := decReaches; haveI := decTlp; haveI := @decRange; infer_instance) (by decide +kernel)

theorem witness_StoresFillAndEmpty :
    (let s : State := { homeS with path := { homeS.path with store := [(1, { slm with leaving := true})] } };
     let line : BitVec 37 := 1;
     let x : StoreLine := { slm with leaving := true};
     s.storeLine line.toNat = some x ∧ x.leaving = true ∧ s.req x.wb = none ∧ s.txn line.toNat = none ∧ (s.line line.toNat).st = .home)
    ∧ (let s : State := bS .installing false;
     let page : BitVec 28 := 1;
     let blk : BitVec 4 := 2;
     let b : Block := blkOf0 .installing false;
     s.block (page.toNat * 16 + blk.toNat) = some b ∧ b.st = .installing ∧ (s.copyA page.toNat).tier = 0)
    ∧ (let s : State := bS .present false;
     let page : BitVec 28 := 1;
     let blk : BitVec 4 := 2;
     let b : Block := blkOf0 .present false;
     s.block (page.toNat * 16 + blk.toNat) = some b ∧ b.st = .present ∧ b.dirty = false)
    ∧ (let s : State := bS .evicting true;
     let page : BitVec 28 := 1;
     let blk : BitVec 4 := 2;
     let b : Block := blkOf0 .evicting true;
     s.block (page.toNat * 16 + blk.toNat) = some b ∧ b.st = .evicting ∧ b.dirty = true)
    ∧ (let s : State := bS .evicting false;
     let page : BitVec 28 := 1;
     let blk : BitVec 4 := 2;
     let b : Block := blkOf0 .evicting false;
     s.block (page.toNat * 16 + blk.toNat) = some b ∧ b.st = .evicting ∧ b.dirty = false)
    ∧ (let s : State := { svUp with tide := { svUp.tide with placing := [0, 1] }, path := { svUp.path with reqs := [{ rqw with stage := .tide, page := 1}] } };
     let page : BitVec 28 := 1;
     s.tide.placing.contains page.toNat = true) :=
  of_dec (by haveI := decAllows; haveI := decBlob; haveI := decReaches; haveI := decTlp; haveI := @decRange; infer_instance) (by decide +kernel)

end Sys2Proof.Tests.Paths
end

