-- ==== Sys2Proof/Tests/Regions.lean ====
section
/-! SUPPORT. Witnesses: for each clause of the statements named, a state and operands that meet its hypotheses together. -/

namespace Sys2Proof.Tests.Regions

open Sys2Proof.Machine

set_option Elab.async false
set_option maxRecDepth 100000
set_option synthInstance.maxSize 100000
set_option synthInstance.maxHeartbeats 400000

def sessOpen (s : State) : State := { s with ctl := { s.ctl with sessions := [(0, ⟨true, 1000, 1000⟩), (1, ⟨true, 1, 1⟩)] } }
def only (s : State) (k : Nat) (r : Region) : State := { s with ctl := { s.ctl with regions := FMap.set Region.free [] k r } }
def base : State := withNums (sessOpen (realm0 (rich svUp))) [(Obj.realmMask 0, 0x1FFFF), (Obj.vbatMv, 3000)]
def stage (k : Nat) (m : Mode) (s : State) : State := withNums s [(Obj.regionBase k, m.base), (Obj.regionLength k, m.len), (Obj.regionFormat k, m.format), (Obj.regionTierPolicy k, m.tier), (Obj.regionCompression k, m.comp), (Obj.regionCoherence k, m.coh), (Obj.regionPortMask k, m.mask.toNat), (Obj.regionSession k, m.session), (Obj.regionDefaultClass k, m.cls), (Obj.regionRealm k, m.realm)]
def gm : Mode := { md 0 with atom := false, len := 2^18, base := 2^16 }
def near (loc : Nat) : Copy := ⟨1, loc, 0, 1024, false, 0⟩
def pages (s : State) : State := { s with tide := { s.tide with map := [(0, { TEntry.unwritten with pstate := .resident, a := near (83990*1024) }), (1, { TEntry.unwritten with pstate := .resident, a := near (83991*1024), role := .lower, b := near (83992*1024) }), (9, { TEntry.unwritten with pstate := .resident, a := near (83993*1024) })], bays := [(83990, 1), (83991, 2), (83992, 2), (83993, 10)] } }
def im : Mode := { gm with comp := 3, coh := 3, ingest := 256 }
def imgHdr : List Byte := [0x53,0x48,0x47,0x4C,1,1,1,0] ++ leBytes 4 0 ++ leBytes 8 256 ++ zeros 44
def memOf (a : Nat) (bs : List Byte) : FMap Byte := ((List.range bs.length).zip bs).filterMap (fun x => if x.2 = 0 then none else some (a + x.1, x.2)) 
def imgS (bs : List Byte) : State := let s := pages (only base 3 { reg im with st := .sealing, tables := [16, 17] }); { s with dram := { s.dram with mem := memOf ((2^38 + 83991*1024)*64) bs, gmeta := (List.range 1024).map (fun g => (2^38 + 83991*1024 + g, ⟨false, 256, [], s.tweak 1 (near (83991*1024)) g⟩)) } }
def rec1 : List Byte := let f := fmtOf 1; slice ([1, BitVec.ofNat 8 f.bitsC, 1, 0] ++ zeros (f.alpha/2)) 0 192
def w1s : Who := w0

theorem witness_RegionsCommitAndRetire :
    (let s : State := stage 3 gm base;
     let w : Who := w0;
     let k : BitVec 12 := 3;
     let r := s.region k.toNat;
     let key := Obj.regionAction k.toNat;
     let alone : Prop := s.tide.jobs = [] ∧ ∀ e ∈ s.tide.map, e.2.pstate ≠ .shared;
     let free : Prop := w.ok = true ∧ s.h3Busy = false ∧ s.ctl.h3 = [] ∧ s.ringReserved true k.toNat = false;
     let m := s.stagedMode k.toNat;
     let pages := State.reservation m;
     let near := m.tier == 1;
     let lim := s.session m.session;
     free ∧ alone ∧ r = { Region.free with was := r.was, encWas := r.encWas } ∧ s.num Obj.nearFillState = 2 ∧ s.modeFault m = none
       ∧ s.overlaps k.toNat m = none ∧ s.sessionUse m.session near + pages ≤ (if near then lim.near else lim.far)
       ∧ (s.setRegion k.toNat { r with act := .commit, who := some w, staged := m, pages := pages, near := near }).pinRoom k.toNat m = true
       ∧ s.allows w key (leBytes 1 1))
    ∧ (let s : State := only base 3 { reg gm with act := .commit, who := some w0, staged := { gm with cls := 7 } };
     let w : Who := w0;
     let k : BitVec 12 := 3;
     let r := s.region k.toNat;
     let alone : Prop := s.tide.jobs = [] ∧ ∀ e ∈ s.tide.map, e.2.pstate ≠ .shared;
     (w.path = .t1s ∨ (w.path = .window ∧ w.peer = 0)) ∧ alone ∧ r.act = .commit ∧ r.who = some w ∧ s.commitWaits k.toNat = false
       ∧ s.ctl.h3 = [])
    ∧ (let s : State := pages (only base 3 (reg gm));
     let w : Who := w0;
     let k : BitVec 12 := 3;
     let r := s.region k.toNat;
     let key := Obj.regionAction k.toNat;
     let free : Prop := w.ok = true ∧ s.h3Busy = false ∧ s.ctl.h3 = [] ∧ s.ringReserved true k.toNat = false;
     free ∧ r.st = .open ∧ s.tide.jobs = [] ∧ s.dir.ents = [] ∧ s.dir.txns = [] ∧ s.dir.censusBad = [] ∧ s.allows w key (leBytes 1 3))
    ∧ (let s : State := pages (only base 3 { reg gm with st := .retiring });
     let k : BitVec 12 := 3;
     let r := s.region k.toNat;
     let lo := r.mode.base / 65536;
     let hi := (r.mode.base + r.mode.len) / 65536;
     r.st = .retiring ∧ s.retireQuiet k.toNat = true ∧ s.dir.ents = [] ∧ s.path.store = []
       ∧ (∀ p, lo ≤ p → p < hi → (s.entry p).pstate ≠ .shared ∧ s.stripeFaulted p = false))
    ∧ (let s : State := stage 3 gm base;
     let w : Who := w0;
     let k : BitVec 12 := 0;
     let r := s.region k.toNat;
     let key := Obj.regionAction k.toNat;
     let free : Prop := w.ok = true ∧ s.h3Busy = false ∧ s.ctl.h3 = [] ∧ s.ringReserved true k.toNat = false;
     free ∧ r.st = .free ∧ s.allows w key (leBytes 1 4))
    ∧ (let s : State := pages (only base 3 (reg gm));
     let w : Who := w0;
     let k : BitVec 12 := 3;
     let r := s.region k.toNat;
     let key := Obj.regionAction k.toNat;
     let free : Prop := w.ok = true ∧ s.h3Busy = false ∧ s.ctl.h3 = [] ∧ s.ringReserved true k.toNat = false;
     free ∧ r.st = .open ∧ s.allows w key (leBytes 1 4)) :=
  of_dec (by haveI := decAllows; haveI := decBlob; haveI := decReaches; haveI := decTlp; haveI := @decRange; infer_instance) (by decide +kernel)

theorem witness_SealingBuildsTables :
    (let s : State := pages (only base 3 (reg gm));
     let w : Who := w0;
     let k : BitVec 12 := 3;
     let r := s.region k.toNat;
     w.ok = true ∧ s.h3Busy = false ∧ s.ctl.h3 = [] ∧ s.ringReserved true k.toNat = false ∧ r.st = .open ∧ r.mode.comp ≠ 3
       ∧ s.dir.ents = [] ∧ s.dir.txns = [] ∧ s.dir.censusBad = [] ∧ s.allows w (Obj.regionAction k.toNat) (leBytes 1 2))
    ∧ (let s : State := (only base 3 { reg { gm with comp := 1} with st := .sealing});
     let k : BitVec 12 := 3;
     let r := s.region k.toNat;
     let x := s.regionTable k.toNat;
     let n : Nat := 16;
     r.st = .sealing ∧ (r.mode.comp = 1 ∨ r.mode.comp = 2) ∧ r.slot = 0 ∧ s.regionQuiet k.toNat = true ∧ x.2.freeSlot = some n
       ∧ x.2.region k.toNat = r)
    ∧ (let s : State := pages (only base 3 { reg gm with st := .sealing});
     let k : BitVec 12 := 3;
     let r := s.region k.toNat;
     r.st = .sealing ∧ r.mode.comp = 0 ∧ s.regionQuiet k.toNat = true ∧ s.dir.ents = [])
    ∧ (let s : State := imgS [];
     let k : BitVec 12 := 3;
     let r := s.region k.toNat;
     let x := State.imageRead (r.mode.ingest / 64) s k.toNat 0;
     r.st = .sealing ∧ r.mode.comp = 3 ∧ r.slot = 0 ∧ s.regionQuiet k.toNat = true ∧ State.readImage r.mode x.1 = none)
    ∧ (let s : State := imgS (imgHdr ++ rec1);
     let k : BitVec 12 := 3;
     let r := s.region k.toNat;
     let x := State.imageRead (r.mode.ingest / 64) s k.toNat 0;
     let tabs : List (List Nat) := [(recordLens rec1).get!.2];
     let pages : List State.ImgPage := [];
     r.st = .sealing ∧ r.mode.comp = 3 ∧ r.slot = 0 ∧ s.regionQuiet k.toNat = true ∧ State.readImage r.mode x.1 = some (tabs, pages)
       ∧ tabs.length ≤ r.tables.length ∧ r.tables.Nodup)
    ∧ (let s : State := pages (only base 3 (reg { gm with comp := 2}));
     let w : Who := w0;
     let k : BitVec 12 := 3;
     let r := s.region k.toNat;
     w.ok = true ∧ r.st = .open ∧ r.mode.comp = 2 ∧ s.ctl.retable = none ∧ s.freeSlot.isSome = true
       ∧ s.allows w Obj.retableRegion (leBytes 2 k.toNat))
    ∧ (let s : State := let s := (only base 3 (reg { gm with comp := 2})); { s with ctl := { s.ctl with retable := some (3, w0) } };
     let w : Who := w0;
     let k : BitVec 12 := 3;
     let r := s.region k.toNat;
     let s0 : State := { s with ctl := { s.ctl with retable := none } };
     let x := s0.regionTable k.toNat;
     let n : Nat := 16;
     (w.path = .t1s ∨ (w.path = .window ∧ w.peer = 0)) ∧ s.ctl.retable = some (k.toNat, w) ∧ s.ctl.leftOpen = false ∧ r.st = .open
       ∧ r.mode.comp = 2 ∧ x.2.freeSlot = some n) :=
  of_dec (by haveI := decAllows; haveI := decBlob; haveI := decReaches; haveI := decTlp; haveI := @decRange; infer_instance) (by decide +kernel)

theorem witness_SessionsTakeTheirLimits :
    (let s : State := withNums base [(Obj.sessionNearLimit 0, 500), (Obj.sessionFarLimit 0, 0), (Obj.sessionNearLimit 1, 1), (Obj.sessionFarLimit 1, 1)];
     let w : Who := w0;
     let n : BitVec 10 := 2;
     let x := s.session n.toNat;
     let fits : Prop := s.num Obj.nearFillState = 2 ∧ s.limitBreaks n.toNat true = false ∧ s.limitBreaks n.toNat false = false;
     w.ok = true ∧ s.h3Busy = false ∧ s.ringReserved false n.toNat = false ∧ x.isOpen = false ∧ fits
       ∧ s.allows w (Obj.sessionAction n.toNat) (leBytes 1 1))
    ∧ (let s : State := withNums base [(Obj.sessionNearLimit 0, 500), (Obj.sessionFarLimit 0, 0), (Obj.sessionNearLimit 1, 1), (Obj.sessionFarLimit 1, 1)];
     let w : Who := w0;
     let n : BitVec 10 := 0;
     let x := s.session n.toNat;
     let near := s.num (Obj.sessionNearLimit n.toNat);
     let far := s.num (Obj.sessionFarLimit n.toNat);
     let fits : Prop := s.num Obj.nearFillState = 2 ∧ s.limitBreaks n.toNat true = false ∧ s.limitBreaks n.toNat false = false;
     w.ok = true ∧ s.h3Busy = false ∧ s.ringReserved false n.toNat = false ∧ x.isOpen = true ∧ fits ∧ s.sessionUse n.toNat true ≤ near
       ∧ s.sessionUse n.toNat false ≤ far ∧ s.allows w (Obj.sessionAction n.toNat) (leBytes 1 2))
    ∧ (let s : State := withNums base [(Obj.sessionNearLimit 0, 500), (Obj.sessionFarLimit 0, 0), (Obj.sessionNearLimit 1, 1), (Obj.sessionFarLimit 1, 1)];
     let w : Who := w0;
     let n : BitVec 10 := 0;
     let x := s.session n.toNat;
     w.ok = true ∧ s.h3Busy = false ∧ s.ringReserved false n.toNat = false ∧ x.isOpen = true ∧ s.sessionRegions n.toNat = 0
       ∧ s.allows w (Obj.sessionAction n.toNat) (leBytes 1 3)) :=
  of_dec (by haveI := decAllows; haveI := decBlob; haveI := decReaches; haveI := decTlp; haveI := @decRange; infer_instance) (by decide +kernel)

end Sys2Proof.Tests.Regions
end

