-- ==== Sys2Proof/Tests/Resets.lean ====
section
/-! SUPPORT. Witnesses: for each clause of the statements named, a state and operands that meet its hypotheses together. -/

namespace Sys2Proof.Tests.Resets

open Sys2Proof.Machine

set_option Elab.async false
set_option maxRecDepth 100000
set_option synthInstance.maxSize 100000
set_option synthInstance.maxHeartbeats 400000

def pow (s : State) (f : Power → Power) : State := { s with mgmt := { s.mgmt with power := f s.mgmt.power } }
def dv (s : State) (x : DevState) : State := { s with dev := { s.dev with state := x } }
def bv (x : Option Spd) : BootView := ⟨true, true, x :: List.replicate 47 none⟩

theorem witness_ResetsAndStart :
    (let s : State := pow (dv State.reset .off) (fun p => { p with main := false, kind := 0 });
     s.updSt ≠ 5 ∧ s.updSt ≠ 7 ∧ (s.powered = false ∨ s.mgmt.power.kind = 0))
    ∧ (let s : State := pow svUp (fun p => {p with due := true});
     s.updSt ≠ 5 ∧ s.updSt ≠ 7 ∧ s.powered = true)
    ∧ (let s : State := pow svUp (fun p => {p with due := true});
     s.updSt ≠ 5 ∧ s.updSt ≠ 7 ∧ s.powered = true ∧ s.mgmt.power.due = true)
    ∧ (let s : State := pow svUp (fun p => {p with due := true});
     let rail : BitVec 4 := 1;
     s.updSt ≠ 5 ∧ s.updSt ≠ 7 ∧ s.powered = true ∧ 1 ≤ rail.toNat ∧ rail.toNat ≤ 9)
    ∧ (let s : State := pow svUp (fun p => {p with due := true});
     let w : Who := w0;
     s.updSt ≠ 5 ∧ s.updSt ≠ 7 ∧ w.ok = true ∧ s.allows w Obj.deviceReset (leBytes 1 0xA5))
    ∧ (let s : State := State.reset;
     s.updSt ≠ 5 ∧ s.updSt ≠ 7 ∧ s.dev.state = .reset ∧ s.mgmt.power.kind ≠ 0) :=
  of_dec (by haveI := decAllows; haveI := decBlob; haveI := decReaches; haveI := decTlp; haveI := @decRange; infer_instance) (by decide +kernel)

theorem witness_ResetsAndStart_start :
    (let s : State := dv sv .init;
     (s.updSt ≠ 5 ∧ s.updSt ≠ 7 ∧ s.dev.state = .init ∧ s.num Obj.nearFillState = 2 ∧ s.allTrained (List.range 32) = true)
       ∧ State.classFault ((List.range 64).map s.stagedClass) = none) :=
  ⟨of_dec (by haveI := decAllows; haveI := decBlob; haveI := decReaches; haveI := decTlp; haveI := @decRange; infer_instance) (by decide +kernel), default_classes⟩

theorem witness_HoldFollowsItsPin :
    (let s : State := sv;
     let calm (xs : List Nat) : Prop := (s.edges xs).length ≤ 16;
     let p := s.mgmt.power;
     s.powered = true ∧ p.hold = false ∧ calm p.holdChg ∧ s.num Obj.memholdState = 0)
    ∧ (let s : State := pow sv (fun p => { p with holdDue := 1 });
     let serving : Bool := s.dev.state == .service || s.dev.state == .degraded;
     let p := s.mgmt.power;
     s.powered = true ∧ p.holdDue ≠ 0 ∧ p.holdDue ≤ s.aonCycle ∧ (p.tampDue = 0 ∨ s.aonCycle < p.tampDue) ∧ serving = true)
    ∧ (let s : State := pow (withNums sv [(Obj.memholdState, 1)]) (fun p => { p with hold := true, phase := .entering});
     let calm (xs : List Nat) : Prop := (s.edges xs).length ≤ 16;
     let p := s.mgmt.power;
     s.powered = true ∧ p.hold = true ∧ calm p.holdChg ∧ s.num Obj.memholdState = 1)
    ∧ (let s : State := pow (dv (withNums sv [(Obj.memholdState, 1)]) .hold) (fun p => { p with hold := true, phase := .entering, holdChg := List.replicate 17 8000000});
     let calm (xs : List Nat) : Prop := (s.edges xs).length ≤ 16;
     let p := s.mgmt.power;
     s.powered = true ∧ p.hold = true ∧ ¬ calm p.holdChg ∧ s.num Obj.memholdState ≠ 2)
    ∧ (let s : State := pow (dv (withNums sv [(Obj.memholdState, 1)]) .hold) (fun p => { p with hold := true, phase := .entering});
     let p := s.mgmt.power;
     s.powered = true ∧ s.dev.state = .hold ∧ p.phase = .entering ∧ s.drained = true)
    ∧ (let s : State := pow (dv (withNums sv [(Obj.memholdState, 1)]) .hold) (fun p => { p with hold := true, phase := .entering});
     s.powered = true ∧ s.dev.state = .hold ∧ s.holdLevel = true)
    ∧ (let s : State := pow (dv (withNums sv []) .hold) (fun p => { p with phase := .exiting});
     let p := s.mgmt.power;
     s.powered = true ∧ s.dev.state = .hold ∧ p.phase = .exiting)
    ∧ (let s : State := pow (withNums sv [(Obj.memholdState, 2)]) (fun p => { p with hold := true});
     let p := s.mgmt.power;
     let w : Who := w0;
     let v : BitVec 8 := 0;
     s.powered = true ∧ w.ok = true ∧ s.num Obj.memholdState = 2 ∧ (∀ t ∈ p.holdChg, t + cyclesS ≤ s.dev.now)
       ∧ s.num Obj.tamperState ≠ 2 ∧ p.phase = .none ∧ p.held = none ∧ s.allows w Obj.pinChatterAck (leBytes 1 v.toNat)) :=
  of_dec (by haveI := decAllows; haveI := decBlob; haveI := decReaches; haveI := decTlp; haveI := @decRange; infer_instance) (by decide +kernel)

theorem witness_BackupDomainKeepsAlarms :
    (let s : State := sv;
     let p := s.mgmt.power;
     s.updSt ≠ 5 ∧ s.updSt ≠ 7 ∧ s.powered = true ∧ p.tamper = false ∧ (s.edges p.tampChg).length ≤ 16 ∧ s.num Obj.tamperState = 0
       ∧ s.num Obj.tamperAction ≠ 1)
    ∧ (let s : State := withNums sv [(Obj.tamperAction, 1)];
     let p := s.mgmt.power;
     s.updSt ≠ 5 ∧ s.updSt ≠ 7 ∧ s.powered = true ∧ p.tamper = false ∧ (s.edges p.tampChg).length ≤ 16 ∧ s.num Obj.tamperState = 0
       ∧ s.num Obj.tamperAction = 1)
    ∧ (let s : State := pow sv (fun p => { p with tampDue := 1 });
     let p := s.mgmt.power;
     s.updSt ≠ 5 ∧ s.updSt ≠ 7 ∧ p.tampDue ≠ 0 ∧ p.tampDue ≤ s.aonCycle)
    ∧ (let s : State := pow (withNums sv [(Obj.tamperState, 1)]) (fun p => {p with tamper := true});
     let p := s.mgmt.power;
     s.updSt ≠ 5 ∧ s.updSt ≠ 7 ∧ s.dev.state ≠ .off ∧ p.tamper = true ∧ (s.edges p.tampChg).length ≤ 16 ∧ s.num Obj.tamperState = 1
       ∧ p.held = none)
    ∧ (let s : State := pow (dv (withNums sv [(Obj.tamperState, 1), (Obj.vbatMv, 3000)]) .boot) (fun p => {p with tamper := true, held := some (bv none)});
     let p := s.mgmt.power;
     let x : BootView := bv none;
     s.updSt ≠ 5 ∧ s.updSt ≠ 7 ∧ s.dev.state ≠ .off ∧ p.tamper = true ∧ (s.edges p.tampChg).length ≤ 16 ∧ s.num Obj.tamperState = 1
       ∧ p.held = some x ∧ s.dev.state = .boot ∧ (∀ d ∈ x.dimms, ∀ y, d = some y → y.accepted = true))
    ∧ (let s : State := sv;
     s.updSt ≠ 5 ∧ s.updSt ≠ 7 ∧ s.powered = true)
    ∧ (let s : State := pow (dv State.reset .backup) (fun p => { p with main := false, kind := 0, causes := 2 });
     s.updSt ≠ 5 ∧ s.updSt ≠ 7 ∧ s.dev.state = .backup)
    ∧ (let s : State := sv;
     s.updSt ≠ 5 ∧ s.updSt ≠ 7 ∧ s.dev.state ≠ .backup)
    ∧ (let s : State := pow (dv State.reset .off) (fun p => { p with main := false, vbat := false, kind := 0 });
     s.updSt ≠ 5 ∧ s.updSt ≠ 7 ∧ s.dev.state = .off)
    ∧ (let s : State := pow (dv State.reset .backup) (fun p => { p with main := false, kind := 0, causes := 2 });
     s.updSt ≠ 5 ∧ s.updSt ≠ 7 ∧ s.powered = false)
    ∧ (let s : State := pow (dv State.reset .backup) (fun p => { p with main := false, kind := 0, causes := 2 });
     s.updSt ≠ 5 ∧ s.updSt ≠ 7 ∧ s.dev.state = .backup)
    ∧ (let s : State := sv;
     s.updSt ≠ 5 ∧ s.updSt ≠ 7 ∧ s.dev.state ≠ .off ∧ s.dev.state ≠ .backup)
    ∧ (let s : State := sv;
     let w : Who := w0;
     let v : BitVec 8 := 15;
     s.updSt ≠ 5 ∧ s.updSt ≠ 7 ∧ w.ok = true ∧ s.allows w Obj.backupAlarmAck (leBytes 1 v.toNat)) :=
  of_dec (by haveI := decAllows; haveI := decBlob; haveI := decReaches; haveI := decTlp; haveI := @decRange; infer_instance) (by decide +kernel)

end Sys2Proof.Tests.Resets
end

