-- ==== Sys2Proof/Tests/Rings.lean ====
section
/-! SUPPORT. Witnesses: for each clause of the statements named, a state and operands that meet its hypotheses together. -/

namespace Sys2Proof.Tests.Rings

open Sys2Proof.Machine

set_option Elab.async false
set_option maxRecDepth 100000
set_option synthInstance.maxSize 100000
set_option synthInstance.maxHeartbeats 400000

def epUp : Ep := { Ep.reset with ready := true, linkUp := true, memEnable := true, busMaster := true, shadow := 0x1000 }
def near (loc : Nat) : Copy := ⟨1, loc, 0, 1024, false, 0⟩
def ringMap : FMap TEntry := (List.range 16).map (fun p => (p, { TEntry.unwritten with pstate := .resident, a := near ((84000 + p) * 1024) }))
def ringS (r : Ring) : State :=
  let s := withNums (rs (md 2)) [(Obj.vbatMv, 3000), (Obj.regionBase 4095, 65536)]
  { s with ep := epUp, tide := { s.tide with map := ringMap }, mgmt := { s.mgmt with ring := r }, ctl := { s.ctl with sessions := [(1023, ⟨true, 64, 64⟩)], regions := s.ctl.regions ++ [(4095, reg { md 2 with base := 2^22, len := 65536 })] } }
def act : Ring := { Ring.reset with st := 3, agreed := BitVec.allOnes 128, base := 0, cmdTail := 5, cmdHead := 2, shadow := true }
def ce : CmdEntry := ⟨0xABCD, 0x1000, 1, 0, 0, 0, zeros 32, []⟩
def updS (s : State) (st : Nat) (h : List Byte) (next : Nat := 0) : State :=
  let s := withNums s [(Obj.vbatMv, 3000), (Obj.updState, st), (Obj.updBlockNext, next), (Obj.updBlockCount, hdrCount h), (Obj.updContainerId, hdrId h)]
  let s := s.setBlob Obj.updHeader h
  { s with mgmt := { s.mgmt with upd := { Upd.reset with header := h } } }
def hd1 : List Byte := hdrOf 0 5000

theorem witness_RingsFollowTheirDoorbells :
    (let s : State := ringS Ring.reset;
     let r := s.mgmt.ring;
     r.st = 0 ∧ s.decodes = true ∧ s.mgmt.ring.bells = [] ∧ s.writesInFlight = [])
    ∧ (let s : State := ringS { Ring.reset with st := 1 };
     let r := s.mgmt.ring;
     r.st = 1 ∧ s.num Obj.nearFillState = 2 ∧ (s.session 1023).isOpen = true ∧ (s.region 4095).st = .open ∧ (s.region 4095).act = .none)
    ∧ (let s : State := ringS { Ring.reset with st := 2 };
     let r := s.mgmt.ring;
     (r.st = 2 ∨ (r.st = 4 ∧ r.reason = 1)) ∧ s.decodes = true ∧ s.mgmt.ring.bells = [] ∧ s.writesInFlight = [])
    ∧ (let s : State := ringS { Ring.reset with st := 1 };
     let r := s.mgmt.ring;
     r.st ≠ 0 ∧ s.decodes = true ∧ s.mgmt.ring.bells = [] ∧ s.writesInFlight = [])
    ∧ (let s : State := ringS Ring.reset;
     s.decodes = true ∧ s.mgmt.ring.bells = [] ∧ s.writesInFlight = [])
    ∧ (let s : State := ringS Ring.reset;
     let r := s.mgmt.ring;
     let n : BitVec 32 := 0;
     State.ringUse r.cplTail n.toNat ≤ 4096 ∧ s.decodes = true ∧ s.mgmt.ring.bells = [] ∧ s.writesInFlight = [])
    ∧ (let s : State := ringS Ring.reset;
     let r := s.mgmt.ring;
     let n : BitVec 32 := 0;
     State.ringUse r.evtTail n.toNat ≤ 16384 ∧ s.decodes = true ∧ s.mgmt.ring.bells = [] ∧ s.writesInFlight = [])
    ∧ (let s : State := ringS Ring.reset;
     let r := s.mgmt.ring;
     let n : BitVec 32 := 0;
     State.ringUse r.logTail n.toNat ≤ 16384 ∧ s.decodes = true ∧ s.mgmt.ring.bells = [] ∧ s.writesInFlight = [])
    ∧ (let s : State := ringS Ring.reset;
     let r := s.mgmt.ring;
     let n : BitVec 32 := 9;
     4096 < State.ringUse r.cplTail n.toNat ∧ s.decodes = true ∧ s.mgmt.ring.bells = [] ∧ s.writesInFlight = [])
    ∧ (let s : State := ringS act;
     let r := s.mgmt.ring;
     s.ringHas 4 = true ∧ r.shadow = true ∧ s.ep.shadow ≠ 0 ∧ s.dmaOn = true ∧ s.halted 3 = false) :=
  of_dec (by haveI := decAllows; haveI := decBlob; haveI := decReaches; haveI := decTlp; haveI := @decRange; infer_instance) (by decide +kernel)

theorem witness_RingCommandsWriteCompletions :
    (let s : State := ringS act;
     let e : CmdEntry := ce;
     let m : Mode := md 2;
     let r := s.mgmt.ring;
     let off := r.base + 0x50000 + r.cplTail % 4096 * 16;
     let k := (s.entry (off / 65536)).a.key (off / 64 % 1024);
     e.ok = true ∧ s.cmdReady e = true ∧ r.base % 65536 = 0 ∧ s.devMode off (.writeMasked 0 []) = some m
       ∧ s.devMode off .readOnce = some m ∧ s.rawPage (off / 65536) = true ∧ s.queued k = none ∧ s.num Obj.eccFlipMask = 0
       ∧ s.num (if chanOf k < 256 then Obj.stackSplitWrite (chanOf k / 32) else Obj.chSplitWrite (chanOf k - 256)) = 0
       ∧ s.ringHas 0 = true)
    ∧ (let s : State := ringS act;
     let e : CmdEntry := { ce with index := BitVec.ofNat 16 (Obj.idleSrEnable / 256), sub := BitVec.ofNat 8 (Obj.idleSrEnable % 256), valueLen := 4, value := [3,0,0,0] ++ zeros 28 };
     let m : Mode := md 2;
     let r := s.mgmt.ring;
     let off := r.base + 0x50000 + r.cplTail % 4096 * 16;
     let k := (s.entry (off / 65536)).a.key (off / 64 % 1024);
     let host : Who := ⟨.window, 0, 0, [], 0, 0⟩;
     let key := okey e.index.toNat e.sub.toNat;
     let x : ORow := rowOf (Obj.idleSrEnable / 256) (Obj.idleSrEnable % 256);
     e.ok = true ∧ s.cmdReady e = true ∧ r.base % 65536 = 0 ∧ s.devMode off (.writeMasked 0 []) = some m
       ∧ s.devMode off .readOnce = some m ∧ s.rawPage (off / 65536) = true ∧ s.queued k = none ∧ s.num Obj.eccFlipMask = 0
       ∧ s.num (if chanOf k < 256 then Obj.stackSplitWrite (chanOf k / 32) else Obj.chSplitWrite (chanOf k - 256)) = 0
       ∧ s.ringHas 3 = true ∧ s.cmdReach e.index.toNat = true ∧ e.valueLen.toNat ≤ 32 ∧ key = Obj.idleSrEnable
       ∧ objRow e.index.toNat e.sub.toNat = some x ∧ s.allows host key (e.value.take e.valueLen.toNat))
    ∧ (let s : State := ringS act;
     let e : CmdEntry := ce;
     let m : Mode := md 2;
     let r := s.mgmt.ring;
     let off := r.base + 0x50000 + r.cplTail % 4096 * 16;
     let k := (s.entry (off / 65536)).a.key (off / 64 % 1024);
     e.ok = true ∧ s.cmdReady e = true ∧ r.base % 65536 = 0 ∧ s.devMode off (.writeMasked 0 []) = some m
       ∧ s.devMode off .readOnce = some m ∧ s.rawPage (off / 65536) = true ∧ s.queued k = none ∧ s.num Obj.eccFlipMask = 0
       ∧ s.num (if chanOf k < 256 then Obj.stackSplitWrite (chanOf k / 32) else Obj.chSplitWrite (chanOf k - 256)) = 0
       ∧ s.ringHas 2 = true ∧ s.mgmt.logq.length + s.aon.blog.length ≤ 1024) :=
  of_dec (by haveI := decAllows; haveI := decBlob; haveI := decReaches; haveI := decTlp; haveI := @decRange; infer_instance) (by decide +kernel)

theorem witness_RingCommandsWriteCompletions_read :
    (let s : State := ringS act;
     let e : CmdEntry := { ce with sub := 5 };
     let m : Mode := md 2;
     let r := s.mgmt.ring;
     let off := r.base + 0x50000 + r.cplTail % 4096 * 16;
     let k := (s.entry (off / 65536)).a.key (off / 64 % 1024);
     let key := okey e.index.toNat e.sub.toNat;
     let x : ORow := rowOf 0x1000 5;
     let n : Nat := 4;
     (e.ok = true ∧ s.cmdReady e = true ∧ r.base % 65536 = 0 ∧ s.devMode off (.writeMasked 0 []) = some m
       ∧ s.devMode off .readOnce = some m ∧ s.rawPage (off / 65536) = true ∧ s.queued k = none ∧ s.num Obj.eccFlipMask = 0
       ∧ s.num (if chanOf k < 256 then Obj.stackSplitWrite (chanOf k / 32) else Obj.chSplitWrite (chanOf k - 256)) = 0
       ∧ s.ringHas 3 = true ∧ s.cmdReach e.index.toNat = true ∧ objRow e.index.toNat e.sub.toNat = some x ∧ x.acc ≠ .wo
       ∧ x.ra ≤ s.windowAuth ∧ x.ty.bytes = some n ∧ n ≤ 8 ∧ s.mgmt.power.boot = false ∧ s.dev.state = .service)
     ∧ (∀ (t : State) (a : Nat), t.liveNum a key = none)) :=
  ⟨of_dec (by haveI := decAllows; haveI := decBlob; haveI := decReaches; haveI := decTlp; haveI := @decRange; infer_instance) (by decide +kernel), fun t a => by
    show t.liveNum a 0x100005 = none
    rfl⟩

theorem witness_RingCommandsDriveTheUpdate :
    (let s : State := updS (ringS act) 0 hd1;
     let e : CmdEntry := { ce with buf := hd1, bufLen := 256 };
     let host : Who := ⟨.window, 0, 0, [], 0, 0⟩;
     let may (n : Byte) : Prop := s.allows host Obj.updAction [n];
     e.ok = true ∧ s.cmdReady e = true ∧ s.ringHas 9 = true ∧ s.allowsBlob host Obj.updHeader e.buf ∧ may 1
       ∧ (s.updSt = 0 ∨ s.updSt = 2 ∨ s.updSt = 4) ∧ s.blocked.isNone = true ∧ headerFormed e.buf = true ∧ headerPart e.buf = true
       ∧ hdrFull e.buf = true ∧ s.mgmt.upd.block = none)
    ∧ (let s : State := updS (ringS act) 1 hd1;
     let e : CmdEntry := { ce with buf := blkOf 0 5000, bufLen := 24 };
     let host : Who := ⟨.window, 0, 0, [], 0, 0⟩;
     e.ok = true ∧ s.cmdReady e = true ∧ s.ringHas 9 = true ∧ s.allowsBlob host Obj.updBlock e.buf ∧ s.updSt = 1
       ∧ (blockBytes s.mgmt.upd.header s.baseImage e.buf).isSome = true ∧ numAt e.buf 0 4 = s.num Obj.updBlockNext
       ∧ s.mgmt.upd.block = none)
    ∧ (let s : State := updS (ringS act) 2 hd1;
     let e : CmdEntry := { ce with buf := hd1, bufLen := 256 };
     let host : Who := ⟨.window, 0, 0, [], 0, 0⟩;
     let may (n : Byte) : Prop := s.allows host Obj.updAction [n];
     e.ok = true ∧ s.cmdReady e = true ∧ s.ringHas 9 = true ∧ may 2 ∧ (s.updSt = 2 ∨ s.updSt = 4))
    ∧ (let s : State := updS (ringS act) 4 hd1;
     let e : CmdEntry := { ce with buf := hd1, bufLen := 256 };
     let host : Who := ⟨.window, 0, 0, [], 0, 0⟩;
     let may (n : Byte) : Prop := s.allows host Obj.updAction [n];
     e.ok = true ∧ s.cmdReady e = true ∧ s.ringHas 9 = true ∧ may 3 ∧ s.updSt = 4 ∧ s.blocked.isNone = true
       ∧ (s.newTables (s.bank s.spareBank)).length ≤ s.slotsFree)
    ∧ (let s : State := updS (ringS act) 6 hd1;
     let e : CmdEntry := { ce with buf := hd1, bufLen := 256 };
     let host : Who := ⟨.window, 0, 0, [], 0, 0⟩;
     let may (n : Byte) : Prop := s.allows host Obj.updAction [n];
     e.ok = true ∧ s.cmdReady e = true ∧ s.ringHas 9 = true ∧ may 4 ∧ s.updSt = 6)
    ∧ (let s : State := updS (ringS act) 1 hd1;
     let e : CmdEntry := { ce with buf := hd1, bufLen := 256 };
     let host : Who := ⟨.window, 0, 0, [], 0, 0⟩;
     let may (n : Byte) : Prop := s.allows host Obj.updAction [n];
     e.ok = true ∧ s.cmdReady e = true ∧ s.ringHas 9 = true ∧ may 5 ∧ (s.updSt = 1 ∨ s.updSt = 2 ∨ s.updSt = 4)
       ∧ s.mgmt.upd.block = none)
    ∧ (let s : State := updS (ringS act) 6 hd1;
     let e : CmdEntry := { ce with buf := hd1, bufLen := 256 };
     let host : Who := ⟨.window, 0, 0, [], 0, 0⟩;
     let may (n : Byte) : Prop := s.allows host Obj.updAction [n];
     e.ok = true ∧ s.cmdReady e = true ∧ s.ringHas 9 = true ∧ may 6 ∧ s.updSt = 6) :=
  of_dec (by haveI := decAllows; haveI := decBlob; haveI := decReaches; haveI := decTlp; haveI := @decRange; infer_instance) (by decide +kernel)

end Sys2Proof.Tests.Rings
end

