-- ==== Sys2Proof/Tests/Slice0.lean ====
section
/-! SUPPORT. Tests: an ill-formed command for each check of WellFormed, the spec's worked examples, and witnesses for the
statements about every command. -/

namespace Sys2Proof.Tests

open Sys2Proof.Machine

set_option Elab.async false
set_option maxRecDepth 100000

/-! ## Ill-formed commands -/

def badWho : Who := { w0 with peer := 1 }
def badEntry : CmdEntry := ⟨0, 0, 0, 0, 0, 0, [], []⟩
def longEntry : CmdEntry := ⟨0, 0, 0, 0, 3, 0, zeros 32, [1]⟩
def hEp : Hdr := { h0 with src := .ep }
def hEpNode : Hdr := { hEp with node := some ⟨0, 0⟩ }
def hDoor (tag : BitVec 12) (a : BitVec 64) : Hdr := { hEp with tag := tag, addr := a }
def tlp (off : BitVec 38) (len : Nat) : Tlp := ⟨1, off, len, false, false⟩
def okFlit : Flit := ⟨0, 0, 0, 0, 0, List.replicate 31 0, 0, true, none⟩
def dreq (w : Who) (op : BitVec 8) : DictHdr := ⟨w, 1, op, 0x1000, 0, 0, 0, 0, 0⟩
def frame (n : Nat) : RelayFrame := ⟨0, true, 0, 0, 0, 0, 1, zeros n⟩

theorem test_wf_flit : WellFormed (.flitReceived 0 { okFlit with units := [0] }) = false ∧ WellFormed (.flitReceived 0 okFlit) = true := by decide

theorem test_wf_ser : WellFormed (.laneSerCheck 0 [1]) = false ∧ WellFormed (.laneSerCheck 0 (List.replicate 16 0)) = true := by decide

theorem test_wf_sender : WellFormed (.classCommit badWho) = false ∧ WellFormed (.open_ badWho 0) = false
    ∧ WellFormed (.classCommit w0) = true := by decide

theorem test_wf_linkOnly : WellFormed (.read hEp) = false ∧ WellFormed (.atomicAdd hEp 1) = false ∧ WellFormed (.read h0) = true := by decide

theorem test_wf_data : WellFormed (.write h0 (zeros 64)) = false ∧ WellFormed (.writeMasked h0 0 (zeros 128)) = false
    ∧ WellFormed (.writeback h0 []) = false ∧ WellFormed (.vecAccum h0 (zeros 127)) = false ∧ WellFormed (.write h0 (zeros 128)) = true := by decide

theorem test_wf_fence : WellFormed (.fence hEpNode) = false ∧ WellFormed (.fence hEp) = true := by decide

theorem test_wf_door : WellFormed (.bollardAdd (hDoor 56 0) 1) = false ∧ WellFormed (.bollardAdd (hDoor 55 16384) 1) = false
    ∧ WellFormed (.bollardAdd hEpNode 1) = false ∧ WellFormed (.bollardAdd (hDoor 55 16383) 1) = true := by decide

theorem test_wf_snoop : WellFormed (.snpAck .ep 0 false) = false ∧ WellFormed (.snpData .ep 0 (zeros 128)) = false
    ∧ WellFormed (.snpData (.port 1) 0 [1]) = false ∧ WellFormed (.snpData (.port 1) 0 (zeros 128)) = true := by decide

theorem test_wf_scrub : WellFormed (.scrubBurst 0 [⟨3, 0, []⟩]) = false ∧ WellFormed (.scrubBurst 0 [⟨1, 0, []⟩]) = true := by decide

theorem test_wf_tlp : WellFormed (.memoryReadTlp (tlp 0 0)) = false ∧ WellFormed (.memoryReadTlp (tlp 0x0FFF 2)) = false
    ∧ WellFormed (.memoryReadTlp (tlp 0x0FFF 1)) = true := by decide

theorem test_wf_writeTlp : WellFormed (.memoryWriteTlp (tlp 0 2) [true] [1, 2]) = false
    ∧ WellFormed (.memoryWriteTlp (tlp 0 2) [true, true] [1]) = false ∧ WellFormed (.memoryWriteTlp (tlp 0 513) (List.replicate 513 true) (zeros 513)) = false
    ∧ WellFormed (.memoryWriteTlp (tlp 0 2) [true, true] [1, 2]) = true := by decide

theorem test_wf_atomicTlp : WellFormed (.fetchAddTlp (tlp 0 2) 1) = false ∧ WellFormed (.casTlp (tlp 0 16) 1 1) = false
    ∧ WellFormed (.swapTlp (tlp 0 33)) = false ∧ WellFormed (.fetchAddTlp (tlp 0 8) 1) = true := by decide

theorem test_wf_entry : WellFormed (.nop badEntry) = false ∧ WellFormed (.updBlock longEntry) = false := by decide

theorem test_wf_sensors : WellFormed (.corePLoop ⟨[], List.replicate 8 0, 0⟩) = false ∧ WellFormed (.corePLoop ⟨List.replicate 40 0, [], 0⟩) = false
    ∧ WellFormed (.aonJunctionCheck [1]) = false ∧ WellFormed (.bootComplete ⟨true, true, []⟩) = false := by decide

theorem test_wf_dict : WellFormed (.dictRead (dreq w0 2)) = false ∧ WellFormed (.dictWrite (dreq w0 1) []) = false
    ∧ WellFormed (.dictRead (dreq badWho 1)) = false ∧ WellFormed (.dictRead (dreq w0 1)) = true ∧ WellFormed (.dictWrite (dreq w0 2) []) = true := by decide

theorem test_wf_relay : WellFormed (.relayHeader (frame 1201)) = false ∧ WellFormed (.relayData (frame 1201)) = false
    ∧ WellFormed (.relayAck (frame 1201)) = false := by decide +kernel

theorem test_wf_rail : WellFormed (.railFault 0) = false ∧ WellFormed (.railFault 10) = false ∧ WellFormed (.railFault 9) = true := by decide

theorem test_wf_t1s : WellFormed (.t1sLinkChange 3) = false ∧ WellFormed (.t1sLinkChange 2) = true := by decide

/-- An ill-formed command in front of the queue stops the block. -/
theorem test_step_illFormed : step { State.reset with pending := [.railFault 0] } = .fault .illFormed := rfl

/-! ## The spec's worked examples -/

/-- Chapter 04, "Worked encoding: sixteen BF16 values": the code lengths, by symbol, the escape last. -/
def bfLens : List Nat :=
  List.replicate 0x74 0 ++ [6, 5, 5, 4, 3, 2, 2, 3, 4, 6, 6] ++ List.replicate (256 - 0x7F) 0 ++ [6]

def bfVals : List Nat := [0x3D21, 0xBCCC, 0x3D05, 0xBDF0, 0x3C12, 0xBD3F, 0x3C80, 0x3E59, 0xBCFE, 0x3D64, 0xBBAA, 0x3D1B, 0x4008, 0xBCB3, 0x3DC7, 0xBB15]

/-- Table 04-6: 54 bits; with element 16 (exponent 0x7A) the first seven bytes of the stream. -/
theorem test_codec_stream : (expBits 1 bfLens bfVals).length = 54
    ∧ bytesOf 7 (expBits 1 bfLens (bfVals ++ [0x7A * 128])) = [0x62, 0x23, 0x8B, 0xE3, 0x1F, 0x40, 0xAF] := by decide +kernel

/-- Table 04-6: the raw bytes of the sixteen elements. -/
theorem test_codec_raw : bfVals.map (rawField 1) = [0x21, 0xCC, 0x05, 0xF0, 0x12, 0xBF, 0x00, 0x59, 0xFE, 0x64, 0xAA, 0x1B, 0x08, 0xB3, 0x47, 0x95] := by decide +kernel

/-- Chapter 09, near tier: LOC 0x30_068A_CCC6 lies in stack 6, pseudo-channel 21, bank group 1, bank 0, row 0x3456. -/
theorem test_near_place : chanOf (gkey 1 0x30068ACCC6) = 32 * 6 + 21 ∧ State.reset.bankRow (gkey 1 0x30068ACCC6) = (1 * 4 + 0, 0x3456) := by decide +kernel

/-- Chapter 09, far tier: granule 5 of LOC 0x13_0130_8400 lies on F7, position 1, subchannel B, rank 0, bank group 3, bank 0, row 0x261. -/
theorem test_far_place :
    let s : State := { sv with tide := { sv.tide with slots := [(15, { FarSlot.empty with st := .inService, spd := some ⟨256, true, 4, true, true, 0, []⟩ })] } }
    chanOf (gkey 2 0x1301308405) = 256 + 7 ∧ s.bankRow (gkey 2 0x1301308405) = (((1 * 2 + 1) * 4 + 0) * 32 + 3 * 4 + 0, 0x261)
      ∧ bayLoc (8 + 15) 0x4C21 = 0x1301308400 := by decide +kernel

/-- Chapter 06: LINE 0x620094 has SET 0x00F6 and TAG 0x62. -/
theorem test_directory_set : 0x031004A00 / 128 = 0x620094 ∧ State.setOf 0x620094 = 0x00F6 ∧ 0x620094 / 65536 = 0x62 := by decide

/-- Chapter 07, one BF16 add, both roundings. -/
theorem test_bfadd : bf16Add 0x3F80 0x3BC0 none = 0x3F81 ∧ bf16Add 0x3F80 0x3BC0 (some 0) = 0x3F81
    ∧ bf16Add 0x3F80 0x3BC0 (some 0xC000) = 0x3F80 ∧ bf16Add 0x3F80 0x3BC0 (some 0xBFFF) = 0x3F81 := by decide +kernel

/-- Chapter 07: the generator's state goes 0x1 to 0x10000 after 16 steps. -/
theorem test_srDraw : srDraw 1 = 0x10000 := by decide +kernel

/-- Chapter 07, the barrier's third phase on Bollard 0x0105 with N = 3: P1's arrival takes v from 6 to 7 and waits for 9; P7's takes it
from 8 to 9 and completes with 9. -/
theorem test_barrier :
    let at_ (v : U64) : State := { sv with path := { sv.path with bols := [(0x105, v)] } }
    let r : Req := sv.newReq 50 { h0 with addr := 0x105, attr := 4 } (.bol .arrive 3) 0 .link
    ((at_ 6).bolRun r .arrive 0x105 3).bollard 0x105 = 7 ∧ ((at_ 6).bolRun r .arrive 0x105 3).path.waiters.map (·.target) = [9]
      ∧ ((at_ 8).bolRun r .arrive 0x105 3).bollard 0x105 = 9 ∧ ((at_ 8).bolRun r .arrive 0x105 3).path.waiters = [] := by decide +kernel

/-- Chapter 12: 256 bytes at device offset 0x4_0001_2340 are a half line, a line and a half line (Table 12-4). -/
theorem test_tlp_lines : (sv.readLines 0x400012340 256).map (fun x => (x.addr, x.op)) =
    [(0x400012340, ReqOp.readHalf), (0x400012380, ReqOp.readOnce), (0x400012400, ReqOp.readHalf)] := by decide +kernel

/-- Region 0x012 of Table 03-9. -/
def bfRegion : Mode := { Mode.none with format := 1, comp := 1, atom := true, mask := 0x1FFFF, base := 0x400000000, len := 6 * 2 ^ 30 }

/-- Table 03-9: SEAL with ATOMICS is reason 0x070F, and without it the commit is in order; three reservations. -/
theorem test_session_example :
    let s : State := { realm0 sv with ctl := { (realm0 sv).ctl with sessions := [(0, ⟨true, 65536, 131072⟩)] } }
    s.modeFault bfRegion = some 0x070F ∧ s.modeFault { bfRegion with atom := false } = none
    ∧ State.reservation bfRegion = 98304 ∧ State.reservation { bfRegion with len := 2 ^ 31, mirror := true } = 65536
    ∧ State.reservation { bfRegion with len := 3 * 2 ^ 30 } = 49152 := by decide +kernel

/-- Table 08-3: the staged minimums fail check 0x5101 at port 0; with class 20 at 1,200 units every check passes. -/
def fourClasses (grad : Nat) : List ClassVals :=
  let v (min ep share reserve way : Nat) : ClassVals := { ClassVals.dflt with min := List.replicate 16 min ++ [ep], share := share, reserve := reserve, way := way, limit := 65024 }
  [v 0 0 8 0 0, v 2000 200 4 16384 6, v grad 0 4 16384 4, v 100 0 1 2048 2]

theorem test_class_checks : State.classFault (fourClasses 1300) = some (0x5101, 0, 0xFF) ∧ State.classFault (fourClasses 1200) = none := by decide +kernel

/-- Table 16-6: at 190 ms the hint is 160,000 µs. -/
theorem test_init_hint : ({ sv with dev := { sv.dev with startAt := 0, now := 190 * cyclesMs } } : State).initLeft = 160000 := by decide +kernel

/-! ## One step -/

/-- The state a step leaves. -/
def stepped (s : State) (c : Instr) : State :=
  match step { s with pending := [c] } with
  | .next t => t
  | _ => s

theorem test_reset : State.reset.dev.state = .reset ∧ State.reset.pending = [] ∧ State.reset.memWf = true := by decide +kernel

/-- Table 07-5: a BOLLARD_ADD, once granted, adds to the counter of the Bollard it names, and the request ends. -/
theorem test_bollardAdd : let t := stepped (stepped svUp (.bollardAdd { h0 with addr := 0x105 } 3)) (.requestGrant none)
    t.bollard 0x105 = 3 ∧ t.path.reqs = [] := by decide +kernel

/-- R384: a Bollard number past 16,383 is UNSUPPORTED; nothing is granted. -/
theorem test_bollardAdd_range : let t := stepped svUp (.bollardAdd { h0 with addr := 0x4000 } 3)
    t.path.reqs = [] ∧ t.path.bols = [] := by decide +kernel

/-! ## Witnesses for the statements about every command -/

theorem witness_EmptyQueueTicks : State.reset.pending = [] := rfl

theorem witness_WellFormedCommandsComplete : WellFormed .vbatLoss = true ∧ WellFormed (.railFault 0) = false := by decide

theorem witness_StepsKeepMemoryCanonical : ∃ t, State.reset.memWf = true ∧ step State.reset = .next t := ⟨_, rfl, rfl⟩

theorem t1sDiscard_idle (s : State) (h : s.t1sUp = false) : Leaves .t1sDiscard s s := by
  have e := leaves_wf (c := .t1sDiscard) (s := s) (f := fun s => if s.t1sUp then s.frameRx.bump Obj.t1sDiscards else s) (fun _ => rfl) rfl
  simpa [h] using e

theorem witness_QuietEffectIsTheStep : Leaves .t1sDiscard sv sv ∧ sv.quiet = true ∧ sv.memWf = true ∧ sv.pending = sv.pending :=
  ⟨t1sDiscard_idle sv (by decide +kernel), by decide +kernel, by decide +kernel, rfl⟩

def loneReq : Req := (rs (md 0)).newReq 50 h0 .read 0 .link
def lone : State := let s := rs (md 0); { s with path := { s.path with reqs := [loneReq] } }

theorem witness_LoneRequestIsGranted : lone.path.reqs = [loneReq] ∧ lone.eligible [] loneReq = true ∧ lone.canTake (lone.slots ++ lone.freedSlots) loneReq.cls = true
    ∧ lone.dev.now < lone.ctl.water.filled ∧ lone.ctl.water.ranAt ≠ lone.dev.now + 1 ∧ (lone.green loneReq = true ∨ 0 < lone.ctl.water.cap) := by decide +kernel

end Sys2Proof.Tests
end

