-- ==== Sys2Proof/Tests/Tide.lean ====
section
/-! SUPPORT. Witnesses: for each clause of the statements named, a state and operands that meet its hypotheses together. -/

namespace Sys2Proof.Tests.Tide

open Sys2Proof.Machine

set_option Elab.async false
set_option maxRecDepth 100000
set_option synthInstance.maxSize 100000
set_option synthInstance.maxHeartbeats 400000

def raw (t loc : Nat) : Copy := ⟨t, loc, 0, 1024, false, 0⟩
def L0 : Nat := 84000 * 1024
def farS (m : Mode) (ps : PState) : State := let s := rs m; { s with tide := { s.tide with map := [(0, { TEntry.unwritten with pstate := ps, a := raw 2 (5*1024) })], bays := [(8 * 2^24 + 5, 1)], slots := [(0, { FarSlot.empty with st := .inService, spd := some spd1, filled := 100000 })] } }
 where spd1 : Spd := ⟨64, true, 1, true, true, 9, []⟩
def jb (ph : JobPhase) : Job := ⟨7, 0, .flood, ph, if ph = .queued then Copy.none else raw 1 L0, Copy.none, [], 0, [], 5, false, [], 0, true, [], [], false, 0, false, 1⟩
def jobs (s : State) (js : List Job) : State := { s with tide := { s.tide with jobs := js } }
def mems (s : State) (m : Mode) : State := { s with dram := { s.dram with gmeta := (raw 2 (5*1024)).keys.map (fun k => (k, ⟨false, State.v0Of m, [], 0⟩)) } }
def dsvc (s : State) : State := { s with dev := { s.dev with state := .degraded } }
def nearPg : State := let s := rs (md 0); { s with tide := { s.tide with map := [(0, { TEntry.unwritten with pstate := .resident, a := raw 1 L0, acc := 200 }), (3, { TEntry.unwritten with pstate := .resident, a := raw 1 (L0 + 1024), acc := 20 })], bays := [(84000, 1), (84001, 4)] } }
def lrg : LentRange := ⟨true, false, false, 2^16, 2^20, 0, none⟩
def lent (s : State) (x : LentRange) : State := s.setLent 3 x
def lrd (k : Nat) : LentRead := ⟨9, 3, 100, [k], .issued⟩
def lk : Nat := 3 * 2^38 + 3 * 2^32 + 5*1024
def rql : Req := { sv.newReq 100 h0 .read 0 .link with stage := .mem, mode := some (md 0), need := [lk, lk + 1], line := 0, page := 0, tweaks := [(lk, 0), (lk + 1, 0)] }
def lentS (r : Req) : State := let s := lent (farS (md 0) .resident) lrg
  { s with path := { s.path with reqs := [r] }, tide := { s.tide with lentRds := [lrd lk], map := [(0, { TEntry.unwritten with pstate := .resident, role := .lower, a := raw 3 (3 * 2^32 + 5*1024), b := raw 2 (5*1024) })] } }
def cm : Mode := { md 0 with len := 2^24 }
def cs : State := withNums (farS cm .resident) [(Obj.cloneSrcOffset, 0), (Obj.cloneDstOffset, 4 * 65536), (Obj.clonePages, 2)]
def ci : State := { cs with tide := { cs.tide with clone := some ⟨0, 4, 1, w0⟩ } }
def sp1 : Spd := ⟨64, true, 1, true, true, 9, []⟩
def slotS (n : Nat) (x : FarSlot) (sr : SrSt) : State :=
  let s : State := withNums { sv with tide := { sv.tide with slots := [(n, x)] } } [(Obj.slotSelect, n)]
  if sr = .no then s else { s with dram := { s.dram with chans := [(256 + n / 2, { ChanSt.idle with sr := sr })] } }
def fs (st : SlotSt) : FarSlot := { FarSlot.empty with st := st, spd := some sp1, filled := 5 }
def chan (c : Nat) (f : ChanSt → ChanSt) (s : State := sv) : State := { s with dram := { s.dram with chans := [(c, f ChanSt.idle)] } }
def acr : Acc := ⟨7, false, some 100, .read, 64, 3, 40000, false, 1, [5], [], [], 0, 0⟩

theorem witness_FloodRunsThroughItsPhases :
    (let s : State := jobs (farS (md 0) .copying) [jb .copying];
     let p : BitVec 28 := 0;
     let j : Job := jb .copying;
     (s.dev.state = .service ∨ s.dev.state = .degraded) ∧ s.tide.jobs = [j] ∧ j.page = p.toNat ∧ j.phase = .copying ∧ j.kind = .flood
       ∧ j.bay = 0 ∧ j.todo = [] ∧ (s.entry p.toNat).pstate = .copying ∧ s.stripeFaulted p.toNat = false
       ∧ s.copyFenced (s.entry p.toNat).a = false ∧ s.copyFenced j.dstA = false ∧ s.copyFenced j.dstB = false
       ∧ (j.dirty.length ≤ s.num Obj.migDirtyMax ∨ s.num Obj.migPasses ≤ j.passes + 1) ∧ j.rescan = [] ∧ s.dir.txns = [])
    ∧ (let s : State := jobs (farS (md 0) .copying) [{jb .copying with dirty := List.range 16}];
     let p : BitVec 28 := 0;
     let j : Job := {jb .copying with dirty := List.range 16};
     (s.dev.state = .service ∨ s.dev.state = .degraded) ∧ s.tide.jobs = [j] ∧ j.page = p.toNat ∧ j.phase = .copying ∧ j.kind = .flood
       ∧ j.bay = 0 ∧ j.todo = [] ∧ (s.entry p.toNat).pstate = .copying ∧ s.stripeFaulted p.toNat = false
       ∧ s.copyFenced (s.entry p.toNat).a = false ∧ s.copyFenced j.dstA = false ∧ s.copyFenced j.dstB = false
       ∧ s.num Obj.migDirtyMax < j.dirty.length ∧ j.passes + 1 < s.num Obj.migPasses)
    ∧ (let s : State := mems (jobs (farS (md 0) .draining) [jb .draining]) (md 0);
     let p : BitVec 28 := 0;
     let j : Job := jb .draining;
     (s.dev.state = .service ∨ s.dev.state = .degraded) ∧ s.tide.jobs = [j] ∧ j.page = p.toNat ∧ j.phase = .draining ∧ j.kind = .flood
       ∧ j.bay = 0 ∧ j.todo = [] ∧ j.dirty = [] ∧ j.blks = [] ∧ s.pinned p.toNat = false ∧ (s.entry p.toNat).pstate = .draining
       ∧ (s.entry p.toNat).role = .none ∧ (s.entry p.toNat).a.tier = 2 ∧ (s.entry p.toNat).a.vdelta < 15
       ∧ s.stripeFaulted p.toNat = false ∧ s.copyFenced (s.entry p.toNat).a = false ∧ s.copyFenced j.dstA = false ∧ j.dstA.tier = 1
       ∧ j.dstB = Copy.none ∧ j.moveB = false ∧ (s.pageMode p.toNat).mirror = false ∧ s.newerBlock p.toNat = false
       ∧ (∀ n < 48, (s.slot n).st ≠ .evacuating))
    ∧ (let s : State := (let s := farS (md 0) .resident; { s with tide := { s.tide with leaving := [⟨0, raw 3 77, false⟩], map := [] } });
     let p : BitVec 28 := 0;
     let c : Copy := raw 3 77;
     let twin : Bool := false;
     s.tide.leaving = [⟨p.toNat, c, twin⟩] ∧ s.usesCopy c = false ∧ c.tier ≠ 0) :=
  of_dec (by haveI := decAllows; haveI := decBlob; haveI := decReaches; haveI := decTlp; haveI := @decRange; infer_instance) (by decide +kernel)

theorem witness_FloodRunsThroughItsPhases_dispatch :
    (let s : State := jobs (farS (md 0) .resident) [jb .queued];
     let p : Nat := 0;
     let j : Job := jb .queued;
     ((s.dev.state = .service ∨ s.dev.state = .degraded) ∧ s.tide.jobs = [j] ∧ j.kind = .flood ∧ j.phase = .queued ∧ j.page = p
       ∧ j.bay = 0 ∧ (∀ n < 48, (s.slot n).st ≠ .evacuating) ∧ s.rawPage p = true ∧ (s.entry p).a.tier = 2
       ∧ (s.entry p).bad = false ∧ (s.tide.mapCache.contains p || s.pristine (State.mapKey p)) = true ∧ s.stripeFaulted p = false
       ∧ (s.pageMode p).mirror = false ∧ s.isPacked p = false ∧ 0 < s.nearFree ∧ s.dir.ents = [] ∧ s.dir.txns = []
       ∧ s.dir.censusBad = [])
       ∧ s.refill = s) :=
  ⟨of_dec (by haveI := decAllows; haveI := decBlob; haveI := decReaches; haveI := decTlp; haveI := @decRange; infer_instance) (by decide +kernel), rfl⟩

theorem witness_SweeperAndFillAdvance :
    (let s : State := nearPg;
     let b : Nat := 84000;
     (s.dev.state = .service ∨ s.dev.state = .degraded) ∧ s.nearUsed.find? (fun x => decide (s.tide.sweepAt ≤ x)) = some b
       ∧ (s.ebbOn = false ∨ s.queuedJobs < 4096)
       ∧ (∀ q ∈ s.pagesIn b, (s.entry q).bad = false ∧ s.pageFaulted q = false ∧ (s.entry q).pstate ≠ .shared ∧ (s.tide.mapCache.contains q || s.pristine (State.mapKey q)) = true))
    ∧ (let s : State := nearPg;
     (s.dev.state = .service ∨ s.dev.state = .degraded)) :=
  of_dec (by haveI := decAllows; haveI := decBlob; haveI := decReaches; haveI := decTlp; haveI := @decRange; infer_instance) (by decide +kernel)

theorem witness_LentRangesServeReads :
    (let s : State := withNums sv [(Obj.lentLength 3, 2^20), (Obj.lentBusBase 3, 2^40)];
     let w : Who := w0;
     let r : Fin 64 := 3;
     w.ok = true ∧ s.lent r = LentRange.free ∧ 0 < s.num (Obj.lentLength r) ∧ s.num (Obj.lentLength r) ≤ 2 ^ 38
       ∧ s.num (Obj.lentLength r) % 65536 = 0 ∧ s.num (Obj.lentBusBase r) % 65536 = 0 ∧ s.allows w (Obj.lentAction r) [1])
    ∧ (let s : State := lent sv lrg;
     let w : Who := w0;
     let r : Fin 64 := 3;
     w.ok = true ∧ (s.lent r).active = true ∧ (s.lent r).draining = false ∧ s.lentPagesOf r = [] ∧ s.tide.jobs = []
       ∧ s.allows w (Obj.lentAction r) [2])
    ∧ (let s : State := lent sv { lrg with draining := true, active := false, reply := some w0 };
     let r : Fin 64 := 3;
     let w : Who := w0;
     (w.path = .t1s ∨ (w.path = .window ∧ w.peer = 0)) ∧ (s.lent r).draining = true ∧ (s.lent r).reply = some w ∧ s.tide.lentRds = []
       ∧ s.lentPagesOf r = [] ∧ s.tide.jobs = [] ∧ s.tide.leaving = [])
    ∧ (let s : State := lentS rql;
     let x : LentRead := lrd lk;
     let r : Req := rql;
     let k : Nat := lk;
     s.tide.lentRds = [x] ∧ x.st = .issued ∧ x.keys = [k] ∧ s.req x.req = some r ∧ k ∈ r.need ∧ r.need.filter (· != k) ≠ []
       ∧ (r.tweaks.find? (fun e => e.1 == k)).map (·.2) = some (s.seenTweak k))
    ∧ (let s : State := lentS rql;
     let x : LentRead := lrd lk;
     let r : Req := rql;
     let k : Nat := lk;
     let g : Nat := 0;
     s.tide.lentRds = [x] ∧ x.st = .issued ∧ x.keys = [k] ∧ s.req x.req = some r ∧ (s.entry r.page).pstate = .resident
       ∧ (s.entry r.page).role = .lower ∧ (s.entry r.page).a.tier = 3
       ∧ (List.range (s.entry r.page).a.len).find? (fun g => (s.entry r.page).a.key g == k) = some g
       ∧ keyTier ((s.entry r.page).b.key g) ≠ 3 ∧ (s.lent x.range).run + 1 < s.num Obj.lentFailCount) :=
  of_dec (by haveI := decAllows; haveI := decBlob; haveI := decReaches; haveI := decTlp; haveI := @decRange; infer_instance) (by decide +kernel)

theorem witness_ClonesShareTheirPages :
    (let s : State := cs;
     let w : Who := w0;
     w.ok = true ∧ s.tide.clone = none ∧ s.cloneOk = true ∧ s.cloneNeeds ≤ s.sharesFree ∧ s.dir.ents = [] ∧ s.dir.txns = []
       ∧ s.dir.censusBad = [] ∧ s.allows w Obj.cloneAction [1])
    ∧ (let s : State := ci;
     let c : Clone := ⟨0, 4, 1, w0⟩;
     (s.dev.state = .service ∨ s.dev.state = .degraded) ∧ s.tide.clone = some c ∧ c.left = 1 ∧ s.cloneReady c = true
       ∧ (c.who.path = .t1s ∨ (c.who.path = .window ∧ c.who.peer = 0)) ∧ c.src ≠ c.dst ∧ (s.entry c.src).pstate = .resident
       ∧ (s.entry c.dst).pstate = .unwritten ∧ (s.entry c.dst).a = Copy.none ∧ (s.entry c.dst).b = Copy.none ∧ s.tide.shares = []
       ∧ (s.entry c.src).bad = false ∧ (s.tide.mapCache.contains c.src || s.pristine (State.mapKey c.src)) = true
       ∧ s.stripeFaulted c.src = false ∧ s.copyFenced (s.entry c.src).a = false) :=
  of_dec (by haveI := decAllows; haveI := decBlob; haveI := decReaches; haveI := decTlp; haveI := @decRange; infer_instance) (by decide +kernel)

theorem witness_FarSlotService :
    (let s : State := slotS 0 (fs .inService) .no;
     let w : Who := w0;
     let n : Nat := 0;
     w.ok = true ∧ s.num Obj.slotSelect = n ∧ n < 48 ∧ (s.slot n).st = .inService ∧ s.farLimits ≤ s.farReservable - s.slotPages n
       ∧ (∀ i < 48, i ≠ n → (s.slot i).st ≠ .evacuating) ∧ s.pagesOn n = [] ∧ s.usedBays (8 + n) = 0 ∧ s.tide.jobs = []
       ∧ s.allows w Obj.slotAction [1])
    ∧ (let s : State := slotS 47 (fs .evacuating) .no;
     let w : Who := w0;
     let n : Nat := 47;
     w.ok = true ∧ s.num Obj.slotSelect = n ∧ n < 48 ∧ (s.slot n).st = .evacuating ∧ s.tide.jobs = [] ∧ s.allows w Obj.slotAction [4])
    ∧ (let s : State := slotS 5 (fs .evacuated) .no;
     let w : Who := w0;
     let n : Nat := 5;
     w.ok = true ∧ s.num Obj.slotSelect = n ∧ n < 48 ∧ (s.slot n).st = .evacuated ∧ s.allows w Obj.slotAction [2])
    ∧ (let s : State := slotS 47 (fs .off) .no;
     let w : Who := w0;
     let n : Nat := 47;
     let x : Spd := sp1;
     w.ok = true ∧ s.num Obj.slotSelect = n ∧ n < 48 ∧ (s.slot n).st = .off ∧ bit (s.num Obj.fencedChannels) (n / 2) = false
       ∧ x.accepted = true ∧ s.flash.rows = [] ∧ s.allows w Obj.slotAction [3])
    ∧ (let s : State := slotS 47 (fs .evacuated) .held;
     let n : Fin 48 := 47;
     (s.slot n).st = .evacuated ∧ (s.chan (256 + n / 2)).sr = .held)
    ∧ (let s : State := slotS 0 (fs .filling) .no;
     let n : Fin 48 := 0;
     (s.slot n).st = .filling) :=
  of_dec (by haveI := decAllows; haveI := decBlob; haveI := decReaches; haveI := decTlp; haveI := @decRange; infer_instance) (by decide +kernel)

theorem witness_DramUpkeep :
    (let s : State := chan 258 (fun x => { x with openRow := [(4, 3), (3, 9)], rq := [acr], rd := [(37, [⟨3,4,5⟩]), (3, [⟨3,4,5⟩])], owed := 3 });
     let c : Chan := .far 2;
     s.chanServes (chanNum c) = true ∧ (s.chan (chanNum c)).sr = .no ∧ s.dev.state ≠ .hold
       ∧ ((s.chan (chanNum c)).rq ≠ [] ∨ (s.chan (chanNum c)).wq ≠ []))
    ∧ (let s : State := sv;
     let c : Chan := .near 0 5;
     s.chanServes (chanNum c) = true ∧ (s.chan (chanNum c)).sr = .no ∧ s.dev.state ≠ .hold ∧ (s.chan (chanNum c)).rq = []
       ∧ (s.chan (chanNum c)).wq = [] ∧ (s.chan (chanNum c)).recal = false)
    ∧ (let s : State := sv;
     let c : Chan := .near 0 5;
     s.chanServes (chanNum c) = true)
    ∧ (let s : State := sv;
     let m : Fin 24 := 2;
     s.chanServes (256 + m) = true)
    ∧ (let s : State := chan 258 (fun x => { x with recal := true});
     let c : Chan := .far 2;
     (s.chan (chanNum c)).recal = true)
    ∧ (let s : State := chan 258 (fun x => { x with recal := true});
     let c : Chan := .far 2;
     (s.chan (chanNum c)).recal = true ∧ (s.chan (chanNum c)).recFails < 2 ∧ s.chanServes (chanNum c) = true)
    ∧ (let s : State := sv;
     let w : Who := w0;
     let m : Fin 24 := 2;
     w.ok = true ∧ s.chanServes (256 + m) = true ∧ s.allows w (Obj.chRecalNow m) (leBytes 1 1))
    ∧ (let s : State := sv;
     let w : Who := w0;
     let k : Fin 8 := 0;
     w.ok = true ∧ (s.unit k).st = .inService ∧ s.allows w (Obj.stackRecalNow k) (leBytes 1 1)) :=
  of_dec (by haveI := decAllows; haveI := decBlob; haveI := decReaches; haveI := decTlp; haveI := @decRange; infer_instance) (by decide +kernel)

theorem witness_SelfRefreshHeatAndTraining :
    (let s : State := withNums sv [(Obj.idleSrEnable, 4)];
     let m : Fin 24 := 2;
     bit (s.num Obj.idleSrEnable) m = true ∧ (s.dev.state = .service ∨ s.dev.state = .degraded) ∧ s.chanServes (256 + m) = true
       ∧ (s.chan (256 + m)).sr = .no ∧ (s.chan (256 + m)).recal = false ∧ (s.chan (256 + m)).wait = [] ∧ (s.chan (256 + m)).rq = []
       ∧ (s.chan (256 + m)).wq = [] ∧ (s.chan (256 + m)).flight = [])
    ∧ (let s : State := withNums (chan 258 (fun x => {x with wait := [acr]})) [(Obj.idleSrEnable, 4)];
     let m : Fin 24 := 2;
     bit (s.num Obj.idleSrEnable) m = true ∧ (s.dev.state = .service ∨ s.dev.state = .degraded) ∧ s.chanServes (256 + m) = true
       ∧ (s.chan (256 + m)).sr = .no ∧ (s.chan (256 + m)).recal = false ∧ (s.chan (256 + m)).wait ≠ [])
    ∧ (let s : State := chan 258 (fun x => {x with sr := .exiting});
     let m : Fin 24 := 2;
     (s.chan (256 + m)).sr = .exiting)
    ∧ (let s : State := slotS 5 { fs .inService with fast := true, fails := 2} .no;
     let n : Fin 48 := 5;
     (s.slot n).st = .inService)
    ∧ (let s : State := slotS 5 { fs .inService with fast := true, fails := 2} .no;
     let n : Fin 48 := 5;
     (s.slot n).st = .inService)
    ∧ (let s : State := { sv with dram := { sv.dram with units := [(3, {DUnitSt.untrained with st := .training}), (13, {DUnitSt.untrained with st := .training, attempts := 1})] } };
     let x : DUnit := .stack 3;
     (s.unit (dunitNum x)).st = .training ∧ s.flash.rows = [])
    ∧ (let s : State := { sv with dram := { sv.dram with units := [(3, {DUnitSt.untrained with st := .training}), (13, {DUnitSt.untrained with st := .training, attempts := 1})] } };
     let x : DUnit := .stack 3;
     (s.unit (dunitNum x)).st = .training ∧ s.flash.rows = [] ∧ (s.unit (dunitNum x)).attempts < 2) :=
  of_dec (by haveI := decAllows; haveI := decBlob; haveI := decReaches; haveI := decTlp; haveI := @decRange; infer_instance) (by decide +kernel)

theorem witness_IntegrityUpkeep :
    (let s : State := sv;
     (s.dev.state = .service ∨ s.dev.state = .degraded) ∧ (∀ e ∈ s.dram.chans, e.2.sr ≠ .idle))
    ∧ (let s : State := chan 5 (fun x => { x with remap := [(3, ⟨.installing, 77⟩)] });
     let c : Chan := .near 0 5;
     let i : BitVec 4 := 3;
     let row : Nat := 77;
     (s.chan (chanNum c)).remap = [(i.toNat, ⟨.installing, row⟩)] ∧ (∀ e ∈ s.dram.gmeta, e.2.errs = []))
    ∧ (let s : State := withNums (chan 258 (fun x => { x with remap := [(0, ⟨.remapped, 77⟩)] })) [(Obj.pprEnable, 1)];
     let c : Chan := .far 2;
     let i : BitVec 4 := 0;
     let row : Nat := 77;
     (s.chan (chanNum c)).remap = [(i.toNat, ⟨.remapped, row⟩)] ∧ s.num Obj.pprEnable = 1)
    ∧ (let s : State := withNums sv [(Obj.nearFillState, 1)];
     s.num Obj.nearFillState = 1)
    ∧ (let s : State := sv;
     (s.dev.state = .service ∨ s.dev.state = .degraded) ∧ s.dram.farDone = false)
    ∧ (let s : State := sv;
     let w : Who := w0;
     let r : BitVec 8 := 0;
     w.ok = true ∧ s.realmOn r.toNat = false ∧ s.allows w (Obj.realmAction r.toNat) [1])
    ∧ (let s : State := sv;
     let w : Who := w0;
     let r : BitVec 8 := 5;
     w.ok = true ∧ r ≠ 0 ∧ s.realmRegions r.toNat = 0 ∧ s.allows w (Obj.realmAction r.toNat) [2])
    ∧ (let s : State := { sv with ctl := { sv.ctl with realms := [(0,1), (5,1)] } };
     let r : BitVec 8 := 0;
     s.realmOn r.toNat = true) :=
  of_dec (by haveI := decAllows; haveI := decBlob; haveI := decReaches; haveI := decTlp; haveI := @decRange; infer_instance) (by decide +kernel)

theorem witness_CheckersAndAlert :
    (let s : State := sv;
     s.aon.round.length + 1 < checkerCount)
    ∧ (let s : State := svUp;
     let p : Fin 16 := 3;
     s.ports[p].state = .up)
    ∧ (let s : State := sv;
     let w : Who := w0;
     w.ok = true ∧ s.allows w Obj.safetyAck (leBytes 1 1))
    ∧ (let s : State := sv;
     let w : Who := w0;
     w.ok = true ∧ s.allows w Obj.alertTest (leBytes 1 1))
    ∧ (let s : State := sv;
     let w : Who := w0;
     w.ok = true ∧ s.allows w Obj.forceSafe (leBytes 1 0x5A)) :=
  of_dec (by haveI := decAllows; haveI := decBlob; haveI := decReaches; haveI := decTlp; haveI := @decRange; infer_instance) (by decide +kernel)

theorem witness_CheckersAndAlert_tested :
    (let s : State := { sv with aon := { sv.aon with tested := List.range 1185, missed := [3] } };
     (∀ n < checkerCount, n ∈ s.aon.tested)) :=
  fun _ hn => List.mem_range.2 hn

end Sys2Proof.Tests.Tide
end

