-- ==== Sys2Proof/Tests/Updates.lean ====
section
/-! SUPPORT. Witnesses: for each clause of the statements named, a state and operands that meet its hypotheses together. -/

namespace Sys2Proof.Tests.Updates

open Sys2Proof.Machine

set_option Elab.async false
set_option maxRecDepth 100000
set_option synthInstance.maxSize 100000
set_option synthInstance.maxHeartbeats 400000

def updS (s : State) (st : Nat) (h : List Byte) (next : Nat := 0) : State :=
  let s := withNums s [(Obj.vbatMv, 3000), (Obj.updState, st), (Obj.updBlockNext, next), (Obj.updBlockCount, hdrCount h), (Obj.updContainerId, hdrId h)]
  let s := s.setBlob Obj.updHeader h
  { s with mgmt := { s.mgmt with upd := { Upd.reset with header := h } } }
def hd1 : List Byte := hdrOf 0 5000
def hd2 : List Byte := hdrOf 0 40000
def hd3 : List Byte := withCrc (slice hd1 0 24 ++ [0xB2] ++ slice hd1 25 227)
def owe (s : State) (k : Nat) : State := { s with mgmt := { s.mgmt with upd := { s.mgmt.upd with owed := some ⟨w0, k⟩ } } }
def blkd (s : State) (b : List Byte) : State := { s with mgmt := { s.mgmt with upd := { s.mgmt.upd with block := some b } } }
def trialRec : URec := ⟨4, 3, 1, 0, 1, 0, 900, zeros 48, zeros 48, []⟩
def tr (s : State) : State := { s with flash := { s.flash with recs := [trialRec] } }
def fr (body : List Byte) (frag frags : Nat) : RelayFrame := ⟨2, true, 0, BitVec.ofNat 16 frag, 0x1122334455, 0, BitVec.ofNat 16 frags, body⟩
def rl (s : State) (r : Relay) : State := let s := withNums s [(Obj.relayRole, 2), (Obj.relayPrev, 2), (Obj.relayNext, 2), (Obj.relayNextBlock, 0)]; { s with mgmt := { s.mgmt with relay := r } }

theorem witness_DownloadsStartAndAbort :
    (let s : State := updS sv 5 hd1;
     let w : Who := w0;
     w.ok = true ∧ s.allows w Obj.updAction (leBytes 1 1) ∧ (s.updSt = 3 ∨ 5 ≤ s.updSt))
    ∧ (let s : State := updS sv 0 (zeros 256);
     let w : Who := w0;
     let h := s.blob Obj.updHeader;
     w.ok = true ∧ s.allows w Obj.updAction (leBytes 1 1) ∧ (s.updSt ≤ 2 ∨ s.updSt = 4) ∧ s.blocked.isNone = true
       ∧ headerFormed h = false)
    ∧ (let s : State := updS sv 0 hd3;
     let w : Who := w0;
     let h := s.blob Obj.updHeader;
     w.ok = true ∧ s.allows w Obj.updAction (leBytes 1 1) ∧ (s.updSt ≤ 2 ∨ s.updSt = 4) ∧ s.blocked.isNone = true
       ∧ headerFormed h = true ∧ headerPart h = false)
    ∧ (let s : State := (updS sv 0 hd1).setBlob Obj.updHeader (hdrOf 1 5000);
     let w : Who := w0;
     let h := s.blob Obj.updHeader;
     let base : Prop := hdrFull h = true ∨ (s.noImage = false ∧ slice h 40 48 = s.blob Obj.imageDigest);
     w.ok = true ∧ s.allows w Obj.updAction (leBytes 1 1) ∧ (s.updSt ≤ 2 ∨ s.updSt = 4) ∧ s.blocked.isNone = true
       ∧ headerFormed h = true ∧ headerPart h = true ∧ ¬base)
    ∧ (let s : State := updS sv 1 hd1;
     let w : Who := w0;
     let h := s.blob Obj.updHeader;
     let base : Prop := hdrFull h = true ∨ (s.noImage = false ∧ slice h 40 48 = s.blob Obj.imageDigest);
     w.ok = true ∧ s.allows w Obj.updAction (leBytes 1 1) ∧ (s.updSt ≤ 2 ∨ s.updSt = 4) ∧ s.blocked.isNone = true
       ∧ headerFormed h = true ∧ headerPart h = true ∧ base ∧ s.updSt = 1 ∧ hdrId h = s.num Obj.updContainerId)
    ∧ (let s : State := updS sv 0 hd1;
     let w : Who := w0;
     let h := s.blob Obj.updHeader;
     let base : Prop := hdrFull h = true ∨ (s.noImage = false ∧ slice h 40 48 = s.blob Obj.imageDigest);
     w.ok = true ∧ s.allows w Obj.updAction (leBytes 1 1) ∧ (s.updSt ≤ 2 ∨ s.updSt = 4) ∧ s.blocked.isNone = true
       ∧ headerFormed h = true ∧ headerPart h = true ∧ base ∧ (s.updSt = 1 → hdrId h ≠ s.num Obj.updContainerId))
    ∧ (let s : State := updS sv 1 hd1;
     let w : Who := w0;
     w.ok = true ∧ s.allows w Obj.updAction (leBytes 1 5) ∧ (s.updSt = 1 ∨ s.updSt = 2 ∨ s.updSt = 4))
    ∧ (let s : State := updS sv 0 hd1;
     let w : Who := w0;
     w.ok = true ∧ s.allows w Obj.updAction (leBytes 1 5) ∧ s.updSt ≠ 1 ∧ s.updSt ≠ 2 ∧ s.updSt ≠ 4) :=
  of_dec (by haveI := decAllows; haveI := decBlob; haveI := decReaches; haveI := decTlp; haveI := @decRange; infer_instance) (by decide +kernel)

theorem witness_BlocksAreWrittenAndVerified :
    (let s : State := updS sv 0 hd1;
     let w : Who := w0;
     let body : List Byte := blkOf 0 5000;
     w.ok = true ∧ s.allowsBlob w Obj.updBlock body ∧ s.updSt ≠ 1)
    ∧ (let s : State := updS sv 1 hd1;
     let w : Who := w0;
     let upd := s.mgmt.upd;
     let body : List Byte := blkOf 1 7232;
     let sound : Prop := (blockBytes upd.header s.baseImage body).isSome = true;
     w.ok = true ∧ s.allowsBlob w Obj.updBlock body ∧ s.updSt = 1 ∧ ¬sound)
    ∧ (let s : State := updS sv 1 hd2 1;
     let w : Who := w0;
     let upd := s.mgmt.upd;
     let body : List Byte := blkOf 0 32768;
     let k := numAt body 0 4;
     let sound : Prop := (blockBytes upd.header s.baseImage body).isSome = true;
     w.ok = true ∧ s.allowsBlob w Obj.updBlock body ∧ s.updSt = 1 ∧ sound ∧ k < s.num Obj.updBlockNext)
    ∧ (let s : State := updS sv 1 hd2;
     let w : Who := w0;
     let upd := s.mgmt.upd;
     let body : List Byte := blkOf 1 7232;
     let k := numAt body 0 4;
     let sound : Prop := (blockBytes upd.header s.baseImage body).isSome = true;
     w.ok = true ∧ s.allowsBlob w Obj.updBlock body ∧ s.updSt = 1 ∧ sound ∧ s.num Obj.updBlockNext < k)
    ∧ (let s : State := updS sv 1 hd1;
     let w : Who := w0;
     let upd := s.mgmt.upd;
     let body : List Byte := blkOf 0 5000;
     let k := numAt body 0 4;
     let sound : Prop := (blockBytes upd.header s.baseImage body).isSome = true;
     w.ok = true ∧ s.allowsBlob w Obj.updBlock body ∧ s.updSt = 1 ∧ sound ∧ k = s.num Obj.updBlockNext ∧ upd.block = none)
    ∧ (let s : State := blkd (updS sv 1 hd1) (blkOf 0 5000);
     let w : Who := w0;
     let outside : Prop := w.path = .t1s ∨ (w.path = .window ∧ w.peer = 0);
     let upd := s.mgmt.upd;
     let served : Prop := s.coreRuns 0 = true ∨ s.mgmt.power.boot = true;
     let b : List Byte := blkOf 0 5000;
     upd.block = some b ∧ served ∧ (∀ x, upd.owed = some x → x.who = w ∧ outside))
    ∧ (let s : State := updS sv 2 hd1;
     let w : Who := w0;
     w.ok = true ∧ s.allows w Obj.updAction (leBytes 1 2) ∧ (s.updSt = 2 ∨ s.updSt = 4))
    ∧ (let s : State := updS sv 0 hd1;
     let w : Who := w0;
     w.ok = true ∧ s.allows w Obj.updAction (leBytes 1 2) ∧ s.updSt ≠ 2 ∧ s.updSt ≠ 4)
    ∧ (let s : State := owe (updS sv 3 hd1) Obj.updAction;
     let w : Who := w0;
     let outside : Prop := w.path = .t1s ∨ (w.path = .window ∧ w.peer = 0);
     let upd := s.mgmt.upd;
     let served : Prop := s.coreRuns 0 = true ∨ s.mgmt.power.boot = true;
     let key : Nat := Obj.updAction;
     outside ∧ upd.owed = some ⟨w, key⟩ ∧ s.updSt = 3 ∧ served) :=
  of_dec (by haveI := decAllows; haveI := decBlob; haveI := decReaches; haveI := decTlp; haveI := @decRange; infer_instance) (by decide +kernel)

theorem witness_ActivationsEndInTrial :
    (let s : State := updS sv 4 hd1;
     let w : Who := w0;
     w.ok = true ∧ s.updSt = 4 ∧ s.blocked.isNone = true ∧ (s.newTables (s.bank s.spareBank)).length ≤ s.slotsFree
       ∧ s.allows w Obj.updAction (leBytes 1 3))
    ∧ (let s : State := owe (updS sv 5 hd1) Obj.updAction;
     let w : Who := w0;
     let outside : Prop := w.path = .t1s ∨ (w.path = .window ∧ w.peer = 0);
     let upd := s.mgmt.upd;
     let key : Nat := Obj.updAction;
     outside ∧ upd.owed = some ⟨w, key⟩ ∧ s.updSt = 5 ∧ upd.committed = false ∧ s.coreRuns 0 = true ∧ s.mgmt.power.boot = false)
    ∧ (let s : State := updS sv 6 hd1;
     let w : Who := w0;
     w.ok = true ∧ s.updSt = 6 ∧ s.allows w Obj.updAction (leBytes 1 4))
    ∧ (let s : State := updS sv 6 hd1;
     let w : Who := w0;
     w.ok = true ∧ s.updSt = 6 ∧ s.allows w Obj.updAction (leBytes 1 6))
    ∧ (let s : State := updS sv 6 hd1;
     s.updSt = 6)
    ∧ (let s : State := tr (owe (updS sv 7 hd1) Obj.updAction);
     let w : Who := w0;
     let outside : Prop := w.path = .t1s ∨ (w.path = .window ∧ w.peer = 0);
     let upd := s.mgmt.upd;
     let key : Nat := Obj.updAction;
     outside ∧ upd.owed = some ⟨w, key⟩ ∧ s.updSt = 7 ∧ s.coreRuns 0 = true ∧ s.trialPrior < 2 ∧ upd.slots.length ≤ 6) :=
  of_dec (by haveI := decAllows; haveI := decBlob; haveI := decReaches; haveI := decTlp; haveI := @decRange; infer_instance) (by decide +kernel)

theorem witness_ActivationsEndInTrial_revoke :
    (let s : State := (let s : State := updS (withNums sv [(Obj.activeBank, 1)]) 4 hd1; { s with flash := { s.flash with revoked := [0, 1, 2], bank1 := ⟨0, zeros 300, false⟩ } });
     let w : Who := w0;
     let v : BitVec 8 := 1;
     ((List.range 4).filter s.slotValid ≠ [v.toNat]) ∧ w.ok = true ∧ v.toNat < 4
       ∧ (let b := (s.bank (s.num Obj.activeBank)).bytes; numAt b (imgLen b - 252) 1 ≠ v.toNat)
       ∧ s.allows w Obj.rootSlotRevoke (leBytes 1 v.toNat)) :=
  ⟨fun h => by
    have := (List.mem_filter.1 (h ▸ List.mem_singleton.2 rfl : (1 : Nat) ∈ (List.range 4).filter _)).2
    simp [State.slotValid] at this, of_dec (by haveI := decAllows; haveI := decBlob; haveI := decReaches; haveI := decTlp; haveI := @decRange; infer_instance) (by decide +kernel)⟩

theorem witness_RelayFramesActAsWrites :
    (let s : State := rl (updS sv 1 hd2 1) Relay.reset;
     let f : RelayFrame := fr hd1 0 1;
     let h := f.body;
     let formed : Prop := headerFormed h = true ∧ headerPart h = true ∧ (hdrFull h = true ∨ (s.noImage = false ∧ slice h 40 48 = s.blob Obj.imageDigest));
     f.body.length ≤ 1200 ∧ s.takesFrames = true ∧ s.fromPrev f = true ∧ (s.updSt ≤ 2 ∨ s.updSt = 4) ∧ s.blocked.isNone = true ∧ formed
       ∧ s.updSt = 1 ∧ hdrId h = s.num Obj.updContainerId)
    ∧ (let s : State := rl (updS sv 0 hd1) Relay.reset;
     let f : RelayFrame := fr hd1 0 1;
     let h := f.body;
     let formed : Prop := headerFormed h = true ∧ headerPart h = true ∧ (hdrFull h = true ∨ (s.noImage = false ∧ slice h 40 48 = s.blob Obj.imageDigest));
     f.body.length ≤ 1200 ∧ s.takesFrames = true ∧ s.fromPrev f = true ∧ (s.updSt ≤ 2 ∨ s.updSt = 4) ∧ s.blocked.isNone = true ∧ formed
       ∧ (s.updSt = 1 → hdrId h ≠ s.num Obj.updContainerId))
    ∧ (let s : State := rl (updS sv 0 hd1) Relay.reset;
     let f : RelayFrame := fr [1,2,3] 0 2;
     let r := s.mgmt.relay;
     let old := if r.began ∧ r.blk = f.word.toNat then r.frags else [];
     let frags := FMap.put old f.frag.toNat f.body;
     let whole : Bool := (List.range f.frags.toNat).all (fun i => frags.any (fun e => e.1 == i));
     f.body.length ≤ 1200 ∧ s.takesFrames = true ∧ s.fromPrev f = true ∧ f.containerId.toNat = s.num Obj.updContainerId ∧ whole = false)
    ∧ (let s : State := rl (updS sv 0 hd1) Relay.reset;
     let f : RelayFrame := fr hd1 0 1;
     let r := s.mgmt.relay;
     let old := if r.began ∧ r.blk = f.word.toNat then r.frags else [];
     let frags := FMap.put old f.frag.toNat f.body;
     let whole : Bool := (List.range f.frags.toNat).all (fun i => frags.any (fun e => e.1 == i));
     f.body.length ≤ 1200 ∧ s.takesFrames = true ∧ s.fromPrev f = true ∧ f.containerId.toNat = s.num Obj.updContainerId ∧ whole = true
       ∧ s.updSt ≠ 1)
    ∧ (let s : State := rl (updS sv 1 hd2 1) Relay.reset;
     let f : RelayFrame := fr hd1 0 1;
     let r := s.mgmt.relay;
     let upd := s.mgmt.upd;
     let old := if r.began ∧ r.blk = f.word.toNat then r.frags else [];
     let frags := FMap.put old f.frag.toNat f.body;
     let whole : Bool := (List.range f.frags.toNat).all (fun i => frags.any (fun e => e.1 == i));
     let body := (List.range f.frags.toNat).flatMap (fun i => FMap.find [] frags i);
     let sound : Prop := (blockBytes upd.header s.baseImage body).isSome = true;
     f.body.length ≤ 1200 ∧ s.takesFrames = true ∧ s.fromPrev f = true ∧ f.containerId.toNat = s.num Obj.updContainerId ∧ whole = true
       ∧ s.updSt = 1 ∧ ¬sound)
    ∧ (let s : State := rl (updS sv 1 hd2 1) Relay.reset;
     let f : RelayFrame := fr (blkOf 0 32768) 0 1;
     let r := s.mgmt.relay;
     let upd := s.mgmt.upd;
     let old := if r.began ∧ r.blk = f.word.toNat then r.frags else [];
     let frags := FMap.put old f.frag.toNat f.body;
     let whole : Bool := (List.range f.frags.toNat).all (fun i => frags.any (fun e => e.1 == i));
     let body := (List.range f.frags.toNat).flatMap (fun i => FMap.find [] frags i);
     let sound : Prop := (blockBytes upd.header s.baseImage body).isSome = true;
     f.body.length ≤ 1200 ∧ s.takesFrames = true ∧ s.fromPrev f = true ∧ f.containerId.toNat = s.num Obj.updContainerId ∧ whole = true
       ∧ s.updSt = 1 ∧ sound ∧ numAt body 0 4 < s.num Obj.updBlockNext)
    ∧ (let s : State := rl (updS sv 1 hd1) Relay.reset;
     let f : RelayFrame := fr (blkOf 0 5000) 0 1;
     let r := s.mgmt.relay;
     let upd := s.mgmt.upd;
     let old := if r.began ∧ r.blk = f.word.toNat then r.frags else [];
     let frags := FMap.put old f.frag.toNat f.body;
     let whole : Bool := (List.range f.frags.toNat).all (fun i => frags.any (fun e => e.1 == i));
     let body := (List.range f.frags.toNat).flatMap (fun i => FMap.find [] frags i);
     let sound : Prop := (blockBytes upd.header s.baseImage body).isSome = true;
     f.body.length ≤ 1200 ∧ s.takesFrames = true ∧ s.fromPrev f = true ∧ f.containerId.toNat = s.num Obj.updContainerId ∧ whole = true
       ∧ s.updSt = 1 ∧ sound ∧ numAt body 0 4 = s.num Obj.updBlockNext ∧ upd.block = none) :=
  of_dec (by haveI := decAllows; haveI := decBlob; haveI := decReaches; haveI := decTlp; haveI := @decRange; infer_instance) (by decide +kernel)

theorem witness_RelayForwardsBlocks :
    (let s : State := rl (updS sv 0 hd1) Relay.reset;
     let f : RelayFrame := fr hd1 0 1;
     f.body.length ≤ 1200 ∧ s.takesFrames = true ∧ f.magicOk = true ∧ s.relays = true ∧ f.slot.toNat = s.num Obj.relayNext
       ∧ f.containerId.toNat = s.num Obj.updContainerId)
    ∧ (let s : State := rl (updS sv 1 hd1) { Relay.reset with sent := [0,1,2,5], resend := [(1, 20)], next := 6 };
     let r := s.mgmt.relay;
     let blk : BitVec 32 := 0;
     let c := FMap.find 0 r.resend blk.toNat;
     r.sent.contains blk.toNat = true ∧ r.paused = false ∧ c < 20)
    ∧ (let s : State := rl (updS sv 1 hd1) { Relay.reset with sent := [0,1,2,5], resend := [(1, 20)], next := 6 };
     let r := s.mgmt.relay;
     let blk : BitVec 32 := 1;
     let c := FMap.find 0 r.resend blk.toNat;
     r.sent.contains blk.toNat = true ∧ r.paused = false ∧ 20 ≤ c)
    ∧ (let s : State := rl (updS sv 0 hd1) Relay.reset;
     let r := s.mgmt.relay;
     let blk : BitVec 32 := 0;
     (r.sent.contains blk.toNat = false ∨ r.paused = true))
    ∧ (let s : State := rl (updS sv 1 hd2 1) Relay.reset;
     s.num Obj.relayRole = 2 ∧ s.updSt = 1)
    ∧ (let s : State := rl (updS sv 0 hd1) Relay.reset;
     (s.num Obj.relayRole ≠ 2 ∨ s.updSt ≠ 1)) :=
  of_dec (by haveI := decAllows; haveI := decBlob; haveI := decReaches; haveI := decTlp; haveI := @decRange; infer_instance) (by decide +kernel)

end Sys2Proof.Tests.Updates
end

section
/-! PROOFS. Pool sessions: what OPEN, RESIZE and CLOSE leave (R146, R148–R150). -/

namespace Sys2Proof.Machine.State

/-- A group holds no index from the end of its range on. -/
theorem group_has_lt {g : OGroup} {i : Nat} (h : g.has i = true) : i < g.base + max 1 (g.stride * g.count) := by
  unfold OGroup.has at h
  split at h
  · have : i = g.base := by simpa using h
    omega
  · simp only [Bool.and_eq_true, decide_eq_true_eq, beq_iff_eq] at h
    obtain ⟨⟨hb, hm⟩, hc⟩ := h
    rcases Nat.eq_zero_or_pos g.stride with h0 | h0
    · rw [h0, Nat.mod_zero] at hm
      omega
    · have := (Nat.div_lt_iff_lt_mul h0).1 hc
      rw [Nat.mul_comm] at this
      omega

/-- An index is looked up in its group where every earlier group ends before that one begins. -/
theorem objRow_of_group {as bs : List OGroup} {g : OGroup} {i : Nat} (sub : Nat) (e : groups = as ++ g :: bs)
    (ha : ∀ a ∈ as, a.base + max 1 (a.stride * a.count) ≤ g.base) (hi : g.base ≤ i) (hg : g.has i = true) :
    objRow i sub = g.rows.find? (fun r => r.sub0 ≤ sub && sub ≤ r.sub1) := by
  have hn : as.find? (·.has i) = none := List.find?_eq_none.2 fun a hm h => by
    have := group_has_lt h
    have := ha a hm
    omega
  have hf : groups.find? (·.has i) = some g := by rw [e, List.find?_append, hn]; simp [hg]
  unfold objRow
  rw [hf]

/-- SESSION_ACTION is an enumeration that no mask cuts. -/
theorem objRow_sessionAction (n : BitVec 10) : objRow (0x3100 + n.toNat) 7 = some ⟨7, 7, .enum8, .wo, 4, 2, 0, .imm, false, .any⟩ := by
  have := n.isLt
  refine (objRow_of_group (as := groups0 ++ groups1.takeWhile (·.base != 0x3100)) (g := ⟨0x3100, 1, 1024, rows3100⟩)
    (bs := (groups1.dropWhile (·.base != 0x3100)).tail ++ (groups2 ++ groups3 ++ groups4 ++ groups5)) 7 rfl (by decide) (by simp) ?_).trans rfl
  simp [OGroup.has]; omega

/-- Two states that H3 cannot tell apart when it serves a session's action: they differ in the dictionary server and in its counters. -/
structure SameForSessions (s t : State) : Prop where
  ctl : t.ctl = s.ctl
  tide : t.tide = s.tide
  ring : t.mgmt.ring = s.mgmt.ring
  num : ∀ k, askObj k = false → t.num k = s.num k

theorem taken_sameForSessions (s : State) (w : Who) : SameForSessions s (s.taken w) where
  ctl := taken_ctl s w
  tide := taken_tide s w
  ring := by rw [taken_mgmt]
  num := askObj_num s w

/-- No object of a session is one of the dictionary server's counters. -/
theorem askObj_session (n : BitVec 10) (sub : Nat) (h : sub < 256) : askObj (okey (0x3100 + n.toNat) sub) = false := by
  have hlt := n.isLt
  simp only [askObj, okey, Obj.t1sFramesRx, Obj.t1sFramesTx, Bool.or_eq_false_iff, beq_eq_false_iff_ne]
  omega

section
variable {s t : State} (h : SameForSessions s t) (n : BitVec 10)
include h

theorem SameForSessions.session (n : Nat) : t.session n = s.session n := by unfold State.session; rw [h.ctl]

theorem SameForSessions.sessionUse (n : Nat) (near : Bool) : t.sessionUse n near = s.sessionUse n near := by
  unfold State.sessionUse; rw [h.ctl]

theorem SameForSessions.sessionRegions (n : Nat) : t.sessionRegions n = s.sessionRegions n := by unfold State.sessionRegions; rw [h.ctl]

theorem SameForSessions.ringReserved (n : Nat) : t.ringReserved false n = s.ringReserved false n := by unfold State.ringReserved; rw [h.ring]

theorem SameForSessions.nearLimit : t.num (Obj.sessionNearLimit n.toNat) = s.num (Obj.sessionNearLimit n.toNat) :=
  h.num _ (askObj_session n 2 (by decide))

theorem SameForSessions.farLimit : t.num (Obj.sessionFarLimit n.toNat) = s.num (Obj.sessionFarLimit n.toNat) :=
  h.num _ (askObj_session n 3 (by decide))

theorem SameForSessions.unitFenced : t.unitFenced = s.unitFenced := funext fun u => by
  unfold State.unitFenced
  rw [h.num _ (by decide), h.num _ (by decide), h.num _ (by decide)]

theorem SameForSessions.slotPages : t.slotPages = s.slotPages := funext fun m => by
  unfold State.slotPages bayCount slot lent
  rw [h.tide]

theorem SameForSessions.limitBreaks (near : Bool) : t.limitBreaks n.toNat near = s.limitBreaks n.toNat near := by
  cases near
  · simp only [State.limitBreaks, h.session, farLimits, farReservable, slot, h.ctl, h.tide, h.farLimit n, h.unitFenced, h.slotPages,
      Bool.false_eq_true, if_false]
  · simp only [State.limitBreaks, h.session, nearLimits, nearReservable, liveStacks, h.ctl, h.nearLimit n, h.unitFenced,
      h.num Obj.nearReservableCap (by decide), if_true]

end

section
variable {s t : State} {w : Who} {n : BitVec 10} (h : SameForSessions s t) (hr : s.ringReserved false n.toNat = false)
include h hr

/-- OPEN and RESIZE put the staged limits into force (R146, R148, R149). -/
theorem sessionAct_limits {a : Nat} (ha : a = 1 ∨ a = 2) (hopen : (s.session n.toNat).isOpen = !decide (a = 1))
    (hfill : s.num Obj.nearFillState = 2) (hn : s.limitBreaks n.toNat true = false) (hf : s.limitBreaks n.toNat false = false)
    (huse : a = 2 → s.sessionUse n.toNat true ≤ s.num (Obj.sessionNearLimit n.toNat) ∧ s.sessionUse n.toNat false ≤ s.num (Obj.sessionFarLimit n.toNat)) :
    t.sessionAct n.toNat a w = (.now .ok 0, (t.setSession n.toNat
      ⟨true, s.num (Obj.sessionNearLimit n.toNat), s.num (Obj.sessionFarLimit n.toNat)⟩).setNum (Obj.sessionReason n.toNat) 0) := by
  have hlow : ¬ (a = 2 ∧ (s.num (Obj.sessionNearLimit n.toNat) < s.sessionUse n.toNat true
      ∨ s.num (Obj.sessionFarLimit n.toNat) < s.sessionUse n.toNat false)) := by
    rintro ⟨h2, hlt⟩
    have := huse h2
    omega
  have h3 : a ≠ 3 := by omega
  simp only [sessionAct, h.ringReserved, hr, h.num Obj.nearFillState (by decide), hfill, h.session, hopen, h.sessionUse, h.limitBreaks, hn, hf,
    h.nearLimit n, h.farLimit n, applyLimits, sessionAns, Bool.false_eq_true, if_false, ne_eq, not_true, and_false, h3, Bool.not_eq_eq_eq_not,
    decide_eq_true_eq, if_true]
  simpa using hlow

/-- CLOSE ends a session that holds no region (R149, R150). -/
theorem sessionAct_close (hopen : (s.session n.toNat).isOpen = true) (hreg : s.sessionRegions n.toNat = 0) :
    t.sessionAct n.toNat 3 w = (.now .ok 0, (t.setSession n.toNat Session.closed).setNum (Obj.sessionReason n.toNat) 0) := by
  simp [sessionAct, h.ringReserved, hr, h.session, hopen, h.sessionRegions, hreg, sessionAns]

end

/-- A session's action reaches H3 at once where no commit is under way (R123). -/
theorem applyWrite_sessionAction (s : State) (w : Who) (n : BitVec 10) (a : Nat) (r : ORow)
    (hr : objRow (Obj.sessionAction n.toNat / 256) (Obj.sessionAction n.toNat % 256) = some r) (ha : a = 1 ∨ a = 2 ∨ a = 3) (hb : s.h3Busy = false) :
    applyWrite s ⟨w, Obj.sessionAction n.toNat⟩ r (leBytes 1 a) = s.sessionAct n.toNat a w := by
  have hlt := n.isLt
  have hi : Obj.sessionAction n.toNat / 256 = 0x3100 + n.toNat := by simp only [Obj.sessionAction, okey]; omega
  have hs : Obj.sessionAction n.toNat % 256 = 7 := by simp only [Obj.sessionAction, okey]; omega
  rw [hi, hs, objRow_sessionAction] at hr
  cases hr
  rw [apply_tide s w _ _ _ (by rw [hi]; simp [isNotice]; omega) (by omega) (by omega)]
  have hv : ∀ q : ORow, q.rng = .any → stored q (leBytes 1 a) = a := fun q hq => by
    simp only [stored, hq]; exact leNat_leBytes 1 a (by omega)
  rw [hv _ rfl]
  have hk : ∀ k : Nat, k / 256 < 0x3100 → Obj.sessionAction n.toNat ≠ k := fun k h e => by rw [e] at hi; omega
  have hw : s.tideWrite w (Obj.sessionAction n.toNat) a ⟨7, 7, .enum8, .wo, 4, 2, 0, .imm, false, .any⟩ (leBytes 1 a)
      = s.sessionActionWrite w n.toNat a := by
    unfold tideWrite
    simp only [hi, hs, hk _ (show Obj.nearReservableCap / 256 < 0x3100 by decide), hk _ (show Obj.nearHighMark / 256 < 0x3100 by decide),
      hk _ (show Obj.cloneAction / 256 < 0x3100 by decide), hk _ (show okey 0x3010 2 / 256 < 0x3100 by decide), if_false, if_true]
    rw [if_neg (by omega), if_pos (by omega), Nat.add_sub_cancel_left]
  rw [hw]
  unfold sessionActionWrite
  rcases ha with rfl | rfl | rfl <;> simp [hb, sessionOpen, sessionResize, sessionClose]

/-- What a session's action that succeeds leaves, from what H3 does in the state that counts the request. -/
theorem obeys_sessionAction {s : State} {c : Instr} {w : Who} {n : BitVec 10} {a : Nat} {y : Session}
    (e : exec c s = runOk true s (fun s => s.write w (Obj.sessionAction n.toNat) (leBytes 1 a))) (ha : a = 1 ∨ a = 2 ∨ a = 3)
    (hb : s.h3Busy = false)
    (ht : (s.taken w).sessionAct n.toNat a w = (.now .ok 0, ((s.taken w).setSession n.toNat y).setNum (Obj.sessionReason n.toNat) 0)) :
    s.obeys c w (Obj.sessionAction n.toNat) (leBytes 1 a) [] [.objs, .ctl, .mgmt, .out]
      (fun u => u.session n.toNat = y ∧ (∀ j, j ≠ n.toNat → u.session j = s.session j) ∧ u.num (Obj.sessionReason n.toNat) = 0) := by
  intro hal
  have hb' : (s.taken w).h3Busy = false := by unfold h3Busy at hb ⊢; rw [taken_ctl]; exact hb
  obtain ⟨hw, r, hl⟩ := write_leaves e hal (fun r hr => (applyWrite_sessionAction _ w n a r hr ha hb').trans ht)
  have hs : ∀ j, (((((s.taken w).setSession n.toNat y).setNum (Obj.sessionReason n.toNat) 0).granted w (Obj.sessionAction n.toNat) r
      (leBytes 1 a))).session j = if j = n.toNat then y else s.session j := fun j => by
    have hj : (s.taken w).session j = s.session j := by unfold session; rw [taken_ctl]
    rw [← hj, ← session_setSession]
    unfold session
    rw [granted_ctl _ w _ r _ hw, setNum_ctl]
  refine ⟨_, hl, ⟨?_, ?_, ?_⟩, ?_, ?_⟩
  · rw [hs, if_pos rfl]
  · intro j hj
    rw [hs, if_neg hj]
  · rw [granted_taken_num w _ _ r _ hw _ (askObj_session n 8 (by decide))]
    exact num_setNum_self ..
  · refine wr_changes _ r _ hw _ (changesOnly_trans (changesOnly_mono (setSession_changes _ _ _) ?_) (changesOnly_mono (setNum_changes _ _ _) ?_))
      ?_ ?_ ?_ <;> simp
  · exact wr_out _ r _ hw [] (by rw [setNum_out, setSession_out, taken_out, List.append_nil])

end Sys2Proof.Machine.State

namespace Sys2Proof.Machine

open State

/-- Settles O46: each action of a session, served at once, answers OK with the session as the staged limits or CLOSE make it. -/
theorem sessionsTakeTheirLimits : Obligations.SessionsTakeTheirLimits := by
  intro s w n
  dsimp only
  intro hw hb hr
  have h := taken_sameForSessions s w
  refine ⟨fun hc hfit => ?_, fun ho hfit hnu hfu => ?_, fun ho hreg => ?_⟩
  · obtain ⟨hfill, hn, hf⟩ := hfit
    exact obeys_sessionAction (exec_of_sender _ s _ hw rfl rfl) (.inl rfl) hb
      (sessionAct_limits h hr (.inl rfl) (by simpa using hc) hfill hn hf (by simp))
  · obtain ⟨hfill, hn, hf⟩ := hfit
    exact obeys_sessionAction (exec_of_sender _ s _ hw rfl rfl) (.inr (.inl rfl)) hb
      (sessionAct_limits h hr (.inr rfl) (by simpa using ho) hfill hn hf (fun _ => ⟨hnu, hfu⟩))
  · exact obeys_sessionAction (exec_of_sender _ s _ hw rfl rfl) (.inr (.inr rfl)) hb (sessionAct_close h hr ho hreg)

end Sys2Proof.Machine
end

section
/-! PROOFS. What decides capacity ebbing through the rest of a step, while no request is under way.

The statements on regions (COMMIT_COMPLETE) and on sealing (SEALING_COMPLETE) pin `tide` of the effect `u`, where the effect may end capacity
ebbing. What follows in the same step mostly evaluates capacity ebbing anew, and then `u` is not told apart from the effect. These proofs
show that it is told apart where a fault of Core C fences a stack first: with that stack gone, NEAR_FREE lies between the marks, and
capacity ebbing stays as it is. -/

namespace Sys2Proof.Machine.State

/-- The objects that decide capacity ebbing besides NEAR_FREE (R257), the fenced stacks, and UPD_STATE. -/
def watched : List Nat := [Obj.nearLowMark, Obj.nearHighMark, Obj.fencedStacks, Obj.updState]

/-- What a step would have to serve (requests, lines of the store, completions, Bollard waiters, directory entries and transactions, jobs), which
ports run, the time, and the use of the ring's region. -/
structure Waiting where
  reqs   : List Req
  store  : FMap StoreLine
  epDone : List (Via × Cpl)
  waiters : List Waiter
  ents   : FMap DEntry
  txns   : FMap Txn
  census : List Nat
  jobs   : List Job
  ports  : Fin 16 → PortState
  now    : Nat
  pool   : RegState × RegAct

def waiting (s : State) : Waiting where
  reqs := s.path.reqs
  store := s.path.store
  epDone := s.path.epDone
  waiters := s.path.waiters
  ents := s.dir.ents
  txns := s.dir.txns
  census := s.dir.censusBad
  jobs := s.tide.jobs
  ports p := s.ports[p].state
  now := s.dev.now
  pool := ((s.region 4095).st, (s.region 4095).act)

/-- Nothing waits to be served, no port runs, the clock stands at 0, and the ring's region is in use with an action
under way. -/
structure Rests (s : State) : Prop where
  reqs : s.path.reqs = []
  store : s.path.store = []
  epDone : s.path.epDone = []
  waiters : s.path.waiters = []
  ents : s.dir.ents = []
  txns : s.dir.txns = []
  census : s.dir.censusBad = []
  jobs : s.tide.jobs = []
  ports : ∀ p : Fin 16, s.ports[p].state = .down
  now : s.dev.now = 0
  pool : (s.region 4095).st ≠ .free ∧ (s.region 4095).act ≠ .none

/-- Stack 0 is fenced, the high mark lies above what the other seven stacks can hold free, and the low mark is 0: capacity ebbing neither
begins nor ends (R257). -/
def steady (s : State) : Bool :=
  decide (s.num Obj.nearLowMark = 0 ∧ 7 * (2 ^ 20 - metaBays) < s.num Obj.nearHighMark ∧ s.num Obj.fencedStacks = 1)

/-- What the rest of a step keeps: what waits, the watched objects, and capacity ebbing where it is steady. -/
def sight (s : State) : Waiting × List Nat × Bool := (s.waiting, watched.map s.num, s.steady && s.tide.ebbing)

/-- The facts at once, as an evaluation gives them. -/
theorem Rests.of_and {s : State} (h : (s.path.reqs = [] ∧ s.path.store = [] ∧ s.path.epDone = [] ∧ s.path.waiters = [])
    ∧ (s.dir.ents = [] ∧ s.dir.txns = [] ∧ s.dir.censusBad = [] ∧ s.tide.jobs = [])
    ∧ (∀ p : Fin 16, s.ports[p].state = .down) ∧ s.dev.now = 0 ∧ (s.region 4095).st ≠ .free ∧ (s.region 4095).act ≠ .none) : s.Rests := by
  obtain ⟨⟨h1, h2, h3, h4⟩, ⟨h5, h6, h7, h8⟩, h9, h10, h11⟩ := h
  exact ⟨h1, h2, h3, h4, h5, h6, h7, h8, h9, h10, h11⟩

theorem Rests.of_waiting {s t : State} (h : s.Rests) (e : t.waiting = s.waiting) : t.Rests := by
  simp only [waiting, Waiting.mk.injEq] at e
  obtain ⟨e1, e2, e3, e0, e4, e5, e6, e7, e8, e9, e10⟩ := e
  exact ⟨e1.trans h.reqs, e2.trans h.store, e3.trans h.epDone, e0.trans h.waiters, e4.trans h.ents, e5.trans h.txns, e6.trans h.census, e7.trans h.jobs,
    fun p => (congrFun e8 p).trans (h.ports p), e9.trans h.now, by simp only [Prod.mk.injEq] at e10; rw [e10.1, e10.2]; exact h.pool⟩

variable {s t : State}

theorem waiting_of_sight (e : t.sight = s.sight) : t.waiting = s.waiting := congrArg (·.1) e

theorem num_of_sight (e : t.sight = s.sight) {k : Nat} (hk : k ∈ watched) : t.num k = s.num k := by
  have : watched.map t.num = watched.map s.num := congrArg (·.2.1) e
  exact List.map_inj_left.1 this k hk

theorem steady_congr (hn : ∀ k ∈ watched, t.num k = s.num k) : t.steady = s.steady := by
  unfold steady
  rw [hn _ (by decide), hn _ (by decide), hn _ (by decide)]

theorem sight_congr (hw : t.waiting = s.waiting) (hn : ∀ k ∈ watched, t.num k = s.num k)
    (he : s.steady = true → t.tide.ebbing = s.tide.ebbing) : t.sight = s.sight := by
  unfold sight
  rw [hw, List.map_inj_left.2 hn, steady_congr hn]
  cases hs : s.steady
  · rfl
  · rw [he hs]

theorem Rests.of_sight (h : s.Rests) (e : t.sight = s.sight) : t.Rests := h.of_waiting (waiting_of_sight e)

theorem waiting_of_parts (h1 : t.path = s.path) (h2 : t.dir = s.dir) (h3 : t.tide = s.tide) (h4 : t.ports = s.ports) (h5 : t.dev.now = s.dev.now)
    (h6 : t.ctl = s.ctl) : t.waiting = s.waiting := by
  unfold waiting region
  rw [h1, h2, h3, h4, h5, h6]

theorem sight_ite {c : Prop} [Decidable c] {x : Waiting × List Nat × Bool} (hs : c → s.sight = x) (ht : ¬ c → t.sight = x) :
    (if c then s else t).sight = x := by
  split
  · exact hs ‹_›
  · exact ht ‹_›

/-! ## Updates of one part -/

theorem sight_setNum {k v : Nat} (hk : k ∉ watched) : (s.setNum k v).sight = s.sight :=
  sight_congr rfl (fun _ hj => num_setNum_ne _ _ fun e => hk (e ▸ hj)) (fun _ => rfl)

theorem sight_bump {k n : Nat} (hk : k ∉ watched) : (s.bump k n).sight = s.sight := sight_setNum hk

@[simp] theorem sight_setRing (r : Ring) : (s.setRing r).sight = s.sight := rfl
@[simp] theorem sight_emit (o : Out) : (s.emit o).sight = s.sight := rfl
@[simp] theorem sight_setBlob (k : Nat) (v : List Byte) : (s.setBlob k v).sight = s.sight := rfl
@[simp] theorem sight_setEntry (p : Nat) (e : TEntry) : (s.setEntry p e).sight = s.sight := rfl
@[simp] theorem sight_setSession (n : Nat) (x : Session) : (s.setSession n x).sight = s.sight := rfl

/-! ## Events and notices -/

theorem watched_not_report {k : Nat} (hk : k ∈ watched) : reportObj k = false := by
  revert k; decide

@[simp] theorem sight_raise (code detail : Nat) : (s.raise code detail).sight = s.sight :=
  sight_congr (waiting_of_parts (by simp) (by simp) (by simp) (by simp) (by simp) (by simp))
    (fun _ hk => raise_num _ _ _ _ (watched_not_report hk)) (fun _ => by simp)

@[simp] theorem sight_pendIrq (v : Nat) : (s.pendIrq v).sight = s.sight := by unfold pendIrq; split <;> rfl

@[simp] theorem sight_happen (sel : Nat) (src : Option Nat) (cls : Nat) (uc : Bool) (n : Nat) : (s.happen sel src cls uc n).sight = s.sight :=
  sight_congr (waiting_of_parts (by simp) (by simp) (by simp) (by simp) (by simp) (by simp)) (fun _ _ => happen_num _ _ _ _ _ _ _) (fun _ => by simp)

theorem sight_atLeast {k v : Nat} (hk : k ∉ watched) : (s.atLeast k v).sight = s.sight := by
  unfold atLeast; split
  · exact sight_setNum hk
  · rfl

theorem sight_logBackup (code detail : Nat) (sf bk : Bool) : (s.logBackup code detail sf bk).sight = s.sight :=
  sight_congr (waiting_of_parts (by simp) (by simp) (by simp) (by simp) (by simp) (by simp)) (fun _ _ => by unfold num; simp) (fun _ => by simp)

/-- A notice is evaluated: its own objects and the reports change. -/
theorem sight_evalNotice {idx : Nat} (hi : ∀ sub < 5, okey idx sub ∉ watched) (level : Int) (falling : Bool) (code : Nat) :
    (s.evalNotice idx level falling code).sight = s.sight := by
  unfold evalNotice
  extract_lets s1 pk s2 mark hyst rearm a cross s3 s4 b
  have h2 : s2.sight = s.sight := by
    exact sight_ite (fun _ => (sight_setNum (hi 4 (by decide))).trans (sight_setNum (hi 1 (by decide)))) (fun _ => sight_setNum (hi 1 (by decide)))
  refine Eq.trans ?_ h2
  refine sight_ite (fun _ => sight_ite (fun _ => rfl) (fun _ => rfl)) (fun _ => sight_ite (fun _ => ?_) (fun _ => rfl))
  have h3 : s3.sight = s2.sight := sight_setNum (hi 2 (by decide))
  have h4 : s4.sight = s3.sight := sight_setNum (hi 3 (by decide))
  exact (sight_raise _ _).trans (Eq.trans (b := s4.sight) rfl (h4.trans h3))

/-! ## Capacity ebbing -/

theorem freeBays_le (k : Nat) (hk : k < 8) : s.freeBays k ≤ 2 ^ 20 - metaBays := by
  unfold freeBays bayLimit
  rw [if_pos hk, if_pos hk]
  split <;> omega

/-- With stack 0 fenced, the free bays lie in the other seven stacks. -/
theorem nearFree_lt_high (h : s.steady = true) : s.nearFree < s.num Obj.nearHighMark := by
  obtain ⟨-, hh, hf⟩ := of_decide_eq_true h
  have h0 : s.freeBays 0 = 0 := by
    have : s.unitOpen 0 = false := by unfold unitOpen unitFenced; rw [hf]; rfl
    unfold freeBays
    rw [this, if_neg Bool.false_ne_true]
  have hs : s.nearBays = ((List.range 8).map s.freeBays).sum := rfl
  have hl : List.range 8 = [0, 1, 2, 3, 4, 5, 6, 7] := rfl
  rw [hl] at hs
  simp only [List.map_cons, List.map_nil, List.sum_cons, List.sum_nil, h0] at hs
  have h1 := s.freeBays_le 1 (by decide)
  have h2 := s.freeBays_le 2 (by decide)
  have h3 := s.freeBays_le 3 (by decide)
  have h4 := s.freeBays_le 4 (by decide)
  have h5 := s.freeBays_le 5 (by decide)
  have h6 := s.freeBays_le 6 (by decide)
  have h7 := s.freeBays_le 7 (by decide)
  unfold nearFree
  omega

theorem ebbOn_of_steady (h : s.steady = true) : s.ebbOn = s.tide.ebbing := by
  have hl : s.num Obj.nearLowMark = 0 := (of_decide_eq_true h).1
  unfold ebbOn
  rw [if_neg (Nat.not_le.2 (nearFree_lt_high h)), hl, if_neg (Nat.not_lt_zero _)]

@[simp] theorem sight_noteEbbing : s.noteEbbing.sight = s.sight := by
  unfold noteEbbing
  exact sight_ite (fun _ => rfl) (fun _ => sight_congr rfl (fun _ _ => rfl) ebbOn_of_steady)

@[simp] theorem sight_noteNear : s.noteNear.sight = s.sight := sight_noteEbbing.trans (sight_evalNotice (by decide) _ _ _)

@[simp] theorem sight_noteTabs : s.noteTabs.sight = s.sight := sight_evalNotice (by decide) _ _ _

theorem sight_watchNear : s.watchNear.sight = s.sight := sight_ite (fun _ => sight_noteEbbing) (fun _ => sight_noteNear)

theorem sight_noteBacking : s.noteBacking.sight = s.sight :=
  sight_ite (fun _ => rfl) (fun _ => (sight_evalNotice (by decide) _ _ _).trans (sight_setNum (by decide)))

theorem sight_watchSlots : s.watchSlots.sight = s.sight := sight_ite (fun _ => rfl) (fun _ => sight_evalNotice (by decide) _ _ _)

/-! ## Effects over a list -/

theorem sight_foldl {α : Type} (f : State → α → State) (xs : List α) (h : ∀ s, ∀ x ∈ xs, (f s x).sight = s.sight) (s : State) :
    (xs.foldl f s).sight = s.sight := by
  induction xs generalizing s with
  | nil => rfl
  | cons x xs ih => exact (ih (fun t y hy => h t y (List.mem_cons_of_mem _ hy)) _).trans (h s x (List.mem_cons_self ..))

theorem sight_each {α : Type} (f : State → α → State) (xs : List α) (h : ∀ s, ∀ x ∈ xs, (f s x).sight = s.sight) (s : State) :
    (s.each xs f).sight = s.sight := sight_foldl f xs h s

end Sys2Proof.Machine.State
end

section
/-! PROOFS. The device's own writes of the ring region and the rings keep the sight (R615–R627). -/

namespace Sys2Proof.Machine.State

variable {s t : State}

/-! ## The device's own writes of the ring region (R617) -/

theorem sight_putGran (w : GW) : (s.putGran w).sight = s.sight :=
  (sight_ite (fun _ => sight_bump (by decide)) (fun _ => rfl) :
    (if w.gran.poison then s.bump Obj.poisonWritten else s).sight = s.sight)

theorem sight_armedErrs (k : Nat) : (s.armedErrs k).2.sight = s.sight := by
  unfold armedErrs
  extract_lets flip c e1 s1 obj sp e2 s2
  have h1 : s1.sight = s.sight := sight_ite (fun _ => rfl) (fun _ => (sight_raise _ _).trans (sight_setNum (by decide)))
  have ho : obj ∉ watched := by
    unfold obj
    simp only [watched, List.mem_cons, List.not_mem_nil, or_false, okey, Obj.nearLowMark, Obj.nearHighMark, Obj.fencedStacks, Obj.updState,
      Obj.stackSplitWrite, Obj.chSplitWrite]
    split <;> omega
  exact Eq.trans (sight_ite (fun _ => rfl) (fun _ => (sight_raise _ _).trans (sight_setNum ho))) h1

theorem sight_dramWrite (w : GW) : (s.dramWrite w).sight = s.sight := by
  unfold dramWrite
  extract_lets s1 errs s2 a
  have h1 : s1.sight = s.sight := sight_ite (fun _ => sight_happen _ _ _ _ _) (fun _ => rfl)
  have h2 : s2.sight = s1.sight := (sight_putGran w).trans (sight_armedErrs _)
  exact sight_ite (fun _ => (sight_putGran w).trans h1) (fun _ => sight_ite (fun _ => h2.trans h1) (fun _ => h2.trans h1))

theorem sight_writeNow (ws : List GW) : (s.writeNow ws).sight = s.sight := by
  refine sight_each _ _ (fun t w _ => ?_) s
  dsimp only
  exact sight_ite (fun _ => sight_putGran w) (fun _ => sight_dramWrite w)

theorem sight_allocBay {tier page : Nat} {no : List Nat} {x : Copy × State} (h : s.allocBay tier page no = some x) : x.2.sight = s.sight := by
  unfold allocBay at h
  split at h
  · cases h
  · split at h
    · cases h
    · cases h; rfl

theorem sight_allocCopies {tier page : Nat} {mirror : Bool} {x : Copy × Copy × State} (h : s.allocCopies tier page mirror = some x) :
    x.2.2.sight = s.sight := by
  unfold allocCopies at h
  split at h
  · cases h
  · rename_i a s2 h1
    split at h
    · split at h
      · cases h
      · rename_i h2
        cases h
        exact (sight_allocBay h2).trans (sight_allocBay h1)
    · cases h
      exact (sight_allocBay h1 : (a, s2).2.sight = _)

theorem sight_storeIndex (c : Copy) (x : Gran) : (s.storeIndex c x).sight = s.sight := sight_ite (fun _ => rfl) (fun _ => rfl)

theorem sight_nextVersion (v : BitVec 32) : (s.nextVersion v).2.sight = s.sight :=
  sight_ite (fun _ => sight_bump (by decide)) (fun _ => rfl)

@[simp] theorem sight_placing (ps : List Nat) : ({ s with tide := { s.tide with placing := ps } } : State).sight = s.sight := rfl

/-- A first placement (R252–R254). -/
theorem sight_place {p : Nat} {m : Mode} (h : s.place p m = .done t) : t.sight = s.sight := by
  unfold place at h
  dsimp only at h
  split at h
  · split at h <;> cases h
  · rename_i hc
    cases h
    exact sight_noteNear.trans ((sight_placing _).trans ((sight_storeIndex _ _).trans ((sight_storeIndex _ _).trans
      ((sight_writeNow _).trans ((sight_setEntry _ _).trans ((sight_nextVersion _).trans (sight_allocCopies hc)))))))

theorem find_map_congr {β : Type} (g : Region → β) (f : Nat × Region → Region) (hf : ∀ e, g (f e) = g e.2) (m : FMap Region) (k : Nat) :
    g (FMap.find Region.free (m.map (fun e => (e.1, f e))) k) = g (FMap.find Region.free m k) := by
  induction m with
  | nil => rfl
  | cons e m ih =>
    simp only [List.map_cons, FMap.find]
    split
    · exact hf e
    · exact ih

theorem sight_freeCopy (c : Copy) : (s.freeCopy c).sight = s.sight := by
  refine sight_congr ?_ (fun _ _ => rfl) (fun _ => rfl)
  have hp : (((s.freeCopy c).region 4095).st, ((s.freeCopy c).region 4095).act) = ((s.region 4095).st, (s.region 4095).act) :=
    find_map_congr (fun r => (r.st, r.act)) (fun e => { e.2 with
      tails := e.2.tails.filter (fun t => !((copyBays c).filter (fun b => !s.bayShared c b)).contains (t.1 * 2 ^ 24 + bayOf t.2)) }) (fun _ => rfl) _ _
  unfold waiting
  rw [hp]
  rfl

theorem sight_wakeAll (step : Nat) (p : Req → Bool) : (s.wakeAll step p).sight = s.sight := by
  unfold wakeAll
  exact sight_foldl (fun (s : State) (r : Req) => s.wake r.id step) _ (fun _ _ _ => rfl) s

theorem sight_releaseCopy (c : Copy) : (s.releaseCopy c).sight = s.sight :=
  sight_ite (fun _ => rfl) (fun _ => (sight_wakeAll _ _).trans (sight_noteNear.trans (sight_freeCopy c)))

theorem sight_freeSlots : s.freeSlots.sight = s.sight := by
  unfold freeSlots
  exact sight_ite (fun _ => sight_noteTabs.trans rfl) (fun _ => rfl)

theorem sight_setCopies (p : Nat) (a b : Copy) (role : RoleB) : (s.setCopies p a b role).sight = s.sight :=
  sight_ite (fun _ => rfl) (fun _ => rfl)

theorem sight_leave (p : Nat) (c : Copy) (twin : Bool) : (s.leave p c twin).sight = s.sight := sight_ite (fun _ => rfl) (fun _ => rfl)

/-- A write ends a lent copy or releases a LOWER one (R250, R281). -/
theorem sight_writeResolves (h : s.Rests) (p blk : Nat) : (s.writeResolves p blk).sight = s.sight := by
  unfold writeResolves
  extract_lets a b s1 mark b1 s2
  have h1 : s1.sight = s.sight := sight_ite (fun _ => (sight_leave _ _ _).trans (sight_setCopies _ _ _ _)) (fun _ => sight_ite
    (fun _ => sight_freeSlots.trans ((sight_releaseCopy b).trans (sight_setCopies _ _ _ _))) (fun _ => rfl))
  have hj : s1.tide.jobs = [] := (h.of_sight h1).jobs
  have h2 : s2.sight = s1.sight := sight_congr (by unfold waiting; simp only [s2, hj, List.map_nil]; rfl) (fun _ _ => rfl) (fun _ => rfl)
  exact Eq.trans rfl (h2.trans h1)

/-! The kernel cannot unfold `devMode` on a symbolic offset (its address arithmetic is too deep), and it does so whenever it compares `devWrite`,
or what calls it, with the body. So these functions are never applied to arguments before the functions that they call are generalised: each
lemma below states a predicate of the function itself. `refine id ?_` seals the generalised statement in the proof term. -/

/-- A writer of part of a granule keeps the sight. -/
def WritesKeep (w : State → Nat → List Byte → Option State) : Prop := ∀ s : State, s.Rests → ∀ off bs t, w s off bs = some t → t.sight = s.sight

/-- A writer of an entry of a ring keeps the sight. -/
def PutsKeep {α : Type} (put : State → α → Option State) : Prop := ∀ s : State, s.Rests → ∀ x t, put s x = some t → t.sight = s.sight

/-- A function of the state keeps the sight where nothing waits. -/
def Keeps (f : State → State) : Prop := ∀ s : State, s.Rests → (f s).sight = s.sight

theorem sight_store (h : s.Rests) (p blk : Nat) (ws : List GW) : ((s.writeResolves p blk).writeNow ws).sight = s.sight :=
  (sight_writeNow _).trans (sight_writeResolves h _ _)

/-- The device's own write of one granule (R617; log 13). -/
theorem devWrite_keeps : WritesKeep devWrite := by
  delta devWrite
  generalize @devMode = mode
  revert mode
  refine id ?_
  intro mode s h off bs t e
  cases hm : mode s off (.writeMasked 0 []) with
  | none => simp only [hm] at e; cases e
  | some m =>
    simp only [hm] at e
    split at e
    · cases e
    · rename_i s1 hp
      have h1 : s1.sight = s.sight := by
        split at hp
        · split at hp
          · rename_i hq
            exact Option.some.inj hp ▸ (sight_placing _).trans (sight_place hq)
          · cases hp
        · cases hp
        · cases hp
        · cases hp; rfl
      split at e
      · cases e
      · rw [← Option.some.inj e]
        exact (sight_store (h.of_sight h1) _ _ _).trans h1

/-! ## The rings (R615–R627) -/

theorem ringPut_keeps : WritesKeep (fun s off bs => some (s.ringPut off bs)) := by
  have hw := devWrite_keeps
  delta ringPut
  generalize @devWrite = w at hw ⊢
  revert w
  refine id ?_
  intro w hw s h off bs t e
  rw [← Option.some.inj e]
  cases hr : w s (s.mgmt.ring.base + off) bs with
  | none => rfl
  | some s1 => exact hw s h _ _ _ hr

theorem sight_ringPut (h : s.Rests) (off : Nat) (bs : List Byte) : (s.ringPut off bs).sight = s.sight := ringPut_keeps s h off bs _ rfl

theorem putEvent_keeps : PutsKeep putEvent := by
  have hw := devWrite_keeps
  delta putEvent
  generalize @devWrite = w at hw ⊢
  revert w
  refine id ?_
  intro w hw s h x t e
  dsimp only at e
  split at e
  · cases e
  · split at e
    · cases e
    · rename_i s1 h1
      rw [← Option.some.inj e]
      have hb (r : Ring) : ((s1.setRing r).bump Obj.eventsWritten).sight = s.sight :=
        (sight_bump (by decide)).trans ((sight_setRing r).trans (hw s h _ _ _ h1))
      refine sight_ite (fun _ => (sight_pendIrq _).trans ?_) (fun _ => ?_) <;>
        exact sight_ite (fun _ => hb _) (fun _ => (sight_atLeast (by decide)).trans (hb _))

theorem putLog_keeps : PutsKeep putLog := by
  have hw := devWrite_keeps
  delta putLog
  generalize @devWrite = w at hw ⊢
  revert w
  refine id ?_
  intro w hw s h bs t e
  dsimp only at e
  split at e
  · cases e
  · split at e
    · cases e
    · rename_i s1 h1
      rw [← Option.some.inj e]
      have hb (r : Ring) : ((s1.setRing r).bump Obj.logWritten).sight = s.sight :=
        (sight_bump (by decide)).trans ((sight_setRing r).trans (hw s h _ _ _ h1))
      exact sight_ite (fun _ => (sight_pendIrq _).trans (hb _)) (fun _ => hb _)

theorem sight_owedEvent {x : Ev × State} (h : s.owedEvent = some x) : x.2.sight = s.sight := by
  unfold owedEvent at h
  split at h
  · cases h; rfl
  · split at h
    · cases h
    · cases h; rfl

/-- `pumpEvents` over any writer of an event. -/
def pumpEventsWith (put : State → Ev → Option State) : Nat → State → State
  | 0, s => s
  | n + 1, s =>
    match s.owedEvent with
    | some (e, s1) => (match put s1 e with
      | some s => pumpEventsWith put n s
      | none => s)
    | none => match s.aon.evq with
      | [] => s
      | e :: rest => match put { s with aon := { s.aon with evq := rest } } e with
        | some s => pumpEventsWith put n s
        | none => s

theorem pumpEvents_eq : pumpEvents = pumpEventsWith putEvent := by
  delta pumpEvents pumpEventsWith
  delta pumpEvents._f pumpEventsWith._f
  rfl

theorem pumpEventsWith_keeps {put : State → Ev → Option State} (hp : PutsKeep put) (n : Nat) : Keeps (pumpEventsWith put n) := by
  induction n with
  | zero => exact fun _ _ => rfl
  | succ n ih =>
    have step {s s1 s2 : State} {e : Ev} (h : s.Rests) (h1 : s1.sight = s.sight) (h2 : put s1 e = some s2) :
        (pumpEventsWith put n s2).sight = s.sight := by
      have h2' : s2.sight = s.sight := (hp s1 (h.of_sight h1) e s2 h2).trans h1
      exact (ih s2 (h.of_sight h2')).trans h2'
    intro s h
    unfold pumpEventsWith
    split
    · rename_i ho
      split
      · exact step h (sight_owedEvent ho) ‹_›
      · rfl
    · split
      · rfl
      · split
        · rename_i rest _ _ _ hs
          exact step h (s1 := { s with aon := { s.aon with evq := rest } }) rfl hs
        · rfl

/-- `pumpLogs` over any writer of a log entry. -/
def pumpLogsWith (put : State → List Byte → Option State) : Nat → State → State
  | 0, s => s
  | n + 1, s =>
    match s.mgmt.logq with
    | [] => s
    | e :: rest => match put { s with mgmt := { s.mgmt with logq := rest } } (logBytes e s.mgmt.ring.logTail) with
      | some s => pumpLogsWith put n s
      | none => s

theorem pumpLogs_eq : pumpLogs = pumpLogsWith putLog := by
  delta pumpLogs pumpLogsWith
  delta pumpLogs._f pumpLogsWith._f
  rfl

theorem pumpLogsWith_keeps {put : State → List Byte → Option State} (hp : PutsKeep put) (n : Nat) : Keeps (pumpLogsWith put n) := by
  induction n with
  | zero => exact fun _ _ => rfl
  | succ n ih =>
    intro s h
    unfold pumpLogsWith
    split
    · rfl
    · split
      · rename_i rest _ _ s1 h1
        have hq : ({ s with mgmt := { s.mgmt with logq := rest } } : State).sight = s.sight := rfl
        have h2 := (hp _ (h.of_sight hq) _ _ h1).trans hq
        exact (ih s1 (h.of_sight h2)).trans h2
      · rfl

theorem pumpRings_keeps : Keeps pumpRings := by
  have he := pumpEventsWith_keeps putEvent_keeps
  have hl := pumpLogsWith_keeps putLog_keeps
  rw [← pumpEvents_eq] at he
  rw [← pumpLogs_eq] at hl
  delta pumpRings
  generalize @pumpEvents = p at he ⊢
  generalize @pumpLogs = q at hl ⊢
  revert p q
  refine id ?_
  intro p he q hl s h
  refine sight_ite (fun _ => rfl) (fun _ => ?_)
  have h1 := he (s.aon.evq.length + 9) s h
  exact sight_ite (fun _ => (hl _ _ (h.of_sight h1)).trans h1) (fun _ => h1)

theorem sight_badBar0 : s.badBar0.sight = s.sight :=
  sight_ite (fun _ => (sight_raise _ _).trans (sight_bump (by decide))) (fun _ => rfl)

theorem sight_ringRefuse (reason : Nat) : (s.ringRefuse reason).sight = s.sight := (sight_raise _ _).trans (sight_setRing _)

/-- ENABLE while the ring's region is in use goes no further than its refusal (R615). -/
theorem sight_ringEnable (h : s.Rests) : s.ringEnable.sight = s.sight := by
  unfold ringEnable
  refine sight_ite (fun _ => sight_badBar0) (fun _ => sight_ite (fun _ => sight_setRing _) (fun _ => sight_ite (fun _ => ?_) (fun hn => ?_)))
  · exact (sight_ringRefuse 2).trans (sight_setRing _)
  · exact absurd (.inr h.pool.1) hn

theorem ringOffer_keeps : Keeps ringOffer := by
  have hw := @sight_ringPut
  delta ringOffer
  generalize @ringPut = w at hw ⊢
  generalize @devRead = r
  revert w r
  refine id ?_
  intro w hw r s h
  refine sight_ite (fun _ => sight_badBar0) (fun _ => ?_)
  have h1 := hw h 32 (leBytes 16 deviceFeatures.toNat ++ leBytes 16 deviceMandatory.toNat)
  dsimp only
  split
  · exact (sight_raise _ _).trans ((sight_setRing _).trans h1)
  · exact (sight_raise _ _).trans ((sight_setRing _).trans ((hw (h.of_sight h1) _ _).trans h1))

theorem sight_ringHead (r : HeadReg) (v : Nat) : (s.ringHead r v).sight = s.sight := by
  cases r <;> exact sight_ite (fun _ => sight_badBar0) (fun _ => sight_setRing _)

/-- DISABLE while an action on the ring's region is under way leaves the region (R618). -/
theorem sight_ringDisable (h : s.Rests) : s.ringDisable.sight = s.sight := by
  unfold ringDisable
  refine sight_ite (fun _ => sight_badBar0) (fun _ => (sight_raise _ _).trans ((sight_setSession _ _).trans (sight_ite ?_ ?_)))
  · exact fun hc => absurd hc.2 h.pool.1
  · intro _
    unfold regionRetire
    dsimp only
    split
    · exact sight_setNum (by decide)
    · rw [if_pos (by exact h.pool.2)]
      rfl

theorem ringBell_keeps (b : Bell) : Keeps (fun s => s.ringBell b) := by
  intro s h
  cases b with
  | enable => exact sight_ringEnable h
  | offer => exact ringOffer_keeps s h
  | disable => exact sight_ringDisable h
  | cmdTail v => exact sight_setRing _
  | head r v => exact sight_ringHead r v

/-- `pumpBells` over any effect of a doorbell. -/
def pumpBellsWith (ringBell : State → Bell → State) : Nat → State → State
  | 0, s => s
  | n + 1, s =>
    match s.mgmt.ring.bells with
    | [] => s
    | (ws, b) :: rest =>
      if ws.any (fun w => s.writesInFlight.contains w) then s
      else pumpBellsWith ringBell n (ringBell (s.setRing { s.mgmt.ring with bells := rest }) b)

theorem pumpBells_eq : pumpBells = pumpBellsWith ringBell := by
  delta pumpBells pumpBellsWith
  delta pumpBells._f pumpBellsWith._f
  rfl

theorem pumpBellsWith_keeps {ring : State → Bell → State} (hr : ∀ b, Keeps (fun s => ring s b)) (n : Nat) : Keeps (pumpBellsWith ring n) := by
  induction n with
  | zero => exact fun _ _ => rfl
  | succ n ih =>
    intro s h
    unfold pumpBellsWith
    split
    · rfl
    · split
      · rfl
      · rename_i b rest _ _
        have h1 := (hr b (s.setRing { s.mgmt.ring with bells := rest }) (h.of_sight (sight_setRing _))).trans (sight_setRing _)
        exact (ih _ (h.of_sight h1)).trans h1

theorem pumpBells_keeps (n : Nat) : Keeps (pumpBells n) := pumpBells_eq ▸ pumpBellsWith_keeps ringBell_keeps n

end Sys2Proof.Machine.State
end

section
/-! PROOFS. The rest of a step after the mismatches keeps the sight. -/

namespace Sys2Proof.Machine.State

variable {s t : State}

theorem aonDue_keeps : Keeps aonDue := by
  intro s h
  have ha : s.aonCycle = 0 := by unfold aonCycle; rw [h.now]
  unfold aonDue
  extract_lets p
  rw [if_neg (by rw [ha]; omega), if_neg (by rw [ha]; omega)]

theorem sight_pumpH8 : s.pumpH8.sight = s.sight := sight_wakeAll _ _

theorem sight_drain (n : Nat) (h : s.path.reqs = []) : (drain n s).sight = s.sight := by
  induction n generalizing s with
  | zero => rfl
  | succ n ih =>
    unfold drain
    split
    · rfl
    · rename_i id step rest _
      have hr : ({ s with path := { s.path with work := rest } } : State).req id = none := by unfold req; rw [h]; rfl
      dsimp only
      rw [hr]
      exact ih h

theorem endFences_none (n : Nat) (h : s.path.reqs = []) : endFences n s = s := by
  cases n with
  | zero => rfl
  | succ n => unfold endFences; rw [h]; rfl

theorem settle_keeps : Keeps settle := by
  intro s h
  unfold settle
  have h1 : (drain (2 ^ 20) s).sight = s.sight := sight_drain _ h.reqs
  have hr := h.of_sight h1
  generalize drain (2 ^ 20) s = t at h1 hr
  have hn : t.h7Needy = [] := by unfold h7Needy; rw [hr.reqs]; simp [byGrant]
  dsimp only
  rw [hr.store, hn]
  exact (congrArg sight (endFences_none _ hr.reqs)).trans h1

theorem deliverEp_keeps : Keeps deliverEp := by
  intro s h
  have he : ({ s with path := { s.path with epDone := [] } } : State).sight = s.sight :=
    sight_congr (by unfold waiting; rw [h.epDone]; rfl) (fun _ _ => rfl) (fun _ => rfl)
  unfold deliverEp
  rw [h.epDone]
  exact he

theorem sight_pumpSq : s.pumpSq.sight = s.sight := by
  refine sight_each _ _ (fun t x _ => ?_) s
  refine sight_ite (fun _ => rfl) (fun _ => ?_)
  exact sight_ite (fun _ => sight_pendIrq _) (fun _ => rfl)

theorem sight_pumpLent : s.pumpLent.sight = s.sight := by
  refine sight_ite (fun _ => rfl) (fun _ => sight_each _ _ (fun t r _ => ?_) s)
  refine sight_ite (fun _ => ?_) (fun _ => rfl)
  exact (sight_bump (s := t) (by decide) : (t.bump Obj.atsTranslations).sight = t.sight)

theorem sight_pumpRecal : s.pumpRecal.sight = s.sight :=
  sight_ite (fun _ => rfl) (fun _ => sight_each _ _ (fun t c _ => by
    dsimp only
    exact sight_ite (fun _ => rfl) (fun _ => rfl)) s)

theorem sight_deliverIrqs : s.deliverIrqs.sight = s.sight := by
  refine sight_ite (fun _ => rfl) (fun _ => sight_ite (fun _ => ?_) (fun _ => sight_ite (fun _ => rfl) (fun _ => sight_ite (fun _ => ?_)
    (fun _ => sight_ite (fun _ => rfl) (fun _ => sight_ite (fun _ => rfl) (fun _ => ?_))))))
  · exact sight_ite (fun _ => (sight_raise _ _).trans rfl) (fun _ => rfl)
  · exact (sight_each (fun (t : State) (v : Nat) => t.emit (.msix v)) _ (fun _ _ _ => rfl) _).trans rfl
  · exact sight_ite (fun _ => rfl) (fun _ => rfl)

theorem startMsgs_of_down {p : Fin 16} (h : s.ports[p].state = .down) : s.startMsgs p = s := by
  have hs : sends s.ports[p] = false := by unfold sends; rw [h]; rfl
  unfold startMsgs
  dsimp only
  rw [hs]
  rfl

theorem startAll_keeps : Keeps startAll := by
  intro s h
  have key : ∀ ps : List (Fin 16), s.each ps (fun s p => if s.ports[p].stalled || s.ports[p].ready.isEmpty then s else s.startMsgs p) = s := by
    intro ps
    induction ps with
    | nil => rfl
    | cons p ps ih =>
      have hp : (if s.ports[p].stalled || s.ports[p].ready.isEmpty then s else s.startMsgs p) = s := by
        rw [startMsgs_of_down (h.ports p), ite_self]
      unfold each at ih ⊢
      rw [List.foldl_cons, hp, ih]
  unfold startAll
  rw [key]

theorem Keeps.comp {f g : State → State} (hf : Keeps f) (hg : Keeps g) : Keeps (fun s => f (g s)) :=
  fun s h => (hf _ (h.of_sight (hg s h))).trans (hg s h)

/-- After the mismatches, the rest of a step keeps the sight of a state where nothing waits. -/
theorem sight_after (h : s.mismatches.Rests) : s.after.sight = s.mismatches.sight := by
  have h1 : Keeps fun s => s.aonDue.pumpH8.settle.watchNear.noteBacking.deliverEp :=
    deliverEp_keeps.comp (Keeps.comp (fun _ _ => sight_noteBacking) (Keeps.comp (fun _ _ => sight_watchNear)
      (settle_keeps.comp (Keeps.comp (fun _ _ => sight_pumpH8) aonDue_keeps))))
  have h2 : Keeps fun s => (pumpBells s.mgmt.ring.bells.length s).pumpRings.settle :=
    settle_keeps.comp (pumpRings_keeps.comp fun s hs => pumpBells_keeps _ s hs)
  have h3 : Keeps fun s => s.pumpSq.pumpLent.pumpRecal.deliverIrqs.startAll.watchSlots :=
    Keeps.comp (fun _ _ => sight_watchSlots) (startAll_keeps.comp (Keeps.comp (fun _ _ => sight_deliverIrqs)
      (Keeps.comp (fun _ _ => sight_pumpRecal) (Keeps.comp (fun _ _ => sight_pumpLent) fun _ _ => sight_pumpSq))))
  unfold after
  exact (h3.comp (h2.comp h1)) _ h

end Sys2Proof.Machine.State
end

section
/-! PROOFS. Core restarts: what an injected mismatch can do to capacity ebbing (R606, R641, R718). -/

namespace Sys2Proof.Machine.State

variable {s t : State}

/-- From one state to another, what waits stays the same, and so does capacity ebbing where `UPD_STATE` reads 0 afterwards; it then read 0
before. -/
def Leads (s t : State) : Prop := t.waiting = s.waiting ∧ (t.updSt = 0 → s.updSt = 0 ∧ t.tide.ebbing = s.tide.ebbing)

theorem Leads.refl (s : State) : Leads s s := ⟨rfl, fun h => ⟨h, rfl⟩⟩

theorem Leads.trans {s t u : State} (h1 : Leads s t) (h2 : Leads t u) : Leads s u :=
  ⟨h2.1.trans h1.1, fun h => ⟨(h1.2 (h2.2 h).1).1, (h2.2 h).2.trans (h1.2 (h2.2 h).1).2⟩⟩

theorem Leads.of_eq (hw : t.waiting = s.waiting) (hn : t.num Obj.updState = s.num Obj.updState) (he : t.tide.ebbing = s.tide.ebbing) :
    Leads s t := ⟨hw, fun h => ⟨hn.symm.trans h, he⟩⟩

theorem Leads.of_sight (e : t.sight = s.sight) (he : t.tide.ebbing = s.tide.ebbing) : Leads s t :=
  Leads.of_eq (waiting_of_sight e) (num_of_sight e (by decide)) he

theorem Leads.of_ne (hw : t.waiting = s.waiting) (h : t.updSt ≠ 0) : Leads s t := ⟨hw, fun h0 => absurd h0 h⟩

theorem Leads.reqs (h : Leads s t) (hr : s.path.reqs = []) : t.path.reqs = [] := (congrArg Waiting.reqs h.1).trans hr

theorem Leads.waiters (h : Leads s t) (hr : s.path.waiters = []) : t.path.waiters = [] := (congrArg Waiting.waiters h.1).trans hr

theorem leads_ite {c : Prop} [Decidable c] {r s t : State} (hs : c → Leads r s) (ht : ¬ c → Leads r t) : Leads r (if c then s else t) := by
  split
  · exact hs ‹_›
  · exact ht ‹_›

theorem leads_setNum {k v : Nat} (h : k = Obj.updState → v ≠ 0) : Leads s (s.setNum k v) := by
  by_cases hk : k = Obj.updState
  · subst hk
    refine Leads.of_ne rfl ?_
    unfold updSt
    rw [num_setNum_self]
    exact h rfl
  · exact Leads.of_eq rfl (num_setNum_ne _ _ (Ne.symm hk)) rfl

theorem leads_bump {k : Nat} : Leads s (s.bump k) := by
  unfold bump
  exact leads_setNum (fun _ => by omega)

theorem leads_raise (code detail : Nat) : Leads s (s.raise code detail) :=
  Leads.of_sight (sight_raise _ _) (by simp)

theorem leads_logBackup (code detail : Nat) (sf bk : Bool) : Leads s (s.logBackup code detail sf bk) :=
  Leads.of_sight (sight_logBackup _ _ _ _) (by simp)

theorem waiting_ports {f : State → Port → Port} (hf : ∀ x, (f s x).state = x.state) :
    ({ s with ports := s.ports.map (f s) } : State).waiting = s.waiting := by
  unfold waiting
  congr 1
  funext p
  simp [hf]

theorem leads_sendLinkEvent (code : Nat) : Leads s (s.sendLinkEvent code) := by
  refine Leads.of_eq (waiting_ports (f := fun s p => if p.state = .up then { p with ready := p.ready ++ [s.linkEvent code] } else p) ?_) rfl rfl
  intro x
  split <;> rfl

theorem leads_foldl {α : Type} (f : State → α → State) (xs : List α) (h : ∀ s x, Leads s (f s x)) (s : State) : Leads s (xs.foldl f s) := by
  induction xs generalizing s with
  | nil => exact Leads.refl s
  | cons x xs ih => exact (h s x).trans (ih _)

theorem leads_latchAlert : Leads s s.latchAlert := Leads.of_eq rfl (num_setNum_ne _ _ (by decide)) rfl

/-- What `pushEv`, `logEntry` and `traceEvent` leave for a safety event. -/
theorem leads_report (e : Ev) (code detail : Nat) : Leads s ((((s.pushEv e).logEntry code 4).traceEvent code detail).emit (.event code detail)) := by
  refine Leads.of_eq (waiting_of_parts ?_ ?_ ?_ ?_ ?_ ?_) ?_ ?_
  · simp
  · simp
  · simp
  · simp
  · simp
  · simp
  · have h : reportObj Obj.updState = false := by decide
    exact (trace_num _ _ _ _ _ _ _ _ _ _ h).trans ((logEntry_num _ _ _ _ h).trans (pushEv_num _ _ _ h))
  · simp

theorem leads_pendIrq (v : Nat) : Leads s (s.pendIrq v) := Leads.of_sight (sight_pendIrq v) (by simp)

theorem leads_raiseSafety (code detail cls : Nat) : Leads s (s.raiseSafety code detail [cls]) := by
  unfold raiseSafety
  extract_lets top s1 s2 s3 s4 s5 s6 s7
  have h1 : Leads s s1 := leads_bump
  have h2 : Leads s1 s2 := leads_setNum (fun e => absurd e (by decide))
  have h3 : Leads s2 s3 := leads_setNum (fun e => absurd e (by decide))
  have h4 : Leads s3 s4 := leads_setNum (fun e => absurd e (by decide))
  have h5 : Leads s4 s5 := leads_latchAlert
  have h6 : Leads s5 s6 := leads_report _ _ _
  have h7 : Leads s6 s7 := leads_raise _ _
  exact h1.trans (h2.trans (h3.trans (h4.trans (h5.trans (h6.trans (h7.trans ((leads_pendIrq 0).trans ((leads_sendLinkEvent _).trans (leads_logBackup _ _ _ _)))))))))

theorem leads_setBit (key i : Nat) : Leads s (s.setBit key i) :=
  leads_ite (fun _ => Leads.refl s) (fun _ => leads_setNum (fun _ => by have := Nat.two_pow_pos i; omega))

theorem leads_setDevState (d : DevState) : Leads s (s.setDevState d) := by
  unfold setDevState
  refine leads_ite (fun _ => Leads.refl s) (fun _ => ?_)
  extract_lets old s1 s2
  have h1 : Leads s s1 := leads_setNum (fun e => absurd e (by decide))
  have h2 : Leads s1 s2 := (leads_setNum (fun e => absurd e (by decide)) : Leads s1 (s1.setNum _ _)).trans leads_bump
  have h3 : Leads s2 { s2 with dev := { s2.dev with state := d } } := Leads.of_eq rfl rfl rfl
  exact h1.trans (h2.trans (h3.trans ((leads_raise _ _).trans (leads_logBackup _ _ _ _))))

theorem leads_fenceBit (key i cls : Nat) : Leads s (s.fenceBit key i cls) := by
  unfold fenceBit fenced toDegraded
  have h : Leads s ((s.setBit key i).raiseSafety 0x8020 (key % 256 * 256 + i) [cls]) := (leads_setBit key i).trans (leads_raiseSafety _ _ _)
  exact leads_ite (fun _ => h.trans (leads_setDevState _)) (fun _ => h)

theorem leads_keepNum (key : Nat) : Leads s (s.keepNum key) := leads_ite (fun _ => Leads.refl s) (fun _ => Leads.of_eq rfl rfl rfl)

theorem leads_chans (cs : FMap ChanSt) : Leads s { s with dram := { s.dram with chans := cs } } := Leads.of_eq rfl rfl rfl

theorem leads_work (w : List (Nat × Nat)) : Leads s { s with path := { s.path with work := w } } := Leads.of_eq rfl rfl rfl

theorem updReq_of_none (h : s.path.reqs = []) (id : Nat) (f : Req → Req) : s.updReq id f = s := by
  unfold updReq
  rw [h]
  show { s with path := { s.path with reqs := [] } } = s
  rw [← h]

/-- Where no request is under way, dropped accesses send none back. -/
theorem leads_dropAccesses (h : s.path.reqs = []) (p : Nat → Bool) : Leads s (s.dropAccesses p) := by
  have hk : ∀ (os : List Nat) (t : State), t.path.reqs = [] → Leads t (os.foldl (fun s o =>
      (s.updReq o (fun r => { r with need := [], got := [], writes := 0, stage := .tide })).wake o 6) t) := by
    intro os
    induction os with
    | nil => exact fun t _ => Leads.refl t
    | cons o os ih =>
      intro t ht
      rw [List.foldl_cons, updReq_of_none ht]
      exact (leads_work _).trans (ih (t.wake o 6) ht)
  unfold dropAccesses
  exact (leads_chans _).trans (hk _ _ h)

/-- Where no request waits at a Bollard, none ends there. -/
theorem leads_endWaiters (h : s.path.waiters = []) (p : Waiter → Bool) (st : Waiter → Cpl) : Leads s (s.endWaiters p st) := by
  have h1 : Leads s { s with path := { s.path with waiters := [] } } := Leads.of_eq (by unfold waiting; rw [h]; rfl) rfl rfl
  have h2 (t : State) : Leads t t.waitLevel := by
    unfold waitLevel
    refine Leads.of_sight ((sight_evalNotice (by decide) _ _ _).trans (sight_setNum (by decide))) ?_
    rw [evalNotice_tide]
    rfl
  unfold endWaiters
  dsimp only [each]
  simp only [h, List.filter_nil, List.foldl_nil]
  exact h1.trans (h2 _)

theorem each_of_nil {α : Type} {xs : List α} (h : xs = []) (f : State → α → State) : s.each xs f = s := by
  subst h
  rfl

theorem leads_enterSafe (hr : s.path.reqs = []) (hw : s.path.waiters = []) (cause cls : Nat) : Leads s (s.enterSafe cause cls) := by
  have h2 : Leads s (((s.setNum Obj.safeCause cause).setDevState .safe).raiseSafety 0x8030 cause [cls]) :=
    ((leads_setNum fun e => absurd e (by decide)).trans (leads_setDevState _)).trans (leads_raiseSafety _ _ _)
  have h3 (p : Waiter → Bool) (st : Waiter → Cpl) := h2.trans (leads_endWaiters (h2.waiters hw) p st)
  unfold enterSafe
  refine leads_ite (fun _ => Leads.refl s) (fun _ => ?_)
  dsimp only
  rw [each_of_nil ((h3 _ _).reqs hr)]
  exact (h3 _ _).trans (leads_work _)

theorem leads_setSlot (n : Nat) (x : FarSlot) : Leads s (s.setSlot n x) := Leads.of_eq rfl rfl rfl

theorem leads_setUnit (u : Nat) (x : DUnitSt) : Leads s (s.setUnit u x) := Leads.of_eq rfl rfl rfl

theorem leads_fenceStack (h : s.Rests) (k cls : Nat) : Leads s (s.fenceStack k cls) := by
  unfold fenceStack
  refine leads_ite (fun _ => Leads.refl s) (fun _ => ?_)
  extract_lets s1 s2 x s3 s4
  have h1 : Leads s s1 := (leads_raise _ _).trans (leads_fenceBit _ _ _)
  have h2 : Leads s s2 := h1.trans ((leads_keepNum _).trans ((leads_setBit _ _).trans (leads_raiseSafety _ _ _)))
  have h3 : Leads s s3 := h2.trans (leads_setUnit _ _)
  have h4 : Leads s s4 := h3.trans (leads_dropAccesses (h3.reqs h.reqs) _)
  exact leads_ite (fun _ => h4.trans (leads_enterSafe (h4.reqs h.reqs) (h4.waiters h.waiters) _ _)) (fun _ => h4)

theorem leads_fenceChan (h : s.Rests) (m cls : Nat) : Leads s (s.fenceChan m cls) := by
  unfold fenceChan
  refine leads_ite (fun _ => Leads.refl s) (fun _ => ?_)
  extract_lets s1 x s2 s3
  have h1 : Leads s s1 := (leads_raise _ _).trans (leads_fenceBit _ _ _)
  have h2 : Leads s s2 := h1.trans (leads_setUnit _ _)
  have h3 : Leads s s3 := h2.trans (leads_foldl _ _ (fun t n => (leads_setBit _ _).trans (leads_setSlot _ _)) _)
  exact h3.trans (leads_dropAccesses (h3.reqs h.reqs) _)

theorem leads_beginFill : Leads s s.beginFill :=
  leads_ite (fun _ => leads_setNum (fun e => absurd e (by decide))) (fun _ => Leads.refl s)

/-- A failed training attempt; the third fences its unit (R471). -/
theorem leads_trainingDone (h : s.Rests) (u : Nat) : Leads s (s.trainingDone u false) := by
  unfold trainingDone
  have h1 (x : DUnitSt) : Leads s ((s.setUnit u x).raise 0x6002 u) := (leads_setUnit _ _).trans (leads_raise _ _)
  have h2 (x : DUnitSt) : Leads s ((((s.setUnit u x).raise 0x6002 u).raise 0x6003 u).fenceUnit u 7) := by
    have h3 := (h1 x).trans (leads_raise 0x6003 u)
    exact h3.trans (leads_ite (fun _ => leads_fenceStack (h.of_waiting h3.1) _ _) (fun _ => leads_fenceChan (h.of_waiting h3.1) _ _))
  refine leads_ite (fun _ => Leads.refl s) (fun _ => ?_)
  rw [if_neg Bool.false_ne_true]
  exact leads_ite (fun _ => (h2 _).trans leads_beginFill) (fun _ => h1 _)

theorem leads_each {α : Type} (f : State → α → State) (hf : ∀ s x, s.Rests → Leads s (f s x)) (xs : List α) (h : s.Rests) : Leads s (s.each xs f) := by
  unfold each
  induction xs generalizing s with
  | nil => exact Leads.refl s
  | cons x xs ih => exact (hf s x h).trans (ih (h.of_waiting (hf s x h).1))

theorem leads_coreGone (h : s.Rests) (c : Nat) : Leads s (s.coreGone c) :=
  leads_ite (fun _ => leads_each _ (fun _ u ht => leads_trainingDone ht u) _ h) (fun _ => Leads.refl s)

theorem leads_restartCore (h : s.Rests) (c event : Nat) : Leads s (s.restartCore c 2 event) := by
  unfold restartCore
  extract_lets recent m s1 s2 s3 s4
  have h1 : Leads s s1 := Leads.of_eq rfl rfl rfl
  have h2 : Leads s s2 := h1.trans ((leads_bump.trans (leads_setNum (fun _ => by decide))).trans (leads_setNum (fun _ => by decide)))
  have h3 : Leads s s3 := h2.trans (leads_ite (fun _ => Leads.refl _) (fun _ => leads_raise _ _))
  have h3' : Leads s (s3.logBackup event c false false) := h3.trans (leads_logBackup _ _ _ _)
  have h4 : Leads s s4 := h3'.trans (leads_coreGone (h.of_waiting h3'.1) c)
  exact leads_ite (fun _ => h4.trans ((leads_setNum (fun _ => by decide) : Leads s4 (s4.failCore c)).trans (leads_raise _ _))) (fun _ => h4)

/-! ## The answer of an update when Core M restarts (R718) -/

/-- An answer of a ring command keeps the sight. -/
def AnswersKeep (a : State → Status → Nat → List Byte → Nat → State) : Prop :=
  ∀ s : State, s.Rests → ∀ st hint val total, (a s st hint val total).sight = s.sight

theorem finishCmd_keeps : AnswersKeep finishCmd := by
  have hw := devWrite_keeps
  delta finishCmd
  generalize @devWrite = w at hw ⊢
  revert w
  refine id ?_
  intro w hw s h st hint val total
  dsimp only
  split
  · rfl
  · rename_i id e _
    have hb (c : Prop) [Decidable c] (o : Out) (r : Ring) : (((if c then s.emit o else s).setRing r).bump Obj.commands).sight = s.sight :=
      (sight_bump (by decide)).trans (sight_ite (fun _ => rfl) (fun _ => rfl) : (if c then s.emit o else s).sight = s.sight)
    split
    · exact hb _ _ _
    · rename_i s1 h1
      have hs := (hw _ (h.of_sight (hb _ _ _)) _ _ _ h1).trans (hb _ _ _)
      exact sight_ite (fun _ => (sight_pendIrq _).trans hs) (fun _ => hs)

theorem sight_updPort (p : Fin 16) (f : Port → Port) (hf : ∀ x, (f x).state = x.state) : (s.updPort p f).sight = s.sight := by
  refine sight_congr ?_ (fun _ _ => rfl) (fun _ => rfl)
  have hp : (fun q : Fin 16 => (s.updPort p f).ports[q].state) = fun q => s.ports[q].state := by
    funext q
    unfold updPort
    simp only [Fin.getElem_fin, Vector.getElem_set]
    split
    · rename_i hpq
      rw [hf]
      simp only [hpq]
    · rfl
  unfold waiting
  rw [hp]
  rfl

theorem reply_keeps (w : Who) (op : Nat) (st : Status) (hint ty off : Nat) (val : List Byte) (total : Nat) (noTag : Bool) :
    Keeps (fun s => s.reply w op st hint ty off val total noTag) := by
  have hc := finishCmd_keeps
  delta reply
  generalize @finishCmd = c at hc ⊢
  revert c
  refine id ?_
  intro c hc s h
  dsimp only
  generalize hs1 : (if st = .denied then s.bump Obj.denials else s) = s1
  have h1 : s1.sight = s.sight := hs1 ▸ sight_ite (fun _ => sight_bump (by decide)) (fun _ => rfl)
  split
  · refine (sight_emit _).trans ((sight_bump (by decide)).trans (Eq.trans ?_ h1))
    exact sight_ite (fun _ => rfl) (fun _ => sight_ite (fun _ => rfl) (fun _ => rfl))
  · exact sight_ite (fun _ => sight_ite (fun _ => (hc s1 (h.of_sight h1) _ _ _ _).trans h1) (fun _ => h1)) (fun _ => h1)
  · refine (sight_updPort _ _ ?_).trans h1
    exact fun _ => rfl

theorem sight_rebuildDesc : s.rebuildDesc.sight = s.sight := rfl

theorem sight_latchImage (i : Nat) : (s.latchImage i).sight = s.sight :=
  sight_rebuildDesc.trans <| (sight_setNum (k := Obj.activeBank) (by decide)).trans ((sight_setBlob _ _).trans (sight_setNum (k := Obj.fwVersion) (by decide)))

theorem sight_commitImage : s.commitImage.sight = s.sight :=
  (sight_latchImage _).trans (sight_setNum (k := Obj.updTrialRuns) (by decide))

theorem updReply_keeps (st : Status) (reason : Nat) : Keeps (fun s => s.updReply st reason) := by
  intro s h
  have h1 : ((s.setUpd { s.mgmt.upd with owed := none }).updAns st reason).2.sight = s.sight :=
    (sight_setNum (by decide)).trans (sight_setNum (by decide))
  dsimp only
  unfold updReply
  dsimp only
  split
  · exact (reply_keeps _ _ _ _ _ _ _ _ _ _ (h.of_sight h1)).trans h1
  · exact h1

theorem sight_openStatus : s.openStatus.2.sight = s.sight := rfl

theorem leads_updCoreM (h : s.Rests) : Leads s s.updCoreM := by
  unfold updCoreM
  split
  · rename_i h5
    dsimp only
    split
    · have hc : s.recordDrawn.2.commitImage.sight = s.sight := sight_commitImage.trans rfl
      refine Leads.of_ne (waiting_of_sight hc) ?_
      unfold updSt
      rw [num_of_sight hc (by decide)]
      exact fun h0 => absurd (h5.1.symm.trans h0) (by decide)
    · have h1 : ((s.recordDrawn.2.setNum Obj.updState 2).raise 0xA00B).openStatus.2.sight = (s.setNum Obj.updState 2).sight :=
        sight_openStatus.trans (sight_raise _ _)
      have hr : (s.setNum Obj.updState 2).Rests := h.of_waiting rfl
      generalize ((s.recordDrawn.2.setNum Obj.updState 2).raise 0xA00B).openStatus = y at h1 ⊢
      have h2 : (y.2.updReply y.1 0).sight = (s.setNum Obj.updState 2).sight := (updReply_keeps y.1 0 y.2 (hr.of_sight h1)).trans h1
      refine Leads.of_ne ((waiting_of_sight h2).trans rfl) ?_
      unfold updSt
      rw [num_of_sight h2 (by decide), num_setNum_self]
      decide
  · exact Leads.refl s

theorem leads_coreFault (h : s.Rests) (c event : Nat) : Leads s (s.coreFault c 2 event) := by
  unfold coreFault
  have h1 := leads_restartCore h c event
  exact leads_ite (fun _ => Leads.refl s) (fun _ => leads_ite (fun _ => h1.trans (leads_updCoreM (h.of_waiting h1.1))) (fun _ => h1))

/-- The mismatches of a step lead on: none brings capacity ebbing to an end while `UPD_STATE` stays 0. -/
theorem leads_mismatches (h : s.Rests) : Leads s s.mismatches := by
  have hi (x : List (Nat × Nat)) : Leads s { s with mgmt := { s.mgmt with inject := x } } := Leads.of_eq rfl rfl rfl
  unfold mismatches
  refine (hi _).trans (leads_each _ (fun t e ht => ?_) _ (h.of_waiting (hi _).1))
  have h1 := leads_raise (s := t) 0x9030 e.1
  exact h1.trans (leads_coreFault (ht.of_waiting h1.1) _ _)

theorem ran_objs (f : State → State) : (s.ran f).objs = (f s).after.objs := idles_changes _ _ .objs (by decide)

theorem ran_tide (f : State → State) : (s.ran f).tide = (f s).after.tide := idles_changes _ _ .tide (by decide)

/-- Two effects with one result: capacity ebbing, where it ends steady with `UPD_STATE` 0, is what the other effect left. -/
theorem ebbing_of_ran_eq {f g : State → State} (e : s.ran f = s.ran g) (hf : (f s).Rests) (hg : (g s).mismatches.Rests)
    (hs : (g s).mismatches.steady = true) (h0 : (g s).mismatches.updSt = 0) : (f s).tide.ebbing = (g s).mismatches.tide.ebbing := by
  have hl := leads_mismatches hf
  have ef := sight_after (hf.of_waiting hl.1)
  have eg := sight_after hg
  have ht : (f s).after.tide = (g s).after.tide := by rw [← ran_tide, ← ran_tide, e]
  have hn {k : Nat} (hk : k ∈ watched) : (f s).mismatches.num k = (g s).mismatches.num k := by
    have ho : (f s).after.num k = (g s).after.num k := by unfold num; rw [← ran_objs, ← ran_objs, e]
    rw [← num_of_sight ef hk, ← num_of_sight eg hk, ho]
  have hsf : (f s).mismatches.steady = true := (steady_congr fun _ hk => hn hk).trans hs
  have ebb {t u : State} (h : t.sight = u.sight) (hu : u.steady = true) : t.tide.ebbing = u.tide.ebbing := by
    have hst : t.steady = true := (steady_congr fun _ hk => num_of_sight h hk).trans hu
    have := congrArg (·.2.2) h
    simpa [sight, hst, hu] using this
  have hw : (f s).mismatches.tide.ebbing = (g s).mismatches.tide.ebbing := by
    rw [← ebb ef hsf, ← ebb eg hs, ht]
  have h0f : (f s).mismatches.updSt = 0 := (hn (by decide)).trans h0
  exact (hl.2 h0f).2.symm.trans hw

end Sys2Proof.Machine.State
end

section
/-! PROOFS. Two states in which an action on a region ends capacity ebbing: the frames of the statements on regions and on sealing pin it. -/

namespace Sys2Proof.Machine.State

variable {s u v : State} {c : Instr}

theorem Rests.of_changesOnly (h : s.Rests) (hc : s.changesOnly u [.objs, .ctl, .aon, .mgmt, .out]) (hr : u.region 4095 = s.region 4095) :
    u.Rests := by
  refine h.of_waiting ?_
  unfold waiting
  rw [hr, hc .path (by decide), hc .dir (by decide), hc .tide (by decide), hc .ports (by decide), hc .dev (by decide)]

/-- A command whose effect `v` lets a fault of Core C fence stack 0 after capacity ebbing ended cannot have left capacity ebbing as it was:
the rest of the step keeps whatever the effect left. -/
theorem not_leaves_of_ebbing (hv : Leaves c s v) (hs : s.Rests) (he : s.tide.ebbing = true) (hm : v.mismatches.Rests)
    (hst : v.mismatches.steady = true) (h0 : v.mismatches.updSt = 0) (hne : v.mismatches.tide.ebbing = false)
    (hc : s.changesOnly u [.objs, .ctl, .aon, .mgmt, .out]) (hr : u.region 4095 = s.region 4095) : ¬ Leaves c s u := by
  intro hu
  unfold Leaves at hu hv
  have e : s.ran (fun _ => u) = s.ran (fun _ => v) := Host.Outcome.next.inj (hu.symm.trans hv)
  have hb : u.tide.ebbing = v.mismatches.tide.ebbing :=
    ebbing_of_ran_eq (f := fun _ => u) (g := fun _ => v) e (hs.of_changesOnly hc hr) hm hst h0
  rw [hc .tide (by decide), he, hne] at hb
  exact absurd hb (by decide)

/-- In service with capacity ebbing on and a high mark `high`: stack 0 in its third training attempt, a mismatch injected in Core C, region
0 as given, and region 4,095 retiring. -/
def ebbingState (high : Nat) (bays : FMap Nat) (r : Region) : State :=
  { State.reset with
    dev := { State.reset.dev with state := .service }
    objs := { State.reset.objs with
      vals := FMap.put (FMap.put (FMap.put State.reset.objs.vals Obj.nearLowMark 0) Obj.nearHighMark high) (Obj.coreState 3) 2 }
    dram := { State.reset.dram with units := [(0, { DUnitSt.untrained with st := .training, attempts := 2 })] }
    tide := { State.reset.tide with ebbing := true, bays := bays }
    mgmt := { State.reset.mgmt with inject := [(3, 1)] }
    ctl := { State.reset.ctl with regions :=
      [(0, r), (4095, { Region.free with st := .retiring, act := .retire, mode := { Mode.none with base := 2 ^ 40, len := 65536 } })] } }

/-- Sixteen pages whose region serves master 0. -/
def sixteenPages : Mode := { Mode.none with len := 16 * 65536, mask := 1 }

/-- Region 0 is SEALING and reserves 16 near pages of which none holds data: its end frees them, and NEAR_FREE rises to the high mark. -/
def sealingEbbs : State := ebbingState 7716688 [] { Region.free with st := .sealing, mode := sixteenPages, near := true, pages := 16 }

/-- Region 0 is OPEN with a commit to PIN_NEAR under way, and a page of it lies in the near tier: the commit's end counts that page's bay to
the reservation, and NEAR_FREE rises to the high mark. -/
def commitEbbs : State := ebbingState 7716672 [(83990, 1)]
  { Region.free with
    st := .open, mode := sixteenPages, near := true, pages := 16
    act := .commit, who := some ⟨.window, 0, 0, [], 0, 0⟩, staged := { sixteenPages with tier := 1 } }

theorem ebbingState_rests (high : Nat) (bays : FMap Nat) (r : Region) : (ebbingState high bays r).Rests where
  reqs := rfl
  store := rfl
  epDone := rfl
  waiters := rfl
  ents := rfl
  txns := rfl
  census := rfl
  jobs := rfl
  ports := (by decide : ∀ p : Fin 16, State.reset.ports[p].state = .down)
  now := rfl
  pool := by
    have h : (ebbingState high bays r).region 4095 =
      { Region.free with st := .retiring, act := .retire, mode := { Mode.none with base := 2 ^ 40, len := 65536 } } := rfl
    rw [h]
    exact ⟨by decide, by decide⟩

theorem sealingEbbs_after : (sealingEbbs.sealingComplete 0).mismatches.Rests := Rests.of_and (by decide +kernel)

theorem commitEbbs_after : ((commitEbbs.commitComplete 0).h3Pump 1).mismatches.Rests := Rests.of_and (by decide +kernel)

end Sys2Proof.Machine.State

namespace Sys2Proof.Machine

open State

/-- Refutes O45: at the end of sealing NEAR_FREE rises to the high mark, and capacity ebbing ends (R257). The clause on SEALING_COMPLETE keeps
`tide` and with it capacity ebbing, which does not end later in that step, since a stack is fenced meanwhile. -/
theorem not_sealingBuildsTables : ¬ Obligations.SealingBuildsTables := by
  unfold Obligations.SealingBuildsTables
  intro h
  obtain ⟨-, -, hc, -⟩ := h sealingEbbs ⟨.window, 0, 0, [], 0, 0⟩ 0
  obtain ⟨u, hu, hch, -, hoth, -⟩ := hc rfl rfl (by decide +kernel) rfl
  have hv : Leaves (.sealingComplete 0) sealingEbbs (sealingEbbs.sealingComplete 0) :=
    leaves_wf (f := fun s => s.sealingComplete 0) (fun _ => rfl) rfl
  exact not_leaves_of_ebbing hv (ebbingState_rests _ _ _) rfl sealingEbbs_after (by decide +kernel) (by decide +kernel) (by decide +kernel)
    hch (hoth 4095 (by decide)) hu

/-- Refutes O44: at the end of a commit to PIN_NEAR a page that lies in the near tier counts to the reservation, NEAR_FREE rises to the high
mark, and capacity ebbing ends (R257). The clause on COMMIT_COMPLETE keeps `tide` and with it capacity ebbing, which does not end later in
that step, since a stack is fenced meanwhile. -/
theorem not_regionsCommitAndRetire : ¬ Obligations.RegionsCommitAndRetire := by
  unfold Obligations.RegionsCommitAndRetire
  intro h
  obtain ⟨-, hc, -⟩ := h commitEbbs ⟨.window, 0, 0, [], 0, 0⟩ 0
  obtain ⟨u, evs, hu, hch, -, hoth, -⟩ := hc (.inr ⟨rfl, rfl⟩) ⟨rfl, by simp [commitEbbs, ebbingState, State.reset]⟩ rfl rfl (by decide +kernel) rfl
  have hv : Leaves (.commitComplete 0) commitEbbs ((commitEbbs.commitComplete 0).h3Pump 1) :=
    leaves_wf (f := fun s => (s.commitComplete 0).h3Pump (s.ctl.h3.length + 1)) (fun _ => rfl) rfl
  exact not_leaves_of_ebbing hv (ebbingState_rests _ _ _) rfl commitEbbs_after (by decide +kernel) (by decide +kernel) (by decide +kernel)
    hch (hoth 4095 (by decide)) hu

end Sys2Proof.Machine
end
